-- ==== Sys2Proof/Word.lean ====
section
/-! DEFINITION. The 32-bit register word, the byte, and the sparse table that holds everything the block has many of. -/
namespace Sys2Proof

/-- A 32-bit word: every register and every payload word. -/
abbrev Word := BitVec 32

/-- A byte of the sample memory. -/
abbrev Byte := BitVec 8

/-- A sparse table: pairs of a key and an entry, keys strictly rising, no entry equal to the table's default. -/
abbrev Tbl (α : Type) := List (Nat × α)

namespace Tbl
variable {α : Type}

/-- The entry listed at `k`, if any. -/
def find : Tbl α → Nat → Option α
  | [], _ => none
  | (j, v) :: m, k => if j = k then some v else find m k

/-- The entry at `k`; `d` where none is listed. -/
def get (d : α) (m : Tbl α) (k : Nat) : α := (find m k).getD d

/-- The table without an entry at `k`. -/
def erase : Tbl α → Nat → Tbl α
  | [], _ => []
  | (j, v) :: m, k => if j = k then erase m k else (j, v) :: erase m k

/-- The table with `v` listed at `k`, in its place. -/
def insert : Tbl α → Nat → α → Tbl α
  | [], k, v => [(k, v)]
  | (j, x) :: m, k, v =>
    if k < j then (k, v) :: (j, x) :: m
    else if k = j then (k, v) :: m
    else (j, x) :: insert m k v

/-- The table with entry `v` at `k`; an entry equal to the default `d` is removed, so the form stays canonical. -/
def set [DecidableEq α] (d : α) (m : Tbl α) (k : Nat) (v : α) : Tbl α :=
  if v = d then erase m k else insert m k v

/-- Every key of the table lies above `b`. -/
def above (b : Nat) : Tbl α → Bool
  | [] => true
  | (j, _) :: m => decide (b < j) && above b m

/-- Keys strictly rising. -/
def sorted : Tbl α → Bool
  | [] => true
  | (j, _) :: m => above j m && sorted m

/-- The canonical form: keys strictly rising and no entry equal to the default. -/
def wf [DecidableEq α] (d : α) (m : Tbl α) : Bool := sorted m && m.all (fun p => decide (p.2 ≠ d))

end Tbl
end Sys2Proof
end

