-- ==== Sys2Proof/Machine/PulseCode.lean ====
section
/-! DEFINITION. The pulse instruction set (pulse R163 to R165, Tables 5-2 to 5-4): instructions, their words, their costs. -/
namespace Sys2Proof

/-- The second operand of an arithmetic instruction: a register, or a 17-bit immediate that is sign-extended. -/
inductive PArg where
  | reg (c : Fin 16)
  | imm (x : BitVec 17)
  deriving DecidableEq, Repr

namespace Machine

/-- Arithmetic operations of Table 5-4. -/
inductive Alu where
  | add | sub | and | or | xor | shl | shr | mul16
  deriving DecidableEq, Repr

/-- A pulse instruction with its operands (Table 5-3). -/
inductive POp where
  | alu (f : Alu) (cd ca : Nat) (b : PArg)
  | ldp (cd ca off : Nat)
  | stp (cd ca off : Nat)
  | waita (cd ca : Nat) (limit : Option Nat)
  | waitt (cd ca : Nat) (rel : Bool)
  | waite (cd : Nat) (limit : Option Nat) (det : Bool) (kind source : Nat)
  | stk (cd ca slot action : Nat)
  | adct (cd ca line : Nat)
  | capt (cd ca source : Nat)
  | qin (cd q : Nat)
  | qout (ca q : Nat)
  | br (t : Nat)
  | brz (ca t : Nat)
  | brn (ca t : Nat)
  | brc (c t : Nat)
  | yield
  | halt
  deriving DecidableEq, Repr

/-- The operands are ones that R163 and Table 5-5 allow. -/
def POp.legal : POp → Bool
  | .waite _ _ _ kind source => kind != 0 && (decide (source < 4) || decide (8 ≤ source))
  | .stk _ _ _ action => action != 3
  | .capt _ _ source => decide (source ≤ 12)
  | .qin _ q => decide (q < 12)
  | .qout _ q => !(decide (8 ≤ q) && decide (q < 12))
  | _ => true

/-- Cost in core cycles (Table 5-2). -/
def POp.cost : POp → Nat
  | .alu .mul16 _ _ _ => 2
  | .alu _ _ _ _ => 1
  | .ldp _ _ _ | .stp _ _ _ => 2
  | .capt _ _ source => if source = 6 then 4 else 2
  | .qin _ _ | .qout _ _ => 2
  | .waita _ _ _ | .waitt _ _ _ | .waite _ _ _ _ _ => 3
  | .stk _ _ _ _ | .adct _ _ _ => 3
  | _ => 1

/-- The bits [hi:lo] of an instruction word. -/
def fieldOf (w : Word) (hi lo : Nat) : Nat := w.toNat / 2 ^ lo % 2 ^ (hi + 1 - lo)

/-- The arithmetic operation of an opcode. -/
def aluOf (op : Nat) : Option Alu :=
  match op with
  | 0x01 => some .add
  | 0x02 => some .sub
  | 0x03 => some .and
  | 0x04 => some .or
  | 0x05 => some .xor
  | 0x06 => some .shl
  | 0x07 => some .shr
  | 0x08 => some .mul16
  | _ => none

/-- Format A. -/
def decodeAlu (f : Alu) (w : Word) : Option POp :=
  let cd := fieldOf w 25 22
  let ca := fieldOf w 21 18
  if fieldOf w 17 17 = 1 then some (.alu f cd ca (.imm (BitVec.ofNat 17 (fieldOf w 16 0))))
  else if fieldOf w 12 0 ≠ 0 then none
  else some (.alu f cd ca (.reg (Fin.ofNat 16 (fieldOf w 16 13))))

/-- Formats other than A, by opcode; none where a field marked 0 in Table 5-3 is not 0. -/
def decodeOther (op : Nat) (w : Word) : Option POp :=
  let cd := fieldOf w 25 22
  let ca := fieldOf w 21 18
  let x := fieldOf w 17 14
  let limit := if fieldOf w 13 13 = 1 then some x else none
  match op with
  | 0x10 => if fieldOf w 17 11 = 0 then some (.ldp cd ca (fieldOf w 10 0)) else none
  | 0x11 => if fieldOf w 17 11 = 0 then some (.stp cd ca (fieldOf w 10 0)) else none
  | 0x18 => if fieldOf w 12 0 = 0 then some (.waita cd ca limit) else none
  | 0x19 => if fieldOf w 16 0 = 0 then some (.waitt cd ca (fieldOf w 17 17 == 1)) else none
  | 0x1A =>
    if ca = 0 ∧ fieldOf w 9 5 = 0 then
      some (.waite cd limit (fieldOf w 12 12 == 1) (fieldOf w 11 10) (fieldOf w 4 0))
    else none
  | 0x20 => if fieldOf w 13 0 = 0 then some (.stk cd ca (fieldOf w 17 16) (fieldOf w 15 14)) else none
  | 0x21 => if fieldOf w 11 0 = 0 then some (.capt cd ca (fieldOf w 17 12)) else none
  | 0x22 => if fieldOf w 13 0 = 0 then some (.adct cd ca x) else none
  | 0x28 => if ca = 0 ∧ fieldOf w 13 0 = 0 then some (.qin cd x) else none
  | 0x29 => if cd = 0 ∧ fieldOf w 13 0 = 0 then some (.qout ca x) else none
  | 0x30 => if cd = 0 ∧ ca = 0 ∧ fieldOf w 17 12 = 0 then some (.br (fieldOf w 11 0)) else none
  | 0x31 => if cd = 0 ∧ fieldOf w 17 12 = 0 then some (.brz ca (fieldOf w 11 0)) else none
  | 0x32 => if cd = 0 ∧ fieldOf w 17 12 = 0 then some (.brn ca (fieldOf w 11 0)) else none
  | 0x33 => if ca = 0 ∧ fieldOf w 17 12 = 0 then some (.brc cd (fieldOf w 11 0)) else none
  | 0x3C => if fieldOf w 25 0 = 0 then some .yield else none
  | 0x3D => if fieldOf w 25 0 = 0 then some .halt else none
  | _ => none

/-- The instruction of a word; none for an illegal one (R163). -/
def decodePulse (w : Word) : Option POp :=
  let op := fieldOf w 31 26
  match aluOf op with
  | some f => decodeAlu f w
  | none =>
    match decodeOther op w with
    | some x => if x.legal then some x else none
    | none => none

end Machine
end Sys2Proof
end

