-- ==== Sys2Proof/Machine/SysState.lean ====
section
/-! DEFINITION. State of the system blocks: messages and clients of the host link, MSI-X coalescing, detected faults,
the Field Book, the real-time clock, flash images and records, power states. -/
namespace Sys2Proof

/-- A request as its executor receives it (R376 to R380): the sender, the sequence echoed in the response, the `URGENT`
flag, the value words of the payload (or the words of the fetched image), and the response buffer's length and address,
0 where none was given (Table 13-3). -/
structure Msg where
  client : Nat
  seq : Nat
  urgent : Bool
  words : List Word
  rspLen : Nat
  rspAddr : Nat
  deriving DecidableEq, Repr

/-- What a random or permanent failure does to the hard path within a pace, as the checks of the module see it (architecture R24,
R27, R30, pulse R165, R166). -/
inductive Upset where
  /-- A single bit of event memory is corrected. -/
  | eccCorrected
  /-- Descriptor `i` has an ECC error that cannot be corrected. -/
  | eccFailed (i : Nat)
  /-- The two halves of descriptor `i` differ (hop 3). -/
  | memory (i : Nat)
  /-- A paired field of descriptor `i` differs as a tally core loads it (hop 4). -/
  | load (i : Nat)
  /-- The two tally cores of pair `p` disagree. -/
  | disagree (p : Nat)
  /-- Context `n` fetches an instruction word that fails its check. -/
  | fetch (n : Nat)
  /-- The complement of parameter word `a` of pair `p` changes by `mask`. -/
  | param (p a mask : Nat)
  /-- The complement of word `i` of profile slot `n`, as the drive die stores it, changes by `mask`. -/
  | profile (n i : Nat) (mask : BitVec 32)
  /-- The complement of the trim of channel `c` changes by `mask`. -/
  | trim (c : Nat) (mask : BitVec 17)
  deriving DecidableEq, Repr

/-- What a boost controller does in a stretch (protection R227 to R233): VCAP in 0.1 V, the energy that it delivers to its bank in µJ, the
charge that it takes from VBAT in µC, and the inductor peak of each of its switching cycles in 0.1 A. -/
structure BankRun where
  vcap : BitVec 12
  out : Nat
  drawn : Nat
  peaks : List Nat
  deriving DecidableEq, Repr

/-- A stretch of core cycles of the two boost controllers; within it VCAP keeps its value. -/
structure BoostRun where
  cycles : Nat
  a : BankRun
  b : BankRun
  deriving DecidableEq, Repr

/-- A stretch of core cycles in which what the drive die measures of the auxiliary outputs does not change (auxiliary R277, R280, R282,
R285 to R287): its length, VBAT at J3 in 0.1 V, V_feed of the four groups in 0.25 V (group 0 in [7:0]), and the current in 10 mA and the
voltage in 0.25 V of each output, by number. (log entry 100, DEDUCED) -/
structure AuxRun where
  cycles : Nat
  vbat : BitVec 12
  feed : Word
  amps : List Nat
  volts : List Nat
  deriving DecidableEq, Repr

/-- What the host has set in the configuration space of a function: MSI-X Enable, and D3hot in place of D0 (host link R369). (log entry 6, PRESUMED) -/
structure PcieFn where
  msix : Bool := false
  d3hot : Bool := false
  deriving DecidableEq, Repr

/-- Levels that what is wired to them puts on TIO0 to TIO7, on the pin engine pads (engine 0 in [3:0]) and on GPO0 to GPO23. -/
structure PadLevels where
  tio : BitVec 8
  pep : Word
  gpo : BitVec 24
  deriving DecidableEq, Repr

namespace Machine

/-- A message the module sends: a response (`unsol` false) or a notice (R386). `status` and `detail` are the fields of
header word 2. -/
structure ModMsg where
  client : Nat
  opcode : Nat
  seq : Nat
  status : Nat
  detail : Nat
  unsol : Bool
  words : List Word
  deriving DecidableEq, Repr

/-- The three rings of a client in host memory, and the two that the module writes. -/
inductive Ring where
  | response | fault
  deriving DecidableEq, Repr

/-- What leaves the module, newest first in `State.out`: the model's record of its writes to host memory and frames on
its links. It is no storage of the hardware. (log entry 8, DESIGN CHOICE) -/
inductive Out where
  | ring (client : Nat) (r : Ring) (entry : Nat) (phase : Bool) (mpSat : Bool) (indirect : Bool) (m : ModMsg)
  | shadow (client head tail : Nat)
  | msix (client vector : Nat)
  | hostWrite (addr : Nat) (bytes : List Byte)
  | hostRead (addr len : Nat)
  | canFrame (ctrl : Nat) (ext : Bool) (ident : Nat) (brs : Bool) (bytes : List Byte)
  | tieFrame (words : List Word)
  | pmbus (on : Bool)
  /-- The benchmark line is driven low from one cycle to another (pairing R311, R313). -/
  | benchmarkLow (from_ until_ : Nat)
  /-- An SSI clock gives `periods` periods of 2 × `half` cycles from cycle `from_` on (timers R363). -/
  | ssiClock (i from_ half periods : Nat)
  /-- The word a register read returned to function `fn`. -/
  | readData (fn off : Nat) (w : Word)
  deriving DecidableEq, Repr

/-- A message read from a request ring or reassembled from CAN FD, on its way to an answer (R383, R384). -/
structure Request where
  opcode : Nat
  fence : Bool
  msg : Msg
  since : Nat
  /-- Its payload is there: nothing of it waits for an indirect fetch (R379). -/
  fetched : Bool
  /-- Handed to its executor (R383). -/
  dispatched : Bool
  /-- The session ended meanwhile, so no response is written (R517). -/
  dead : Bool
  deriving DecidableEq, Repr

/-- What the module holds of one client beyond its registers. -/
structure Client where
  /-- Features granted by `HELLO` (Table 13-5), 5 bits (host link R387); reset 0. -/
  features : Nat := 0
  /-- Cycle of the last doorbell, keep-alive or CAN FD frame (host link R399); reset 0. -/
  alive : Nat := 0
  /-- Notices held for want of ring space, oldest first, at most 64 (host link R393); reset empty. -/
  held : List ModMsg := []
  /-- Notices lost since the last `NOTICES_LOST`, with the first and last `SEQ_CYCLE` (host link R393); reset none. -/
  lost : Nat := 0
  lostFirst : Nat := 0
  lostLast : Nat := 0
  /-- Cycle of the last `F_0804` of this client (host link R393); reset none. -/
  f0804At : Option Nat := none
  /-- The session ended with its ring in service: notices of the loss policy still reach it (host link Table 13-6c). -/
  ringLeft : Bool := false
  /-- Requests read and not yet answered, oldest first (host link R383 to R385); reset empty. -/
  requests : List Request := []
  /-- Responses that wait for entries of the response ring, oldest first: entries, indirect, message (host link R374, R385); reset empty. -/
  owed : List (Nat × Bool × ModMsg) := []
  /-- Fault records waiting for a core or for CAN FD transmission (start-up Table 15-6, host link R403); reset empty. -/
  faultsHeld : List ModMsg := []
  deriving DecidableEq, Repr

/-- One coalescer: an interrupt group (R424) or an MSI-X vector of a function (R425). -/
structure Coal where
  count : Nat := 0
  start : Option Nat := none
  isOpen : Bool := false
  deriving DecidableEq, Repr

/-- A fault detected and not yet formed into a record (R479): code, source, detail, action bits, and the cycle counter
captured at detection. -/
structure FaultEv where
  code : Nat
  source : Nat
  detail : Word
  action : Nat
  cyc : Nat
  /-- The 64 places held through a swap were full: no ring receives it (start-up Table 15-6). -/
  excess : Bool := false
  deriving DecidableEq, Repr

/-- Calendar of the RTC (R462). -/
structure Cal where
  year : Nat := 2000
  month : Nat := 1
  day : Nat := 1
  hour : Nat := 0
  minute : Nat := 0
  second : Nat := 0
  deriving DecidableEq, Repr

/-- A Field Book record, value half (Table 16-6); its sequence number stands beside it. -/
structure FbRec where
  seq : Nat
  code : Nat
  kind : Nat
  cls : Nat
  source : Nat
  action : Nat
  timeLost : Bool
  cyc : Nat
  cal : Cal
  subsec : Nat
  detail : Word
  deriving DecidableEq, Repr

/-- A 64-byte Field Book slot: its value half and its complement half. -/
structure FbSlot where
  value : List Word
  compl : List Word
  deriving DecidableEq, Repr

/-- One copy of the Field Book: the slot written next, the slots that are not erased, and the run of failed
verifications (R468, R469). -/
structure FbCopy where
  pos : Nat := 0
  slots : Tbl FbSlot := []
  fails : Nat := 0
  deriving DecidableEq, Repr

/-- The Field Book (R467 to R470). (log entry 3, DESIGN CHOICE) -/
structure FieldBook where
  /-- Records queued for flash, oldest first, at most 256 (power R469); reset empty. -/
  queue : List FbRec := []
  /-- The record written to copy A and not yet to copy B (power R469); reset none. -/
  half : Option FbRec := none
  /-- Sequence number the next record takes, 48 bits (power R467); reset 1. -/
  nextSeq : Nat := 1
  copyA : FbCopy := {}
  copyB : FbCopy := {}
  /-- Records discarded and not yet told by a LOST record (power R469); reset 0. -/
  lostPend : Nat := 0
  /-- Cycle of the last `F_0843` (power R469); reset none. -/
  f0843At : Option Nat := none
  deriving DecidableEq, Repr

/-- The real-time clock of the always-on island (R462 to R466). -/
structure Rtc where
  cal : Cal := {}
  /-- Latched date of `RTC_DATE` (power R463). -/
  latched : Cal := {}
  /-- Staged hours, minutes, seconds (power R464); reset none. -/
  time : Option (Nat × Nat × Nat) := none
  /-- Staged year, month, day (power R464); reset none. -/
  date : Option (Nat × Nat × Nat) := none
  /-- The final field write has come: the next tick applies (power R464); reset false. -/
  ready : Bool := false
  /-- `RTC_SET` commands that await the tick, oldest first (power R464); reset none. -/
  cmds : List Msg := []
  deriving DecidableEq, Repr

/-- What an image's header carries (R432 and the text before it). -/
structure ImageHeader where
  major : Nat
  minor : Nat
  patch : Nat
  index : Nat
  deriving DecidableEq, Repr

/-- An image slot in flash. `accepted` is the outcome of the key, signature and hash tests of R432 on its content. (log entry 80, DESIGN CHOICE) -/
structure Image where
  valid : Bool
  accepted : Bool
  header : ImageHeader
  /-- Words written by `FW_LOAD`, keyed by word offset in the slot. -/
  words : Tbl Word
  deriving DecidableEq, Repr

/-- A start-up record copy: sequence number, the four boost words and their stored complements, and whether its CRC-32
matches (R434). -/
structure StartRec where
  seq : Nat
  words : List Word
  compl : List Word
  crcOk : Bool
  deriving DecidableEq, Repr

/-- A firmware swap in progress (R441, Table 15-5). -/
structure Swap where
  start : Nat
  coresReset : Bool
  cmd : Msg
  deriving DecidableEq, Repr

/-- What waits for a flash program (FLASH_WRITE_DONE): a firmware chunk, a commit, a start-up record, a closure map. -/
inductive FlashJob where
  | chunk (cmd : Msg) (slot : Nat) (final : Bool)
  | commit (cmd : Msg) (image index : Nat)
  | startRec (cmd : Msg) (words : List Word) (copiesLeft : Nat)
  | map (cmd : Msg)
  deriving DecidableEq, Repr

/-- Boot, images and reset (start-up R428 to R444). (log entry 3, DESIGN CHOICE) -/
structure Boot where
  /-- The dies are held in reset (start-up R428); false right after reset. -/
  held : Bool := false
  /-- Cycle at which the running boot or swap began, for `BOOT_MS` (start-up Table 15-8); reset 0. -/
  since : Nat := 0
  /-- Image running, 0 = A, 1 = B (scope R3); reset 0. -/
  running : Nat := 0
  /-- Image slot A (start-up Table 15-2). -/
  slotA : Image := { valid := true, accepted := true, header := ⟨3, 2, 0, 0⟩, words := [] }
  /-- Image slot B (start-up Table 15-2). -/
  slotB : Image := { valid := false, accepted := false, header := ⟨0, 0, 0, 0⟩, words := [] }
  /-- Preferred image of the boot record (start-up R432, R444). -/
  preferred : Nat := 0
  /-- Anti-rollback counter, 0 to 63 (start-up R444). -/
  counter : Nat := 0
  /-- Start-up record copies (start-up R434). -/
  recA : Option StartRec := none
  recB : Option StartRec := none
  /-- The swap in progress (start-up R441). -/
  swap : Option Swap := none
  /-- Flash programs in progress, oldest first (start-up R440, R444, R435; angle R105). -/
  jobs : List FlashJob := []
  /-- `LEAVE` has read closed for 10 ms, so tie-link training may run (module R502); reset false. -/
  leaveSettled : Bool := false
  /-- The endpoint answers Configuration Requests (start-up R436); reset false. -/
  configReady : Bool := false
  /-- The cores boot after a STANDBY exit, which is no reset (power R457). -/
  exit : Bool := false
  deriving DecidableEq, Repr

/-- How far a power domain is from powered (R449). -/
inductive Domain where
  | on
  /-- Isolated since a cycle; its switch opens 1 µs later. -/
  | isolated (since : Nat)
  | off
  | rising
  deriving DecidableEq, Repr

/-- The steps of a state change (Table 16-3, R455, R457). -/
inductive PwrPhase where
  /-- No change in progress. -/
  | none
  /-- Entry accepted; waiting for the boosts to be OFF. -/
  | boosts (target : Nat)
  /-- Sessions ended and retention saved; waiting for the island tick W0. -/
  | saved (target : Nat)
  /-- The entry window is open. -/
  | window (target : Nat)
  /-- Domain switches open, PMBus off request sent. -/
  | offWait (target : Nat)
  /-- STANDBY or SENTINEL reached. -/
  | asleep (target : Nat)
  /-- Woken: PMBus on request sent `tries` times. -/
  | onWait (tries : Nat)
  deriving DecidableEq, Repr

/-- Power states, domains and the retention memory (power R447 to R461). -/
structure Power where
  phase : PwrPhase := .none
  /-- A wake arrived after acceptance and before W0; entry is cancelled at the end of the step (power R461). -/
  cancel : Bool := false
  /-- Domains not fully on, keyed by domain number 0 to 142 (architecture R35, power R449); reset all on. -/
  domains : Tbl Domain := []
  /-- Retention memory: the saved register fields, by key (power R454, Table 16-4); reset empty. -/
  saved : Tbl Nat := []
  /-- An `F_0841` waits for firmware ready (power R457). -/
  lostPend : Bool := false
  /-- An `F_0840` waits for firmware ready: 1 OFF request, 2 ON request, 0 none (power R455). -/
  pmbusPend : Nat := 0
  deriving DecidableEq, Repr

/-- An ISO 15765-2 message being received on a binding (R402). -/
structure CanRx where
  bytes : List Byte
  len : Nat
  next : Nat
  left : Nat
  since : Nat
  deriving DecidableEq, Repr

/-- An ISO 15765-2 message being sent on a binding (R402, R403). -/
structure CanTx where
  bytes : List Byte
  next : Nat
  waitFc : Bool
  /-- Consecutive frames left before the next flow control; `none` is no limit. -/
  left : Option Nat
  since : Nat
  deriving DecidableEq, Repr

/-- Transport state of one CAN FD binding. -/
structure CanBinding where
  rx : Option CanRx := none
  tx : Option CanTx := none
  /-- Responses waiting to be sent, oldest first. -/
  responses : List ModMsg := []
  deriving DecidableEq, Repr

/-- CAN FD beyond its registers (host link R400 to R404). (log entry 93, DESIGN CHOICE) -/
structure Can where
  bindings : Tbl CanBinding := []
  /-- Cycle of the last `F_0806`, by controller; `none` before the first. -/
  f0806At : Tbl (Option Nat) := []
  deriving DecidableEq, Repr

/-- One interrupt source (R419): its request line, enable bit, pending and active state and the core that claimed it. -/
structure IntSrc where
  req : Bool := false
  en : Bool := false
  pend : Bool := false
  act : Option Nat := none
  deriving DecidableEq, Repr

/-- The interrupt controller beyond its registers (DMA R418 to R424). -/
structure Intc where
  src : Tbl IntSrc := []
  grp : Tbl Coal := []
  /-- By core, when it last accepted an interrupt, as a rising count; 0 = never (DMA R420). -/
  accepted : Tbl Nat := []
  tick : Nat := 0
  /-- The cycle of the last hold writes, the hold bits before them, and the bits they set and cleared (DMA, Masking); reset 0. -/
  holdAt : Nat := 0
  heldBefore : Nat := 0
  holdSet : Nat := 0
  holdClr : Nat := 0
  deriving DecidableEq, Repr

/-- PF0's pending slot of a PW register (register reference R534 to R536): the value, the cycle of its write, and whether it has
expired. -/
structure PwSlot where
  value : Word
  since : Nat
  expired : Bool := false
  deriving DecidableEq, Repr

/-- The host link beyond its registers. (log entries 6, PRESUMED, 93, DESIGN CHOICE) -/
structure HostLink where
  /-- Clients, by number; an unlisted client is as at reset. -/
  clients : Tbl Client := []
  /-- MSI-X coalescers, by 8 × client + vector (DMA R425). -/
  msix : Tbl Coal := []
  /-- Runs of windows above 90 % and below 70 % (host link R396); reset 0. -/
  hiRun : Nat := 0
  loRun : Nat := 0
  /-- VF Enable of PF0's SR-IOV capability (host link R369, R399); reset 0, as PCI Express has it. -/
  vfEnable : Bool := false
  /-- What the host has set in the functions' configuration space (host link R369); reset as PCI Express has it. -/
  pcie : Tbl PcieFn := []
  /-- PERST# is asserted (host link R399); reset true, released by `PERST`. -/
  perst : Bool := true
  /-- Management cores in restart, with the commands their reset interrupted (host link R398). -/
  restarting : Tbl (List Request) := []
  /-- The client whose firmware-path request was answered last, by class (host link R397); reset none. -/
  served : Tbl Nat := []
  deriving DecidableEq, Repr

end Machine
end Sys2Proof
end

