-- ==== Sys2Proof/Syntax.lean ====
section
/-! DEFINITION. The commands the block takes: one constructor per row of spec/opcode_table.json, and their operand types. -/
namespace Sys2Proof

/-- The commands of the block: one constructor per row of the opcode table. `dt` is the number of core cycles since
the previous command. -/
inductive Instr where
  /-- `PACE` (R17): At each pace boundary every tally pair runs its injection microcode and pulse share, preparing the stakes of the next pace. -/
  | pace (dt : Nat) (vbat : BitVec 12) (boost : List BoostRun) (drains : List (Fin 36 × BitVec 12)) (aux : List AuxRun) (pads : Option PadLevels) (upsets : List Upset)
  /-- `STAKE_FIRE` (R25): An injection stake fires when both its value and complement comparators match the cycle counter. -/
  | stakeFire (dt : Nat) (p : Fin 4) (slot : Fin 32) (value compl : Bool)
  /-- `PROFILE_FRAME` (R200): The drive die receives a profile frame and accepts it only when every pair passes and GEN matches. -/
  | profileFrame (dt : Nat) (pass : Bool)
  /-- `STATUS_RETURN_FRAME` (R251): A status return frame reaches the timing die, which withdraws stakes and sends notices for reported trips and exits. -/
  | statusReturnFrame (dt : Nat)
  /-- `LANE_FAULT` (R26): Both lanes of a pair stand at one level over 4 ns; the drive die switches the output off and latches it. -/
  | laneFault (dt : Nat) (o : Fin 52)
  /-- `TRACKER_DISAGREE` (R29): The trackers' chains differ over 8 links or states differ over 4 cycles; F_0301 and loss of sync. -/
  | trackerDisagree (dt : Nat) (diff : Nat) (states : Bool)
  /-- `CRANK_EDGE` (R46): A filtered crank edge is screened, counted, tested for a gap and used to update the tooth position and chain. -/
  | crankEdge (dt : Nat) (b rising : Bool) (peak : BitVec 16)
  /-- `CAM_EDGE` (R52): A filtered cam edge is matched against the phase hypotheses or the surviving phase, or drives cam limp. -/
  | camEdge (dt : Nat) (b rising : Bool) (peak : BitVec 16)
  /-- `CAM_WINDOW_EXPIRY` (R52): A cam acceptance window closes without a matching edge and removes its hypothesis or counts a mismatch. -/
  | camWindowExpiry (dt : Nat)
  /-- `VR_ARM_TIMEOUT` (R37): No VR arming within twice the period drops the arming threshold to the floor. -/
  | vrArmTimeout (dt : Nat) (input : Fin 4)
  /-- `COAST` (R95): No edge by 1.5 predicted periods; the tooth position is coasted. -/
  | coast (dt : Nat)
  /-- `FROZEN_INPUT` (R98): No level change for F reference times declares an input frozen. -/
  | frozenInput (dt : Nat) (input : Fin 4)
  /-- `CHAIN_WAIT` (R93): The chain reaches one link short of the next tooth angle and holds, counting a wait. -/
  | chainWait (dt : Nat)
  /-- `BENCHMARK_CROSSING` (R153): The chain crosses benchmark in PHASED; SEQ_CYCLE counts and cycle-bound actions run. -/
  | benchmarkCrossing (dt : Nat)
  /-- `CLOSURE_LEARN_END` (R103): Closure learning completes or aborts and the new map is computed and reported. -/
  | closureLearnEnd (dt : Nat)
  /-- `ADD` (R163): Pulse instruction adding a register or immediate. -/
  | add (dt : Nat) (n : Fin 64) (cd ca : Fin 16) (b : PArg)
  /-- `SUB` (R163): Pulse instruction subtracting a register or immediate. -/
  | sub (dt : Nat) (n : Fin 64) (cd ca : Fin 16) (b : PArg)
  /-- `AND` (R163): Pulse instruction bitwise AND. -/
  | and (dt : Nat) (n : Fin 64) (cd ca : Fin 16) (b : PArg)
  /-- `OR` (R163): Pulse instruction bitwise OR. -/
  | or (dt : Nat) (n : Fin 64) (cd ca : Fin 16) (b : PArg)
  /-- `XOR` (R163): Pulse instruction bitwise XOR. -/
  | xor (dt : Nat) (n : Fin 64) (cd ca : Fin 16) (b : PArg)
  /-- `SHL` (R163): Pulse instruction shift left. -/
  | shl (dt : Nat) (n : Fin 64) (cd ca : Fin 16) (b : PArg)
  /-- `SHR` (R163): Pulse instruction shift right. -/
  | shr (dt : Nat) (n : Fin 64) (cd ca : Fin 16) (b : PArg)
  /-- `MUL16` (R163): Pulse instruction 16-bit unsigned multiply. -/
  | mul16 (dt : Nat) (n : Fin 64) (cd ca : Fin 16) (b : PArg)
  /-- `LDP` (R166): Pulse instruction loading a checked parameter word. -/
  | ldp (dt : Nat) (n : Fin 64) (cd ca : Fin 16) (off : BitVec 11)
  /-- `STP` (R166): Pulse instruction storing a parameter word with its complement. -/
  | stp (dt : Nat) (n : Fin 64) (cd ca : Fin 16) (off : BitVec 11)
  /-- `WAITA` (R168): Pulse instruction placing an angle wake token and ending the step. -/
  | waita (dt : Nat) (n : Fin 64) (cd ca : Fin 16) (limit : Option (Fin 16))
  /-- `WAITT` (R169): Pulse instruction placing a time wake token and ending the step. -/
  | waitt (dt : Nat) (n : Fin 64) (cd ca : Fin 16) (rel : Bool)
  /-- `WAITE` (R170): Pulse instruction waiting for an edge on a source. -/
  | waite (dt : Nat) (n : Fin 64) (cd : Fin 16) (limit : Option (Fin 16)) (det : Bool) (kind : BitVec 2) (source : BitVec 5)
  /-- `STK` (R175): Pulse instruction loading a pulse stake for a target slot. -/
  | stk (dt : Nat) (n : Fin 64) (cd ca : Fin 16) (slot : Fin 4) (action : BitVec 2)
  /-- `CAPT` (R163): Pulse instruction reading a capture source. -/
  | capt (dt : Nat) (n : Fin 64) (cd ca : Fin 16) (source : BitVec 6)
  /-- `ADCT` (R175): Pulse instruction loading a stake that raises a trigger line. -/
  | adct (dt : Nat) (n : Fin 64) (cd ca : Fin 16) (line : Fin 16)
  /-- `QIN` (R173): Pulse instruction taking a queue head, waiting while empty. -/
  | qin (dt : Nat) (n : Fin 64) (cd : Fin 16) (q : BitVec 4)
  /-- `QOUT` (R173): Pulse instruction appending to a queue, waiting while full. -/
  | qout (dt : Nat) (n : Fin 64) (ca : Fin 16) (q : BitVec 4)
  /-- `BR` (R163): Pulse instruction unconditional branch. -/
  | br (dt : Nat) (n : Fin 64) (t : BitVec 12)
  /-- `BRZ` (R163): Pulse instruction branch if zero. -/
  | brz (dt : Nat) (n : Fin 64) (ca : Fin 16) (t : BitVec 12)
  /-- `BRN` (R163): Pulse instruction branch if negative. -/
  | brn (dt : Nat) (n : Fin 64) (ca : Fin 16) (t : BitVec 12)
  /-- `BRC` (R163): Pulse instruction decrement counter and branch if not zero. -/
  | brc (dt : Nat) (n : Fin 64) (c : Fin 16) (t : BitVec 12)
  /-- `YIELD` (R160): Pulse instruction ending the step, due again next pace. -/
  | yield (dt : Nat) (n : Fin 64)
  /-- `HALT` (R179): Pulse instruction stopping the context, leaving its stakes loaded. -/
  | halt (dt : Nat) (n : Fin 64)
  /-- `PULSE_WAKE` (R167): A waiting context is woken by its angle, time, edge or queue condition and writes its status. -/
  | pulseWake (dt : Nat) (n : Fin 64)
  /-- `WAIT_LIMIT_EXPIRY` (R172): The time-limit token of a wait wakes the context with status 0xFFFF_FFFF. -/
  | waitLimitExpiry (dt : Nat) (n : Fin 64)
  /-- `PULSE_STAKE_FIRE` (R176): A pulse stake fires, driving its target or trigger line with OFF precedence. -/
  | pulseStakeFire (dt : Nat) (p : Fin 4) (slot : Fin 32) (value compl : Bool)
  /-- `PULSE_BANK_EXCHANGE` (R181): At the pace boundary after PULSE_SWITCH the pair exchanges program banks. -/
  | pulseBankExchange (dt : Nat) (p : Fin 4)
  /-- `PHASE_EXIT_TIME` (R203): A phase's TIME elapses and the drive die moves to the next phase. -/
  | phaseExitTime (dt : Nat) (c : Fin 36)
  /-- `WINDOW_COMPARATOR_CROSSING` (R204): Coil current crosses a window threshold, switching the source, exiting a phase or completing a switch-off hand-over. -/
  | windowComparatorCrossing (dt : Nat) (c : Fin 36) (high up : Bool)
  /-- `REGULATION_MIN_TIME` (R205): A regulation minimum time ends and a deferred switch change is made. -/
  | regulationMinTime (dt : Nat) (c : Fin 36)
  /-- `TIME_ONLY_TOGGLE` (R206): A T_ON or T_OFF interval of a time-only phase ends and the source toggles. -/
  | timeOnlyToggle (dt : Nat) (c : Fin 36)
  /-- `DECAY_END` (R210): The decaying current falls below 50 mA and the channel becomes idle. -/
  | decayEnd (dt : Nat) (c : Fin 36) (drawn : List Nat)
  /-- `DUTY_LIMIT_REACHED` (R214): Energised time reaches the duty allowance and the channel is switched off, TRUNCATED. -/
  | dutyLimitReached (dt : Nat) (c : Fin 36)
  /-- `PLAUS_TIMEOUT` (R217): No I_HIGH crossing by 4 × t_exp; the source is switched off and a failure counted. -/
  | plausTimeout (dt : Nat) (c : Fin 36)
  /-- `PROFILE_STORE_DONE` (R198): The drive die has stored and checked a profile slot; the generation count rises and PROFILE_PUT is answered. -/
  | profileStoreDone (dt : Nat)
  /-- `SENSE_CAL_RUN` (R222): A deferred calibration begins once its channel is idle, retested at lane OFF and every 1 ms. -/
  | senseCalRun (dt : Nat) (c : Fin 36)
  /-- `SENSE_CAL_DONE` (R223): After 40 µs the calibration result is stored or refused with CAL_RANGE. -/
  | senseCalDone (dt : Nat) (c : Fin 36) (mA : Int)
  /-- `SENSE_CAL_TIMEOUT` (R222): The channel has not become idle within the limit; CAL_INPUT_ACTIVE. -/
  | senseCalTimeout (dt : Nat) (c : Fin 36)
  /-- `BOOST_READY_CHANGE` (R234): VCAP crosses the ready threshold or set point, changing the controller between CHARGING and READY. -/
  | boostReadyChange (dt : Nat) (b : Fin 2) (v : BitVec 12)
  /-- `BOOST_PRECHARGE_TIMEOUT` (R230): A controller not ready 250 ms after PRECHARGE is declared FAILED. -/
  | boostPrechargeTimeout (dt : Nat) (b : Fin 2)
  /-- `BOOST_FAIL` (R233): An undervoltage, overvoltage or overcurrent condition lasts its time and the controller fails. -/
  | boostFail (dt : Nat) (b : Fin 2) (cause : Fin 4) (boost : List BoostRun)
  /-- `BOOST_DISCHARGE_END` (R232): A bleeding bank falls below 50 V and the controller enters OFF. -/
  | boostDischargeEnd (dt : Nat) (b : Fin 2) (v : BitVec 12)
  /-- `CLAMP_ENGAGE` (R239): VCAP reaches the clamp level and FAST decays are actively clamped. -/
  | clampEngage (dt : Nat) (b : Fin 2) (v : BitVec 12)
  /-- `CLAMP_RELEASE` (R239): VCAP falls 2 V below the clamp level and the clamp releases. -/
  | clampRelease (dt : Nat) (b : Fin 2) (v : BitVec 12)
  /-- `BOOST_WAIT_EXPIRY` (R235): BOOST_WAIT elapses before READY and the event is skipped. -/
  | boostWaitExpiry (dt : Nat) (c : Fin 36)
  /-- `RAMP_VIOLATION` (R244): The ramp monitor finds a violation; the switch is turned off softly and the channel latched. -/
  | rampViolation (dt : Nat) (c : Fin 36) (high : Bool) (t : Nat) (v0 vds slope : BitVec 12)
  /-- `DESATURATION` (R245): A conducting switch stays above DESAT_V for 200 ns and the channel trips. -/
  | desaturation (dt : Nat) (c : Fin 36) (high : Bool) (vds : BitVec 12) (held : Nat)
  /-- `OFF_STATE_TEST` (R247): Every 10 ms an idle channel starts its 20 µs off-state short test. -/
  | offStateTest (dt : Nat) (c : Fin 36)
  /-- `OFF_STATE_TEST_RESULT` (R247): At the end of the test the drain and output levels may latch the channel. -/
  | offStateTestResult (dt : Nat) (c : Fin 36) (drain high : BitVec 12)
  /-- `OPEN_LOAD_CHECK` (R248): Current still below OPEN_I at OPEN_T triggers the open-load flyback check. -/
  | openLoadCheck (dt : Nat) (c : Fin 36) (amps drain : BitVec 12)
  /-- `CHANNEL_THERMAL` (R249): Channel junction temperature crosses 150, 160 or 175 °C. -/
  | channelThermal (dt : Nat) (c : Fin 36) (t : BitVec 8)
  /-- `SUBSTRATE_THERMAL` (R250): A substrate zone crosses 135 or 150 °C. -/
  | substrateThermal (dt : Nat) (zone : Fin 2) (t : BitVec 8)
  /-- `RETRY_RELEASE` (R252): The retry interval ends and a latched channel or output is released. -/
  | retryRelease (dt : Nat) (o : Fin 52)
  /-- `CLOSING_KINK` (R259): The detector finds the kink, reports the closing delay and frees the converter. -/
  | closingKink (dt : Nat) (k : Fin 8) (v : List (BitVec 12)) (below : Nat)
  /-- `CLOSING_WINDOW_END` (R260): The closing window ends without a crossing; NOT_DETECTED and miss counting. -/
  | closingWindowEnd (dt : Nat) (k : Fin 8)
  /-- `INRUSH_END` (R280): An inrush window ends by its timer or I²t bound, and a waiting output may open its window. -/
  | inrushEnd (dt : Nat) (n : Fin 16) (aux : List AuxRun)
  /-- `AUX_SHORT` (R282): An auxiliary output at its limit for 10 µs is declared shorted and latched. -/
  | auxShort (dt : Nat) (n : Fin 16) (aux : List AuxRun)
  /-- `AUX_OPEN_LOAD` (R286): An energised auxiliary output draws below OPEN_I for 2 ms. -/
  | auxOpenLoad (dt : Nat) (n : Fin 16) (aux : List AuxRun)
  /-- `AUX_BACKFEED` (R287): An off auxiliary output stands above half V_feed for 1 ms. -/
  | auxBackfeed (dt : Nat) (n : Fin 16) (aux : List AuxRun)
  /-- `AUX_THERMAL` (R288): An auxiliary junction crosses 170 or 150 °C, shutting down or re-energising the output. -/
  | auxThermal (dt : Nat) (n : Fin 16) (t : BitVec 8)
  /-- `TIE_TRAINING_DONE` (R294): Tie-link training completes and the version is negotiated. -/
  | tieTrainingDone (dt : Nat) (slot : Fin 16) (ver : Fin 4) (lat : BitVec 16) (serialLow partnerDrives partnerHas : Bool)
  /-- `TIE_TRAINING_TIMEOUT` (R294): Training has not completed within 5 ms, or a 100 ms retry interval ends. -/
  | tieTrainingTimeout (dt : Nat)
  /-- `TIE_STATE_FRAME` (R298): A state frame is received, validated and compared with the module's own state. -/
  | tieStateFrame (dt : Nat) (w0 w1 w2 w3 w4 w5 w6 w7 : Word)
  /-- `BACKGROUND_BLOCK` (R300): A background block is received from the DUTY. -/
  | backgroundBlock (dt : Nat) (x0 x1 x2 x3 : Word)
  /-- `TIE_SILENCE` (R302): Two paces pass without a valid frame and the standby declares silence. -/
  | tieSilence (dt : Nat)
  /-- `RESIGN_EDGE` (R303): A filtered falling edge of the resign line not driven by the module. -/
  | resignEdge (dt : Nat)
  /-- `RESIGN_RELEASE` (R303): The 10 µs resign assertion ends and the line is released. -/
  | resignRelease (dt : Nat)
  /-- `RESIGN_STUCK` (R309): The resign line stays low over 10 µs with neither module driving it. -/
  | resignStuck (dt : Nat)
  /-- `ISOLATION_CLOSE` (R306): The drive die closes the isolating switches and ON channels enter at the hold phase. -/
  | isolationClose (dt : Nat) (sound : Bool)
  /-- `BENCHMARK_EDGE` (R312): A benchmark pulse edge arrives and is checked against the own chain. -/
  | benchmarkEdge (dt : Nat)
  /-- `BENCHMARK_PULSE_MISSING` (R312): The chain passes 2^22 links beyond benchmark with no pulse seen. -/
  | benchmarkPulseMissing (dt : Nat)
  /-- `BENCHMARK_LISTEN_END` (R313): The listening time ends without a claim and the module claims the benchmark role. -/
  | benchmarkListenEnd (dt : Nat)
  /-- `BENCHMARK_CLAIM` (R313): A claim pulse is heard on the benchmark line. -/
  | benchmarkClaim (dt : Nat) (k : Fin 16)
  /-- `QUIET_HANDOVER_RESIGN` (R310): A pending QUIET handover resigns at the first quiet pace. -/
  | quietHandoverResign (dt : Nat)
  /-- `HANDOVER_TIMEOUT` (R310): A QUIET handover finds no quiet pace within its limit and keeps DUTY. -/
  | handoverTimeout (dt : Nat)
  /-- `ACQ_ANGLE_TRIGGER` (R320): The chain reaches a trigger angle of a running ANGLE list and a run becomes pending. -/
  | acqAngleTrigger (dt : Nat) (l : Fin 32)
  /-- `ACQ_TIME_TRIGGER` (R321): A TIME list's trigger time arrives. -/
  | acqTimeTrigger (dt : Nat) (l : Fin 32)
  /-- `CONVERSION_DONE` (R323): A conversion completes, its result is stored and the next conversion starts. -/
  | conversionDone (dt : Nat) (k : Fin 4) (vin vref : Nat)
  /-- `KNOCK_WINDOW_OPEN` (R328): The chain reaches A0 and a KNOCK list opens its window. -/
  | knockWindowOpen (dt : Nat) (l : Fin 32)
  /-- `KNOCK_TRIGGER` (R328): Every KPER paces inside a window the knock entry is triggered. -/
  | knockTrigger (dt : Nat) (l : Fin 32)
  /-- `KNOCK_WINDOW_CLOSE` (R328): The chain reaches A0 + WIDTH and the knock record is written. -/
  | knockWindowClose (dt : Nat) (l : Fin 32)
  /-- `REFERENCE_SETTLED` (R330): The reference settling time ends and SETTLED is set. -/
  | referenceSettled (dt : Nat)
  /-- `EXT_REF_RANGE` (R330): The external reference leaves or re-enters 2.0 V to 3.0 V. -/
  | extRefRange (dt : Nat) (within : Bool)
  /-- `MONITOR_VIOLATION` (R333): A monitor's input stays beyond a threshold for FILTER µs. -/
  | monitorViolation (dt : Nat) (i : Fin 16) (high : Bool)
  /-- `MONITOR_RECOVER` (R333): The input returns 8 codes inside the threshold and the violation clears. -/
  | monitorRecover (dt : Nat) (i : Fin 16) (q : BitVec 10)
  /-- `MONITOR_AUTO_TEST` (R334): The once-per-second automatic self-test of a monitor begins. -/
  | monitorAutoTest (dt : Nat) (i : Fin 16)
  /-- `MONITOR_TEST_STEP` (R334): A 5 µs self-test step ends, its result is compared and the next step or exchange follows. -/
  | monitorTestStep (dt : Nat) (i : Fin 52) (aboveLow aboveHigh : Bool)
  /-- `TIMER_MATCH` (R348): A timer tick makes COUNT equal CMP. -/
  | timerMatch (dt : Nat) (t : Fin 32)
  /-- `TIMER_CAPTURE` (R349): A qualifying capture edge captures COUNT or ticks the timer. -/
  | timerCapture (dt : Nat) (t : Fin 32) (rising : Bool)
  /-- `PIN_ENGINE_TICK` (R354): A pin engine tick executes the program word at its program counter. -/
  | pinEngineTick (dt : Nat) (n : Fin 8) (pins : BitVec 4)
  /-- `POSITION_INPUT_CHANGE` (R360): A filtered QUAD or HALL input change moves the raw and published counts. -/
  | positionInputChange (dt : Nat) (i : Fin 6) (a b z : Bool)
  /-- `POSITION_INDEX` (R361): A filtered index edge records the count and time. -/
  | positionIndex (dt : Nat) (i : Fin 6)
  /-- `SENT_FRAME` (R362): A SENT frame is decoded and its value applied to the count. -/
  | sentFrame (dt : Nat) (i : Fin 6) (pulses : List Nat)
  /-- `SSI_FRAME_START` (R363): After MONO µs of idle the interface starts an SSI frame. -/
  | ssiFrameStart (dt : Nat) (i : Fin 6) (idle : Bool)
  /-- `SSI_FRAME_DONE` (R364): An SSI frame completes and its value is applied to the count. -/
  | ssiFrameDone (dt : Nat) (i : Fin 6) (data : List (Nat × Bool))
  /-- `POSITION_SOURCE_LOST` (R364): No valid SENT frame for the limit, or 4 failed SSI idle tests, sets LOST. -/
  | positionSourceLost (dt : Nat) (i : Fin 6)
  /-- `DOORBELL` (R373): A write of CLI_REQ_TAIL hands request entries to the module. -/
  | doorbell (dt : Nat) (fn : Fin 256) (x : Word)
  /-- `REQUEST_READ` (R380): Request entries read from host memory are checked and the message dispatched or refused. -/
  | requestRead (dt : Nat) (c : Fin 256) (ws : Option (List Word))
  /-- `INDIRECT_FETCH_DONE` (R379): The DMA fetch of an indirect request buffer completes. -/
  | indirectFetchDone (dt : Nat) (c : Fin 256) (seq : BitVec 16) (ws : Option (List Word))
  /-- `HELD_NOTICE_WRITE` (R393): Held notices are written when response ring space appears. -/
  | heldNoticeWrite (dt : Nat) (c : Fin 256)
  /-- `FAULT_RECORD` (R479): Firmware forms a fault record, queues it for the Field Book and sends it to clients. -/
  | faultRecord (dt : Nat)
  /-- `LEASE_EXPIRY` (R399): A client's lease runs out and its session ends. -/
  | leaseExpiry (dt : Nat) (c : Fin 256)
  /-- `DATA_LINK_DOWN` (R399): The PCI Express data link goes down and all PCI Express sessions end. -/
  | dataLinkDown (dt : Nat)
  /-- `PERST` (R399): PERST# is asserted or released, ending sessions and resetting client registers. -/
  | perst (dt : Nat) (asserted : Bool)
  /-- `HOT_RESET` (R399): A PCI Express hot reset ends all sessions. -/
  | hotReset (dt : Nat)
  /-- `FUNCTION_LEVEL_RESET` (R399): A Function Level Reset ends the function's session and resets its registers. -/
  | functionLevelReset (dt : Nat) (fn : Fin 256)
  /-- `VF_ENABLE_CLEAR` (R399): Clearing VF Enable ends the PCI Express sessions. -/
  | vfEnableClear (dt : Nat)
  /-- `LOAD_WINDOW` (R396): A 10 ms load window ends and the shedding level is revised. -/
  | loadWindow (dt : Nat) (load : Nat)
  /-- `SHED_TIMEOUT` (R397): A shed request waiting SHED_TIMEOUT is answered MP_SATURATED. -/
  | shedTimeout (dt : Nat) (c : Fin 256) (opcode seq : BitVec 16)
  /-- `WATCHDOG_EXPIRY` (R398): A management core watchdog expires and the core is reset. -/
  | watchdogExpiry (dt : Nat) (k : Fin 4) (running : Option (Fin 256 × BitVec 16 × BitVec 16))
  /-- `CORE_RESTART_DONE` (R398): The restarted core is back and interrupted commands are answered CORE_RESTART. -/
  | coreRestartDone (dt : Nat) (k : Fin 4)
  /-- `CAN_FRAME_RECEIVED` (R402): A CAN FD frame on a bound identifier is taken into ISO 15765-2 reassembly. -/
  | canFrameReceived (dt : Nat) (c : Fin 4) (ext : Bool) (ident : BitVec 29) (fd : Bool) (b : List Byte)
  /-- `CAN_TP_TIMEOUT` (R402): N_Bs or N_Cr expires and the message is discarded. -/
  | canTpTimeout (dt : Nat) (k : Fin 16)
  /-- `CAN_BUS_OFF` (R404): A CAN FD controller enters bus-off. -/
  | canBusOff (dt : Nat) (c : Fin 4)
  /-- `CAN_REJOIN` (R404): The controller completes recovery and rejoins the bus. -/
  | canRejoin (dt : Nat) (c : Fin 4)
  /-- `DMA_BURST_DONE` (R411): A DMA read or write burst completes. -/
  | dmaBurstDone (dt : Nat) (write good : Bool)
  /-- `DMA_RETRY` (R415): After 10 µs a failed burst is issued again. -/
  | dmaRetry (dt : Nat) (ch : Fin 12)
  /-- `INTC_REQUEST` (R419): An interrupt source request rises, falls or stands and pending state changes. -/
  | intcRequest (dt : Nat) (i : Fin 511) (up : Bool)
  /-- `INTC_ACCEPT` (R421): A core accepts an offer at an instruction boundary and claims the source. -/
  | intcAccept (dt : Nat) (k : Fin 4)
  /-- `INTC_GROUP_OPEN` (R424): A coalescing group's timer reaches TIME and the group opens. -/
  | intcGroupOpen (dt : Nat) (g : Fin 32)
  /-- `MSIX_COAL_RELEASE` (R425): An MSI-X vector's coalescing releases and one message is sent. -/
  | msixCoalRelease (dt : Nat) (c : Fin 256) (v : Fin 8)
  /-- `MSIX_UNMASK` (R425): Unmasking a vector sends its pending message. -/
  | msixUnmask (dt : Nat) (c : Fin 256) (v : Fin 8)
  /-- `RESET_RELEASE` (R428): Supplies, oscillator and SEATED have held long enough and both dies leave reset. -/
  | resetRelease (slot : Fin 16)
  /-- `SUPPLY_FAULT` (R429): A required supply leaves its window; safe-off, switches open and reset. -/
  | supplyFault (dt : Nat) (battery : Bool)
  /-- `FIRMWARE_READY` (R433): Firmware declares itself ready and GLB_FW_VERSION takes its value. -/
  | firmwareReady (dt : Nat)
  /-- `SWAP_QUIESCE_END` (R441): The swap quiesce ends and the management cores reset into the new image. -/
  | swapQuiesceEnd (dt : Nat)
  /-- `SWAP_IMAGE_READY` (R441): The new image is ready and reading resumes. -/
  | swapImageReady (dt : Nat)
  /-- `SWAP_TIMEOUT` (R442): The new image fails or is not ready within 250 ms and the old one restarts. -/
  | swapTimeout (dt : Nat)
  /-- `STANDBY_BOOSTS_OFF` (R453): The boosts are OFF during STANDBY entry; sessions end and retention is saved. -/
  | standbyBoostsOff (dt : Nat)
  /-- `ENTRY_WINDOW_OPEN` (R460): At the island tick W0 isolation clamps and the entry window opens. -/
  | entryWindowOpen (dt : Nat)
  /-- `ENTRY_WINDOW_END` (R460): At E the domain switches open and the PMBus off request is sent. -/
  | entryWindowEnd (level : Bool)
  /-- `WAKE_EVENT` (R459): An enabled wake source occurs during entry, STANDBY or SENTINEL. -/
  | wakeEvent (dt : Nat) (k : Fin 5)
  /-- `PMBUS_ACK` (R455): The regulator acknowledges a PMBus request with power good. -/
  | pmbusAck (good : Bool)
  /-- `PMBUS_TIMEOUT` (R455): No PMBus acknowledgement within 2 ms; retry or full reset. -/
  | pmbusTimeout
  /-- `DOMAIN_SWITCH_OPEN` (R449): 1 µs after isolation a domain's power switch opens. -/
  | domainSwitchOpen (dt : Nat) (d : Fin 143)
  /-- `DOMAIN_RAIL_GOOD` (R449): A powering domain's rail is good; reset and isolation release. -/
  | domainRailGood (dt : Nat) (d : Fin 143)
  /-- `RTC_SECOND` (R462): The prescaler completes a second and the calendar advances. -/
  | rtcSecond (dt : Nat)
  /-- `RTC_APPLY` (R464): At the next tick the staged RTC write is checked and applied or rejected. -/
  | rtcApply (dt : Nat)
  /-- `ISLAND_BROWN_OUT` (R466): The island rail falls below 1.8 V and the RTC restarts with TIME_LOST. -/
  | islandBrownOut (dt : Nat)
  /-- `FIELD_BOOK_WRITE` (R469): A queued record is programmed and verified in copy A and then copy B. -/
  | fieldBookWrite (dt : Nat) (ok : Bool)
  /-- `FIELD_BOOK_SCAN_DONE` (R470): The scan of both copies ends and READY is set. -/
  | fieldBookScanDone (dt : Nat)
  /-- `SEATED_OPEN` (R501): SEATED opens for over 10 µs before release, restarting its count. -/
  | seatedOpen (dt : Nat)
  /-- `LEAVE_OPEN` (R504): LEAVE reads open for 2 µs; the module isolates, resigns and ends its events. -/
  | leaveOpen (dt : Nat)
  /-- `LEAVE_CLOSED` (R502): LEAVE has read closed for 10 ms; training and role may begin. -/
  | leaveClosed (dt : Nat)
  /-- `PAIRED_WRITE_VALUE` (R9): A value write to a PW register opens or replaces its pending slot. -/
  | pairedWriteValue (dt : Nat) (k : Fin 19) (x : Word)
  /-- `PAIRED_WRITE_COMPLEMENT` (R535): A complement write completes a pair or is rejected. -/
  | pairedWriteComplement (dt : Nat) (k : Fin 19) (x : Word)
  /-- `PAIRED_WRITE_EXPIRY` (R536): An open paired-write slot expires after 64 cycles. -/
  | pairedWriteExpiry (dt : Nat)
  /-- `REGISTER_WRITE` (R528): A write to a register without a row of its own, applying its field rules and rejection. -/
  | registerWrite (dt : Nat) (fn : Fin 256) (glob : Bool) (reg : BitVec 14) (be : BitVec 4) (x : Word)
  /-- `READ_CLEAR_READ` (R14): A read of an RC field returns the value and clears it. -/
  | readClearRead (dt : Nat) (fn : Fin 256) (glob : Bool) (reg : BitVec 14) (be : BitVec 4)
  /-- `WHL_IN_CFG_WRITE` (R39): A write of an input configuration, discarded while R36 forbids leaving RUN. -/
  | whlInCfgWrite (dt : Nat) (i : Fin 4) (x : Word)
  /-- `WHL_DIR_CFG_WRITE` (R60): A write of the direction thresholds, discarded unless ordered. -/
  | whlDirCfgWrite (dt : Nat) (x : Word)
  /-- `ANG_BAND_WRITE` (R113): A band-limit write, accepted only when stopped and ordered; it clears the firing table. -/
  | angBandWrite (dt : Nat) (k : Fin 4) (x : Word)
  /-- `SEQ_QUOTA_WRITE` (R154): A quota write, discarded below present use or above the total. -/
  | seqQuotaWrite (dt : Nat) (n : Fin 256) (x : Word)
  /-- `PLS_OWNER_WRITE` (R158): A write of a pair's pulse OWNER, discarded while a context runs. -/
  | plsOwnerWrite (dt : Nat) (p : Fin 4) (x : Word)
  /-- `DRV_PAIR_WRITE` (R188): A write of DRV_PAIR, checked against rotation and odd-member use. -/
  | drvPairWrite (dt : Nat) (x : Word)
  /-- `DRV_CH_CFG_WRITE` (R225): A PF0 write of a channel configuration, checked as CHANNEL_CONFIG. -/
  | drvChCfgWrite (dt : Nat) (c : Fin 36) (x : Word)
  /-- `BST_CFG_WRITE` (R254): A write of a boost configuration, with range check, ENABLE effects and G reset. -/
  | bstCfgWrite (dt : Nat) (b : Fin 2) (cap : Bool) (x : Word)
  /-- `PRT_LATCH_WRITE` (R253): Software writes 0 to a channel's LATCH. -/
  | prtLatchWrite (dt : Nat) (c : Fin 36) (x : Word)
  /-- `AUX_LATCH_WRITE` (R284): Software writes 0 to an auxiliary output's LATCH. -/
  | auxLatchWrite (dt : Nat) (n : Fin 16) (x : Word)
  /-- `PAIR_CFG_WRITE` (R314): A write of PAIR_CFG; ENABLE = 0 on an unassigned module takes SOLO at once. -/
  | pairCfgWrite (dt : Nat) (x : Word)
  /-- `ACQ_REF_WRITE` (R329): A write of the reference selection, discarded while lists run. -/
  | acqRefWrite (dt : Nat) (x : Word)
  /-- `ACQ_URG_GO_WRITE` (R325): A write of GO = 1 requests an urgent conversion. -/
  | acqUrgGoWrite (dt : Nat) (k : Fin 4) (x : Word)
  /-- `TMR_START_WRITE` (R347): A write of TMR_START starts the named stopped timers. -/
  | tmrStartWrite (dt : Nat) (x : Word)
  /-- `TMR_STOP_WRITE` (R347): A write of TMR_STOP stops the named timers. -/
  | tmrStopWrite (dt : Nat) (x : Word)
  /-- `PE_RUN_WRITE` (R352): A write of RUN starts or stops a pin engine. -/
  | peRunWrite (dt : Nat) (n : Fin 8) (x : Word)
  /-- `PE_TX_WRITE` (R356): A write appends to a pin engine transmit FIFO. -/
  | peTxWrite (dt : Nat) (n : Fin 8) (x : Word)
  /-- `PE_RX_READ` (R356): A read removes and returns the receive FIFO head. -/
  | peRxRead (dt : Nat) (n : Fin 8)
  /-- `POS_COUNT_WRITE` (R366): A write presets the raw and published counts. -/
  | posCountWrite (dt : Nat) (i : Fin 6) (x : Word)
  /-- `CLI_REQ_RESUME_WRITE` (R381): A write resumes a halted request ring at the given index. -/
  | cliReqResumeWrite (dt : Nat) (fn : Fin 256) (x : Word)
  /-- `CLI_RSP_HEAD_WRITE` (R374): The host returns response ring entries. -/
  | cliRspHeadWrite (dt : Nat) (fn : Fin 256) (x : Word)
  /-- `CLI_FLT_HEAD_WRITE` (R374): The host returns fault ring entries. -/
  | cliFltHeadWrite (dt : Nat) (fn : Fin 256) (x : Word)
  /-- `CLI_RING_CFG_WRITE` (R372): A write of the ring configuration; ENABLE resets indices or ends the session. -/
  | cliRingCfgWrite (dt : Nat) (fn : Fin 256) (x : Word)
  /-- `CLI_KEEPALIVE_WRITE` (R399): A write of KICK renews the client's lease. -/
  | cliKeepaliveWrite (dt : Nat) (fn : Fin 256) (x : Word)
  /-- `CLI_PWR_VOTE_WRITE` (R448): A client writes its power votes. -/
  | cliPwrVoteWrite (dt : Nat) (fn : Fin 256) (x : Word)
  /-- `HL_CLIENT_WRITE` (R391): PF0 writes a client's class, loss policy and lease. -/
  | hlClientWrite (dt : Nat) (n : Fin 256) (x : Word)
  /-- `HL_OWN_WRITE` (R392): PF0 grants or withdraws an output. -/
  | hlOwnWrite (dt : Nat) (o : Fin 52) (x : Word)
  /-- `CAN_BIND_WRITE` (R401): PF0 writes a CAN FD binding. -/
  | canBindWrite (dt : Nat) (k : Fin 16) (hi : Bool) (x : Word)
  /-- `CAN_RESTART_WRITE` (R404): A write of RESTART makes a bus-off controller rejoin. -/
  | canRestartWrite (dt : Nat) (c : Fin 4)
  /-- `DMA_START_WRITE` (R410): The owner starts a DMA transfer after the start checks. -/
  | dmaStartWrite (dt : Nat) (fn : Fin 256) (ch : Fin 12) (x : Word)
  /-- `DMA_ABORT_WRITE` (R414): The owner aborts a running DMA transfer. -/
  | dmaAbortWrite (dt : Nat) (fn : Fin 256) (ch : Fin 12) (x : Word)
  /-- `DMA_GRANT_WRITE` (R416): PF0 grants a DMA channel, discarded while it runs. -/
  | dmaGrantWrite (dt : Nat) (ch : Fin 12) (x : Word)
  /-- `INTC_CLAIM_READ` (R422): A raw-mode read claims the source offered to the core. -/
  | intcClaimRead (dt : Nat) (k : Fin 4)
  /-- `INTC_COMPLETE_WRITE` (R423): A core completes an active source. -/
  | intcCompleteWrite (dt : Nat) (k : Fin 4) (i : BitVec 9)
  /-- `INTC_HOLD_SET_WRITE` (R420): A write sets delivery hold bits. -/
  | intcHoldSetWrite (dt : Nat) (x : BitVec 5)
  /-- `INTC_HOLD_CLR_WRITE` (R420): A write clears delivery hold bits. -/
  | intcHoldClrWrite (dt : Nat) (x : BitVec 5)
  /-- `INTC_EN_SET_WRITE` (R419): A write sets one source enable bit. -/
  | intcEnSetWrite (dt : Nat) (i : BitVec 9)
  /-- `INTC_EN_CLR_WRITE` (R419): A write clears one source enable bit. -/
  | intcEnClrWrite (dt : Nat) (i : BitVec 9)
  /-- `PWR_CTRL_GO_WRITE` (R450): PF0 submits a power state request. -/
  | pwrCtrlGoWrite (dt : Nat) (x : Word)
  /-- `RTC_TIME_READ` (R463): A read of RTC_TIME latches the date and prescaler. -/
  | rtcTimeRead (dt : Nat)
  /-- `RTC_TIME_WRITE` (R464): A write stages hours, minutes and seconds. -/
  | rtcTimeWrite (dt : Nat) (x : Word)
  /-- `RTC_DATE_WRITE` (R464): A write stages the date and ends the staged write. -/
  | rtcDateWrite (dt : Nat) (x : Word)
  /-- `HELLO` (R387): Opens a session and negotiates version and features. -/
  | hello (m : Msg)
  /-- `GOODBYE` (R390): Ends the client's session. -/
  | goodbye (m : Msg)
  /-- `ECHO` (R524): Returns the value words sent. -/
  | echo (m : Msg)
  /-- `LOAD_WHEEL` (R40): Loads a wheel description, refused while rotating or invalid. -/
  | loadWheel (m : Msg) (sound : Bool)
  /-- `RESYNC` (R74): Forces SEEK, with loss of sync HOST in LOCKED or PHASED. -/
  | resync (m : Msg)
  /-- `LOAD_STATIONS` (R81): Loads the station table. -/
  | loadStations (m : Msg) (sound : Bool)
  /-- `LEARN_CLOSURE` (R102): Starts closure learning. -/
  | learnClosure (m : Msg)
  /-- `CLOSURE_MAP_GET` (R105): Reads a crank input's closure map. -/
  | closureMapGet (m : Msg)
  /-- `CLOSURE_MAP_PUT` (R105): Writes a closure map while stopped. -/
  | closureMapPut (m : Msg)
  /-- `FIRING_TABLE_CLEAR` (R110): Clears all firing pattern bands at the next benchmark crossing. -/
  | firingTableClear (m : Msg)
  /-- `LOAD_PULSE_IMAGE` (R180): Loads a pulse image into the idle bank of a pair. -/
  | loadPulseImage (m : Msg)
  /-- `PULSE_SWITCH` (R181): Requests exchange of a pair's pulse banks. -/
  | pulseSwitch (m : Msg)
  /-- `PULSE_START` (R179): Starts named halted contexts at their entry points. -/
  | pulseStart (m : Msg)
  /-- `PULSE_STOP` (R183): Stops named contexts with their outputs driven off. -/
  | pulseStop (m : Msg)
  /-- `PULSE_PARAM_PUT` (R182): Writes paired parameter words together within one pace. -/
  | pulseParamPut (m : Msg)
  /-- `PULSE_PARAM_GET` (R520): Reads paired parameter words. -/
  | pulseParamGet (m : Msg)
  /-- `PULSE_QUEUE_PUT` (R183): Appends words to a host-to-program queue. -/
  | pulseQueuePut (m : Msg)
  /-- `PULSE_QUEUE_GET` (R183): Takes words from a program-to-host queue. -/
  | pulseQueueGet (m : Msg)
  /-- `PROFILE_PUT` (R196): Loads a profile slot. -/
  | profilePut (m : Msg)
  /-- `PROFILE_GET` (R198): Reads a profile slot and its generation count. -/
  | profileGet (m : Msg)
  /-- `CHANNEL_CONFIG` (R221): Writes a channel's configuration and nominal inductance. -/
  | channelConfig (m : Msg)
  /-- `SENSE_CAL` (R222): Requests current-sense offset calibration of named channels. -/
  | senseCal (m : Msg)
  /-- `BOOST_CONFIG` (R254): Writes a boost controller's configuration and bank capacitance. -/
  | boostConfig (m : Msg)
  /-- `PROTECT_CONFIG` (R254): Writes a channel's protection configuration. -/
  | protectConfig (m : Msg)
  /-- `PROTECT_CLEAR` (R241): Clears channel latches and FAILED controllers. -/
  | protectClear (m : Msg)
  /-- `BOOST_STATUS` (R521): Reads controller registers and learned draws. -/
  | boostStatus (m : Msg)
  /-- `CLOSING_CONFIG` (R274): Writes a channel's closing-detection configuration. -/
  | closingConfig (m : Msg)
  /-- `TRIM_RESET` (R273): Resets the trim and miss count of named channels. -/
  | trimReset (m : Msg)
  /-- `CLOSING_STATUS` (R521): Reads closing measurements, trims and counts. -/
  | closingStatus (m : Msg)
  /-- `AUX_CONFIG` (R289): Writes an auxiliary output's configuration. -/
  | auxConfig (m : Msg)
  /-- `AUX_CLEAR` (R284): Clears auxiliary output latches. -/
  | auxClear (m : Msg)
  /-- `AUX_QUERY` (R521): Reads an auxiliary output's status and counts. -/
  | auxQuery (m : Msg)
  /-- `PAIR_CONFIG` (R314): Writes PAIR_CFG through firmware. -/
  | pairConfig (m : Msg)
  /-- `PAIR_STATUS` (R522): Reads pairing status, counts and the partner's last frame. -/
  | pairStatus (m : Msg)
  /-- `PAIR_HANDOVER` (R310): Moves DUTY to the partner at once or quietly. -/
  | pairHandover (m : Msg)
  /-- `ACQ_LIST_PUT` (R318): Loads an acquisition list. -/
  | acqListPut (m : Msg)
  /-- `ACQ_LIST_CTRL` (R339): Starts and stops acquisition lists. -/
  | acqListCtrl (m : Msg)
  /-- `ACQ_URGENT` (R325): Requests one urgent conversion through firmware. -/
  | acqUrgent (m : Msg)
  /-- `ACQ_REF_SET` (R329): Selects the acquisition reference. -/
  | acqRefSet (m : Msg)
  /-- `MON_CONFIG` (R332): Writes a monitor's thresholds and control. -/
  | monConfig (m : Msg)
  /-- `MON_SELFTEST` (R334): Self-tests named monitors and channel comparators. -/
  | monSelftest (m : Msg)
  /-- `ACQ_STATUS` (R522): Reads acquisition and monitor status. -/
  | acqStatus (m : Msg)
  /-- `ARM_EVENT` (R120): Admits one event descriptor through the admission path. -/
  | armEvent (m : Msg) (sound : Bool)
  /-- `CANCEL_EVENT` (R148): Withdraws or defers cancellation of an own descriptor. -/
  | cancelEvent (m : Msg) (sound : Bool)
  /-- `UPDATE_EVENT` (R147): Replaces end angle, duration and arm lead of an own descriptor. -/
  | updateEvent (m : Msg) (sound : Bool)
  /-- `BANK_SWITCH` (R150): Schedules a bank exchange at a named benchmark crossing. -/
  | bankSwitch (m : Msg) (sound : Bool)
  /-- `BANK_CLEAR` (R151): Frees the descriptors of the client's shadow bank of one set. -/
  | bankClear (m : Msg) (sound : Bool)
  /-- `SAFETY_CUT` (R144): Ends CONTROL events on named outputs and inhibits arming there. -/
  | safetyCut (m : Msg) (sound : Bool)
  /-- `SAFETY_RELEASE` (R145): Lifts the SAFETY inhibit on named outputs. -/
  | safetyRelease (m : Msg) (sound : Bool)
  /-- `EVENT_QUERY` (R523): Reads one descriptor and its stage. -/
  | eventQuery (m : Msg) (sound : Bool)
  /-- `FIELD_BOOK_READ` (R471): Reads Field Book records from a starting sequence. -/
  | fieldBookRead (m : Msg)
  /-- `FAULT_CLEAR` (R483): Clears standing latch, sense, lane, eligibility and monitor conditions. -/
  | faultClear (stuck : BitVec 52) (m : Msg)
  /-- `POWER_REQUEST` (R450): Requests a power state change. -/
  | powerRequest (m : Msg)
  /-- `POWER_STATUS` (R524): Reads power registers and every client's votes. -/
  | powerStatus (m : Msg)
  /-- `POWER_VOTE` (R448): Sets the caller's power votes. -/
  | powerVote (m : Msg)
  /-- `RTC_SET` (R464): Stages and applies date and time through firmware. -/
  | rtcSet (m : Msg)
  /-- `RTC_GET` (R524): Returns a latched read of the RTC. -/
  | rtcGet (m : Msg)
  /-- `FW_LOAD` (R440): Writes a firmware chunk into the idle slot. -/
  | fwLoad (m : Msg)
  /-- `FW_SWAP` (R441): Starts an on-line restart into the idle image. -/
  | fwSwap (m : Msg)
  /-- `FW_COMMIT` (R444): Makes the running image preferred and advances the anti-rollback counter. -/
  | fwCommit (m : Msg)
  /-- `FW_STATUS` (R524): Reads boot, rollback and image header status. -/
  | fwStatus (m : Msg)
  /-- `STARTUP_PUT` (R435): Writes a new start-up record. -/
  | startupPut (m : Msg)
  /-- `FLASH_WRITE_DONE` (R444): A flash program of a firmware chunk, boot record, start-up record or closure map completes and the waiting command is answered. -/
  | flashWriteDone (dt : Nat) (image : Option (BitVec 8 × BitVec 8 × BitVec 8 × BitVec 6))
  /-- `CAN_FRAME_SENT` (R403): The controller finishes sending a frame of an ISO 15765-2 message, and after STmin the next consecutive frame or the next held message goes out. -/
  | canFrameSent (dt : Nat) (k : Fin 16)
  /-- `RESIGN_LINE_RISE` (R309): The filtered resign line returns high, clearing RESIGN_IN and re-arming resign edges after a stuck line. -/
  | resignLineRise (dt : Nat)
  /-- `BENCHMARK_LINE_RELEASE` (R311): The 1 µs benchmark pulse or the 20 µs + 10 µs × slot claim ends and the module releases the line. -/
  | benchmarkLineRelease (dt : Nat)
  /-- `ISLAND_SOURCE_CHANGE` (R466): The ideal-diode switch changes the island feed between VKEEP and VCELL, updating RTC_STATUS.SRC and whether wake sources are watched. -/
  | islandSourceChange (dt : Nat) (vcell : Bool)
  /-- `MONITOR_THRESHOLD_CROSSING` (R335): A guarding comparator pair reports its input outside the window, starting the violation filter and aborting any self-test in progress. -/
  | monitorThresholdCrossing (dt : Nat) (i : Fin 16) (q : BitVec 10)
  /-- `PCIE_CONFIG_READY` (R436): The endpoint stops answering Configuration Requests with Request Retry Status, within 100 ms of PERST# release. -/
  | pcieConfigReady (dt : Nat) (vf : Bool) (fns : List (Fin 256 × PcieFn))
  deriving DecidableEq, Repr

end Sys2Proof
end

