-- ==== Sys2Proof/Machine/AcqState.lean ====
section
/-! DEFINITION. State of the acquisition block and the window monitors beyond their registers (acquisition R316 to R338). -/
namespace Sys2Proof.Machine

/-- An open knock window (R328): the byte offset reserved for its record, its sums and flags, and its next trigger. -/
structure Knock where
  addr : Option Nat
  sum : Nat := 0
  samples : Nat := 0
  cycle : Nat
  lost : Bool := false
  saturated : Bool := false
  next : Nat
  close : Int
  deriving DecidableEq, Repr

/-- An acquisition list (R318, Table 11-2). `kind`: 0 ANGLE, 1 TIME, 2 LINE, 3 KNOCK. -/
structure AcqList where
  owner : Option Nat := none
  conv : Nat := 0
  kind : Nat := 0
  limpOk : Bool := false
  entries : List Nat := []
  station : Nat := 0
  offset : Int := 0
  step : Nat := 0
  steps : Nat := 0
  width : Nat := 0
  bias : Nat := 0
  kper : Nat := 0
  line : Nat := 0
  first : Nat := 0
  period : Nat := 0
  base : Nat := 0
  length : Nat := 0
  /-- Chain position, not wrapped, of the first trigger angle of the cycle in hand; `none` while the conditions of R320 do not
  hold or the list is stopped. -/
  target : Option Int := none
  /-- Index of the next trigger of the cycle in hand (R320). -/
  idx : Nat := 0
  /-- Next trigger of a TIME list (R321). -/
  next : Nat := 0
  /-- First cycle in which a started LINE list triggers (R339). -/
  from_ : Nat := 0
  /-- Stops at the end of its cycle or window (R339). -/
  stopping : Bool := false
  knock : Option Knock := none
  deriving DecidableEq, Repr

/-- A pending entry (R323): its list, input and nominal start, and the byte offset of its word in the list's buffer; a KNOCK
sample has none. -/
structure AcqEntry where
  list : Nat
  input : Nat
  nominal : Nat
  addr : Option Nat
  deriving DecidableEq, Repr

/-- A conversion that a converter has begun or begins at `start`: a list entry, or the urgent request (`none`). -/
structure Conv where
  entry : Option AcqEntry
  start : Nat
  deriving DecidableEq, Repr

/-- An urgent request (R325): its input and the command that made it. -/
structure Urgent where
  input : Nat
  cmd : Option Msg
  deriving DecidableEq, Repr

/-- A window monitor beyond its registers: since when its input is below `LOW` and above `HIGH`, its self-test (step, start of
the step, `EXCHANGED` before it), and the last automatic test (R333 to R336). -/
structure Mon where
  low : Option Nat := none
  high : Option Nat := none
  test : Option (Nat × Nat × Bool) := none
  auto : Option Nat := none
  deriving DecidableEq, Repr

/-- The acquisition block and the monitors. (log entry 6, PRESUMED) -/
structure Acq where
  lists : Tbl AcqList := []
  /-- Pending entries of all lists, oldest trigger first. -/
  pend : List AcqEntry := []
  convs : Tbl (Option Conv) := []
  urgent : Tbl (Option Urgent) := []
  /-- The urgent request whose conversion a converter is making, once a newer request has followed it (R325). -/
  begun : Tbl (Option Urgent) := []
  /-- The 1 MiB sample memory; an unlisted address reads 0 (no reset content is stated: log entry 5). -/
  sample : List (Nat × BitVec 8) := []
  /-- Cycle from which the reference settles (R330). -/
  refAt : Nat := 0
  /-- The external reference lies within 2.0 V to 3.0 V. -/
  extOk : Bool := true
  f0700At : Option Nat := none
  mons : Tbl Mon := []
  /-- Channel comparator tests in progress, by channel: step and its start (R337). -/
  chanTests : Tbl (Nat × Nat) := []
  /-- Even members of paralleled pairs whose test has passed, and whose odd members are tested next (R337). -/
  second : List Nat := []
  /-- `MON_SELFTEST` commands in progress: the message, its cycle, the items still open, the statuses so far. -/
  tests : List (Msg × Nat × List Nat × Tbl Nat) := []
  deriving DecidableEq, Repr

end Sys2Proof.Machine
end

