-- ==== Sys2Proof/Machine/Frac.lean ====
section
/-! DEFINITION. Exact fractions, for periods, speeds and times that the spec does not round. -/
namespace Sys2Proof.Machine

/-- A fraction in lowest terms; the denominator of a fraction made by `Frac.mk` is positive. -/
structure Frac where
  num : Int := 0
  den : Nat := 1
  deriving DecidableEq, Repr

namespace Frac

/-- `n / d` in lowest terms; 0 when `d` is 0. -/
def make (n : Int) (d : Nat) : Frac :=
  let g := Nat.gcd n.natAbs d
  if d = 0 then { num := 0, den := 1 } else { num := n / g, den := d / g }

/-- A whole number. -/
def int (n : Int) : Frac := { num := n, den := 1 }

/-- Sum. -/
def add (a b : Frac) : Frac := make (a.num * b.den + b.num * a.den) (a.den * b.den)

/-- Difference. -/
def sub (a b : Frac) : Frac := make (a.num * b.den - b.num * a.den) (a.den * b.den)

/-- Product. -/
def mul (a b : Frac) : Frac := make (a.num * b.num) (a.den * b.den)

/-- Quotient; 0 when `b` is 0. -/
def div (a b : Frac) : Frac :=
  if b.num < 0 then make (-(a.num * b.den)) (a.den * b.num.natAbs) else make (a.num * b.den) (a.den * b.num.natAbs)

/-- Greatest whole number not above. -/
def floor (a : Frac) : Int := a.num / a.den

/-- Nearest whole number, a half away from zero (R6, R42). -/
def round (a : Frac) : Int :=
  if a.num < 0 then -((2 * (-a.num) + a.den) / (2 * a.den)) else (2 * a.num + a.den) / (2 * a.den)

/-- Least whole number not below. -/
def ceil (a : Frac) : Int := -((-a.num) / a.den)

/-- Not above. -/
def le (a b : Frac) : Bool := decide (a.num * b.den ≤ b.num * a.den)

/-- Below. -/
def lt (a b : Frac) : Bool := decide (a.num * b.den < b.num * a.den)

/-- Absolute value. -/
def abs (a : Frac) : Frac := { a with num := a.num.natAbs }

end Frac
end Sys2Proof.Machine
end

