-- ==== Sys2Proof/Machine/AngleState.lean ====
section
/-! DEFINITION. State of wheel decoding and angle tracking beyond the registers: the wheel description, the sensor inputs,
the chain's course, the prediction, the closure maps and the firing pattern table. -/
namespace Sys2Proof.Machine

/-- One cam edge of a pattern: angle from benchmark and polarity. -/
structure CamEdge where
  angle : Nat
  rising : Bool
  deriving DecidableEq, Repr

/-- The wheel description of Table 2-3. `bRole`: 0 NONE, 1 QUADRATURE, 2 INDEPENDENT. `dirSrc`: 0 NONE, 1 QUADRATURE,
2 PULSE_WIDTH. -/
structure Wheel where
  stroke : Nat
  positions : Nat
  missing : Nat
  tooth0 : Nat
  bRole : Nat
  bOffset : Int
  gapRatio : Nat
  noise : Nat
  dirSrc : Nat
  quadFwd : Bool
  dirConfirm : Nat
  reversible : Bool
  camA : List CamEdge
  camB : List CamEdge
  camTol : Nat
  phaseConfirm : Nat
  camFault : Nat
  limpEvents : Bool
  crankReturn : Bool
  deriving DecidableEq, Repr

/-- Tooth positions of one cycle, Pc (wheel, "Tooth positions and their angles"). -/
def Wheel.cycle (w : Wheel) : Nat := if w.stroke = 2 then w.positions else 2 * w.positions

/-- A sensor input: its filtered level, when it last changed, its VR arming threshold and the times of its accepted edges. -/
structure Sensor where
  /-- Filtered level (wheel R38, R56); reset low. -/
  level : Bool := false
  /-- Cycle of the last filtered level change (angle R98). -/
  changed : Nat := 0
  /-- VR arming threshold from the last accepted tooth, in 1/8 mV; `none` is the floor (wheel R37). -/
  armed : Option Nat := none
  /-- Cycles of the last accepted timing edges, newest first, at most four (wheel R43, R46). -/
  edges : List Nat := []
  /-- Cycle of the accepted timing edge whose pulse is being measured (wheel R57). -/
  pulse : Option Nat := none
  deriving DecidableEq, Repr

/-- Tooth counting on one crank input (wheel R45 to R48, R64, R66, R68). -/
structure Crank where
  /-- Background or foreground search: 0 SEEK, 1 SIGHTED, 2 LOCKED. -/
  search : Nat := 0
  /-- Accepted edges since the last gap candidate. -/
  count : Nat := 0
  /-- Accepted edges since `SIGHTED`, newest first, for the mean period of R88. -/
  since : List Nat := []
  /-- Tooth position of the last accepted edge in LOCKED or PHASED, by the chain (wheel R44, R68). -/
  pos : Option Nat := none
  /-- Accepted edges and rejections of the revolution that R45 counts, and whether `F_0407` was raised in it. -/
  revEdges : Nat := 0
  revNoise : Nat := 0
  noisy : Bool := false
  /-- Accepted edges since the last accepted edge of the other crank input (wheel R64). -/
  alone : Nat := 0
  /-- Consecutive accepted edges within one eighth of a pitch of their expected positions (wheel R68). -/
  good : Nat := 0
  deriving DecidableEq, Repr

/-- A cam input: its check against the phase (wheel R52, R55). -/
structure Cam where
  /-- Consecutive mismatches (wheel R55). -/
  misses : Nat := 0
  /-- Out of service under R98. -/
  out : Bool := false
  /-- Pattern edges matched in a row while the input is out of service, and the chain, in whole links along the rotation, where
  the run began (wheel R55). -/
  matched : Nat := 0
  runFrom : Int := 0
  /-- Pattern angle of the last accepted edge (angle R98, R99). -/
  last : Option Nat := none
  /-- Reference time of the frozen test in cam limp, cycles (angle R98). -/
  frozenRef : Option Frac := none
  deriving DecidableEq, Repr

/-- A phase hypothesis (wheel R52): alive, and its matches. -/
structure Hyp where
  alive : Bool := false
  hits : Nat := 0
  deriving DecidableEq, Repr

/-- A stretch of the chain's course, positions in 2^-19 link and not wrapped: from cycle `at` on it moves `step` per cycle
from `start`, forward or back, stands at `hold` until the course reaches it (R92), and stops at `stake` (R93). -/
structure Course where
  at_ : Nat := 0
  start : Int := 0
  step : Nat := 0
  back : Bool := false
  hold : Option Int := none
  stake : Option Int := none
  deriving DecidableEq, Repr

/-- A closure map: the signed entries c by revolution position, and its quality (R100). -/
structure ClosureMap where
  entries : Tbl Int := []
  quality : Nat := 0
  deriving DecidableEq, Repr

/-- The key under which flash holds a map (R105): `STROKE`, `POSITIONS`, `MISSING`, `TOOTH0_ANGLE`. -/
structure WheelKey where
  stroke : Nat
  positions : Nat
  missing : Nat
  tooth0 : Nat
  deriving DecidableEq, Repr

/-- A closure map in flash; `place` stands for its flash address, and `sound` tells that its entries pass their check. -/
structure FlashMap where
  key : WheelKey
  map : ClosureMap
  place : Nat
  sound : Bool
  deriving DecidableEq, Repr

/-- The firing pattern table in flash, with the key of R105, the crank input included, and the flash address of the closure map that was
in use (R110). -/
structure FlashTable where
  key : WheelKey
  input : Nat
  place : Nat
  entries : Tbl Int
  counts : List Nat
  deriving DecidableEq, Repr

/-- One crank input in closure learning (R103): where and when it stood last, the start of the revolution, its measured periods,
newest first, each with the revolution position that ends it, and the mean period of each whole revolution, newest first. -/
structure LearnTrack where
  begun : Bool := false
  pos : Nat := 0
  time : Frac := {}
  start : Frac := {}
  periods : List (Nat × Frac) := []
  means : List Frac := []
  deriving DecidableEq, Repr

/-- Closure learning in progress (R102, R103): the command to answer, the number of revolutions averaged, the inputs, and the
outcome once it has ended, 0 for completed. -/
structure Learn where
  cmd : Msg
  force : Bool
  revs : Nat
  inputs : List Nat
  tracks : Tbl LearnTrack := []
  outcome : Option Nat := none
  deriving DecidableEq, Repr

/-- A closure map that waits for the next tooth position 0 or P (R104): its input and key, and the command that wrote it. -/
structure MapWait where
  input : Nat
  key : WheelKey
  map : ClosureMap
  cmd : Option Msg
  /-- It came from the partner over the tie link (pairing R300). -/
  mirrored : Bool := false
  deriving DecidableEq, Repr

/-- A tooth position reached: its number, its time, and whether it was coasted (wheel R49, angle R96). -/
structure Mark where
  pos : Nat
  time : Frac
  coasted : Bool
  deriving DecidableEq, Repr

/-- The angle trackers beyond their registers. -/
structure Angle where
  /-- Wheel description in force (wheel Table 2-3); reset none. -/
  wheel : Option Wheel := none
  /-- Station table (angle R80); reset none. -/
  stations : List Nat := []
  /-- Inputs crank A, crank B, cam A, cam B, by number (wheel Table 2-1). -/
  sensors : Tbl Sensor := []
  cranks : Tbl Crank := []
  cams : Tbl Cam := []
  hyp0 : Hyp := {}
  hyp1 : Hyp := {}
  /-- Both hypotheses failed: the next test begins at position 1 or P + 1 (wheel R54). -/
  retest : Bool := false
  /-- Chain position, in whole links along the rotation, at which the phase test or the cam check began, and up to which closed
  windows are dealt with (wheel R52, R55). -/
  testFrom : Int := 0
  checked : Int := 0
  /-- Centre of the window last matched, in the same measure, by hypothesis × 32 + cam × 16 + pattern edge. -/
  hits : Tbl Int := []
  /-- Tooth positions since `LOCKED`, and whether `F_040B` was raised (wheel R54). -/
  lockedTeeth : Nat := 0
  told040B : Bool := false
  /-- A tracker fault stands, and the tooth positions in LOCKED or PHASED since the trackers last disagreed (faults R484). -/
  trackerFault : Bool := false
  agreed : Nat := 0
  /-- Consecutive readings against the present direction (wheel R59). -/
  dirRun : Nat := 0
  /-- A pulse-width reading confirmed, for the next accepted edge: REVERSE or not (wheel R57, R61). -/
  dirNext : Option Bool := none
  /-- Chain value at a change to REVERSE (wheel R62). -/
  reversal : Option Nat := none
  /-- Above 4,000 rpm and not yet below 3,950 (wheel R72). -/
  fast : Bool := false
  /-- Sync was lost with a held direction, so PHASED waits for both crank inputs (wheel R67). -/
  dirUnknown : Bool := false
  /-- Cycle of the last crank tooth seen (architecture R36). -/
  lastTooth : Option Nat := none
  /-- The chain's course, newest stretch first (angle R83, R91 to R93). -/
  courses : List Course := []
  /-- The shadow accumulator (angle R90). -/
  shadow : Course := {}
  /-- The wait at the stake of the present stretch is counted (angle R93). -/
  waited : Bool := false
  /-- Benchmark crossings passed: the wrap count of the chain when last counted (scheduling R153). -/
  wraps : Int := 0
  /-- Time of the last tooth position: its filtered edge, or its predicted time when coasted (angle R95). -/
  toothAt : Frac := {}
  /-- The last tooth positions reached, newest first, at most twelve (wheel R49). -/
  recent : List Mark := []
  /-- abs(e) in links at the accepted edges of the last revolution, newest first (pairing Table 10-2). -/
  errs : List Nat := []
  /-- Times of the tooth positions of the last revolution, newest first (angle R88). -/
  times : List Frac := []
  /-- T̄ (angle R88). -/
  mean : Frac := {}
  /-- Sum and number of the accepted periods since SIGHTED, each divided by its w (angle R88). -/
  sum : Frac := {}
  sumN : Nat := 0
  /-- T̂ of the interval in progress (angle R87). -/
  predicted : Frac := {}
  /-- Consecutive coasted positions (angle R97). -/
  coasts : Nat := 0
  /-- A jump occurred at the last position (angle R107). -/
  jumped : Bool := false
  /-- Last accepted edge of the input in use, and the predicted period at it, for the coast window (wheel Table 2-11). -/
  lastEdge : Nat := 0
  lastPred : Frac := {}
  /-- Cam limp: speed of the last cam interval in links per cycle, the next target edge and its predicted time (R99). -/
  limpSpeed : Frac := {}
  limpNext : Nat := 0
  limpAt : Frac := {}
  limpLast : Option (Nat × Nat) := none
  /-- Closure maps of crank A and crank B (angle R100). -/
  mapA : ClosureMap := {}
  mapB : ClosureMap := {}
  /-- Maps that wait for tooth position 0 or P, oldest first (angle R104). -/
  mapNext : List MapWait := []
  /-- Maps in flash, by input; the count of map writes stands for the next flash address (angle R105). -/
  flashMaps : Tbl FlashMap := []
  mapWrites : Nat := 0
  /-- Place of the map in use, by input. -/
  places : Nat × Nat := (0, 0)
  /-- Firing pattern table, f in 1/256, by band × 2,048 + position (angle R106). -/
  firing : Tbl Int := []
  /-- R107 held at every accepted edge of the cycle so far, and the band did not change (angle R109). -/
  cycleGood : Bool := false
  /-- A band count rose since the table was last written to flash (angle R110). -/
  tableDirty : Bool := false
  flashTable : Option FlashTable := none
  /-- `FIRING_TABLE_CLEAR` waits for the next benchmark crossing (angle R110). -/
  clearTable : Bool := false
  learn : Option Learn := none
  /-- `ANG_CFG` in effect: taken over from the register at each tooth position (angle R113). -/
  cfg : Option Word := none
  /-- `SEQ_CYCLE` and the chain at the last end of an event on a solenoid channel (angle R101). -/
  lastInjection : Option (Nat × Nat) := none
  /-- Sync was lost within the cycle after such an end: tooth positions passed since that end (angle R101); reset none. -/
  teethSince : Option Nat := none
  /-- The wheel description and the station table in retention memory (power Table 16-4). -/
  keptWheel : Option Wheel := none
  keptStations : List Nat := []
  deriving DecidableEq, Repr

end Sys2Proof.Machine
end

