-- ==== Sys2Proof/Machine/DmaState.lean ====
section
/-! DEFINITION. State of the DMA channels beyond their registers (DMA R408 to R416). -/
namespace Sys2Proof.Machine

/-- The transfer of one host channel (R411 to R415). -/
structure DmaXfer where
  /-- Client that owned the channel at the start. -/
  owner : Nat
  /-- Source bytes of the transfer that have been read. -/
  read : Nat := 0
  /-- Bytes of the transfer written to the host. -/
  written : Nat := 0
  /-- Bytes in the shared buffer, in source order: those read and not written, or the chunk being reshuffled (R412). -/
  buf : List Byte := []
  /-- Slots of the shared buffer that the channel holds (R411). -/
  slots : Nat := 0
  /-- Runs of the chunks written whole, the way being written and the bytes of its part of the chunk written (R412). -/
  runs : Nat := 0
  way : Nat := 0
  off : Nat := 0
  /-- Bytes of the write burst in flight. -/
  wlen : Nat := 0
  /-- End of the wait before a retry (R415); `none` while the channel does not wait. -/
  retryAt : Option Nat := none
  /-- Cycle of the `ABORT` (R414). -/
  abortAt : Option Nat := none
  deriving DecidableEq, Repr

/-- The two engines and the host channels (R411): the channel whose burst each engine has in flight, and the channel it served
last. (log entry 92, DESIGN CHOICE) -/
structure Dma where
  xfers : Tbl (Option DmaXfer) := []
  reading : Option Nat := none
  writing : Option Nat := none
  lastRead : Nat := 11
  lastWrite : Nat := 11
  deriving DecidableEq, Repr

end Sys2Proof.Machine
end

