-- ==== Sys2Proof/Machine/SeqState.lean ====
section
/-! DEFINITION. State of the Sequencer beyond its registers: event memory, wheels, near lists, stakes, lanes, the frames on
the profile link and the reports on the status return link. -/
namespace Sys2Proof.Machine

/-- Stages of Table 4-1 that a stored descriptor can be in. -/
inductive Stage where
  | waiting | near | armed | running
  deriving DecidableEq, Repr

/-- Where the microcode keeps a descriptor: an angle-wheel slot with the review angle that its queue is sorted by (R121, R122), the
near list, a fine or coarse time-wheel slot by loading pace, a stake, or nowhere (its end is not placed, its stakes have fired). -/
inductive Place where
  | angle (slot review : Nat)
  | near
  | fine (pace : Nat)
  | coarse (pace : Nat)
  | stake
  | idle
  deriving DecidableEq, Repr

/-- A descriptor of Table 4-2 and what the microcode holds beside it of the occurrence in hand. The complement half of R117
is the bitwise complement of the value half, which `Desc.words` gives. -/
structure Desc where
  channel : Nat
  profile : Nat
  astern : Bool
  bank : Nat
  flags : Nat
  lateLim : Nat
  endAngle : Nat
  cls : Nat
  duration : Nat
  armLead : Nat
  sequence : Nat
  client : Nat
  tooth : Nat
  stage : Stage := .waiting
  serial : Nat
  startTime : Nat := 0
  place : Place := .idle
  /-- Start angle and arm angle last computed (R124). -/
  start : Nat := 0
  arm : Nat := 0
  /-- Fixed start and end, on the whole cycle counter (R131). -/
  ts : Nat := 0
  te : Nat := 0
  /-- Lateness counted so far and slip, in cycles (R133, Table 4-8). -/
  late : Nat := 0
  slip : Nat := 0
  trim : Int := 0
  /-- `FLAGS` of the notices of this occurrence (Table 4-10). -/
  note : Nat := 0
  /-- Cycle of lane ON (N2, N3). -/
  onAt : Option Nat := none
  /-- Freed after this occurrence: a deferred cancel, a cleared bank or the FINISH policy (R148, R151, host link R399). -/
  lastOne : Bool := false
  /-- End angle, duration and arm lead of an update that waits for the next occurrence (R147). -/
  update : Option (Nat × Nat × Nat) := none
  /-- The event ran restarted or extended (closing R269). -/
  merged : Bool := false
  /-- Its converter reservation was lost: cause of Table 8-3 (closing R264, R265). -/
  lostConv : Nat := 0
  deriving DecidableEq, Repr

/-- A loaded injection stake (R136): the descriptor, start or end, the cycle it fires in and the cycle it was meant for. -/
structure Stake where
  desc : Nat
  start : Bool
  cycle : Nat
  meant : Nat
  deriving DecidableEq, Repr

/-- A profile frame or an output frame (drive Table 6-6a, auxiliary R278). -/
structure Frame where
  output : Nat
  profile : Nat := 0
  startPhase : Nat := 0
  battery : Bool := false
  fallback : Bool := false
  serial : Nat
  gen : Nat := 0
  deriving DecidableEq, Repr

/-- One tally pair beyond its event memory. -/
structure Pair where
  /-- Halted by a disagreement (architecture R30). -/
  halted : Bool := false
  stakes : Tbl Stake := []
  /-- Tooth stakes by slot, 0 to 7: the descriptor (R137). -/
  tooth : Tbl Nat := []
  /-- Descriptors of dequeued slots that wait for review, oldest slot first (R126, R139). -/
  reviews : List Nat := []
  /-- Near descriptors that wait for the recompute of the last tooth (R127, R139). -/
  recompute : List Nat := []
  /-- Frames on the profile link, oldest first (drive R201). -/
  link : List Frame := []
  /-- The pace whose injection share ran last, the stake loads made in that pace and the cycles of its share used (R136, R139). -/
  sharePace : Option Nat := none
  loads : Nat := 0
  used : Nat := 8
  deriving DecidableEq, Repr

/-- A gate command lane and who holds it ON (R136, drive R212, pulse R176). -/
structure Lane where
  on : Bool := false
  since : Nat := 0
  /-- Cycle of the last end that was not a cut (pairing R307). -/
  endAt : Option Nat := none
  /-- Descriptors that hold the lane, oldest start first. -/
  holders : List Nat := []
  /-- The pulse context that holds it, by number 0 to 63. -/
  pulse : Option Nat := none
  /-- Latched by a lane fault (architecture R26). -/
  fault : Bool := false
  deriving DecidableEq, Repr

/-- What the drive die reports on the status return link (drive R201, protection R251). -/
inductive Report where
  /-- A trip or a refused start: output, serial, TRIPPED reason, cycle, whether it was energised. -/
  | tripped (output serial reason cyc : Nat) (ran : Bool)
  /-- The duty limit: output, serial, cycle, whether it was energised. -/
  | truncated (output serial cyc : Nat) (ran : Bool)
  /-- BOOST_NOT_READY: output, serial, outcome, cycles waited, cycle, whether the event is over. -/
  | boost (output serial outcome delay cyc : Nat) (ended : Bool)
  /-- No checked frame at the start, or a profile that fails its check at a phase (R15, drive R195): whether it was energised. -/
  | noFrame (output serial cyc : Nat) (ran : Bool)
  /-- A lane fault: output, serial, cycle (R26). -/
  | laneFault (output serial cyc : Nat)
  deriving DecidableEq, Repr

/-- A COMPLETED or TRUNCATED notice that waits for its closing measurement. -/
structure Waiting where
  channel : Nat
  serial : Nat
  notice : ModMsg
  /-- Descriptor to free with it. -/
  free : Option Nat
  deriving DecidableEq, Repr

/-- The Sequencer beyond its registers. -/
structure Seq where
  /-- Event memory, by descriptor index (R117); reset empty. -/
  descs : Tbl Desc := []
  nextSerial : Nat := 1
  pairs : Tbl Pair := []
  /-- Lanes of the 52 outputs, 36 to 51 auxiliary. -/
  lanes : Tbl Lane := []
  /-- SAFETY inhibits, one bit per output (R144). -/
  inhibit : Nat := 0
  /-- Inhibits that end at the next pace (R145). -/
  release : Nat := 0
  /-- The angle-wheel slot dequeued last (R123); `none` outside PHASED. -/
  slot : Option Nat := none
  /-- Pace numbers of the overrun paces within the last 4,096 (architecture R21). -/
  overruns : List Nat := []
  /-- The number of them stood at 10 or more at the end of the last pace, or has reached 10 since (architecture R21). -/
  ovrHigh : Bool := false
  /-- Once-per-cycle marks: `SEQ_CYCLE` + 1 at the last record of a fault, by code × 64 + instance. -/
  marks : Tbl Nat := []
  /-- `SEQ_CFG` and `DRV_BANK_SLIP` in effect: taken over at benchmark crossings (R153, drive R194). -/
  reviewD : Nat := 3
  defLate : Nat := 2
  slips : Nat × Nat := (0, 0)
  /-- Reports on their way to the timing die, oldest first. -/
  reports : List Report := []
  /-- Notices that wait for a closing measurement. -/
  waiting : List Waiting := []
  /-- The tally pair that the profile link serves next (drive R201). -/
  turn : Nat := 0
  deriving DecidableEq, Repr

end Sys2Proof.Machine
end

