-- ==== Sys2Proof/Machine/DriveState.lean ====
section
/-! DEFINITION. State of the drive die beyond its registers: profile store, channels, boost controllers, closing-detection
converters, auxiliary outputs. -/
namespace Sys2Proof.Machine

/-- A stored profile: its value half, its complement half as the drive die's store holds it, and its generation count (R195, R198). -/
structure Profile where
  words : List Word
  compl : List Word
  gen : Nat
  deriving DecidableEq, Repr

/-- The power switches that drive a channel's coil (Table 6-1, Table 6-6): the boost and battery high sides on its high-side node, its
low side, the low side clamping its drain at `MED_CLAMP`, and the recirculation switch of a banked channel. -/
structure Switches where
  boost : Bool := false
  battery : Bool := false
  low : Bool := false
  clamp : Bool := false
  recirc : Bool := false
  deriving DecidableEq, Repr

/-- What a channel is doing. -/
inductive ChMode where
  | idle
  /-- Regulating or waiting in the phase of `PHASE`. -/
  | run
  /-- In the switch-off mode of a phase exit, until the next phase takes over (R208). -/
  | handover (mode : Nat)
  /-- The last phase exited before lane OFF (R209). -/
  | ended (mode : Nat)
  /-- Waiting for the boost (protection R235). -/
  | boostWait (since : Nat)
  /-- Lane OFF, current not yet below 50 mA, in a mode of Table 6-6 (R210). -/
  | decay (mode : Nat)
  deriving DecidableEq, Repr

/-- A rise under plausibility check (R216): its start, ΔI in 10 mA and V_src in 0.1 V. -/
structure Rise where
  from_ : Nat
  delta : Nat
  source : Nat
  deriving DecidableEq, Repr

/-- Offset calibration of a channel (R222 to R224). -/
inductive Calib where
  | none
  /-- Deferred until the channel is idle, since a cycle. -/
  | pending (since : Nat)
  | running (since start : Nat)
  deriving DecidableEq, Repr

/-- A solenoid channel of the drive die. -/
structure Chan where
  /-- Checked frames in order of arrival (R201). -/
  frames : List Frame := []
  mode : ChMode := .idle
  /-- Lane ON as the drive die tracks it (pairing R292). -/
  lane : Bool := false
  /-- Lane ON with the channel refused, switched off early or skipped: later lane OFF is ignored (R214). -/
  ended : Bool := false
  onAt : Nat := 0
  offAt : Nat := 0
  serial : Nat := 0
  /-- Slot and words of the profile in use, H0 to P11B; empty when none. -/
  slot : Nat := 0
  words : List Word := []
  battery : Bool := false
  fallback : Bool := false
  /-- Extended in the hold phase: its exit and maximum time no longer apply (R212). -/
  held : Bool := false
  phaseAt : Nat := 0
  /-- The boost test of this event is made (protection R235), and it ran a boost phase. -/
  tested : Bool := false
  boosted : Bool := false
  /-- The present boost phase runs from the battery high side (R192). -/
  fromBattery : Bool := false
  /-- A takeover entered the event in its hold phase (pairing R306). -/
  atHold : Bool := false
  /-- Source on; when it last switched on and when it last changed (R205). -/
  source : Bool := false
  sourceAt : Nat := 0
  /-- The cycle in which the low side last turned on (protection R242). -/
  lowAt : Nat := 0
  changedAt : Nat := 0
  /-- A change that a comparator called for and a minimum time defers (R205). -/
  want : Option Bool := none
  rise : Option Rise := none
  /-- Sense lost in this event: maximum times only (R218). -/
  blind : Bool := false
  /-- `DUTY_WIN` and `DUTY_FRAC` in effect, and energised intervals within the window (R213, R215). -/
  dutyWin : Nat := 5
  dutyFrac : Nat := 64
  duty : List (Nat × Nat) := []
  /-- `PRT_CFG` in effect (protection R254). -/
  prt : Option Word := none
  /-- `CD_CFG`, `CD_DET`, `CD_PLAUS`, `CD_TRIMLIM` in effect (closing R274). -/
  cd : Option (Word × Word × Word × Word) := none
  /-- Latched since a cycle, with a release to come (protection R252). -/
  latchedAt : Option Nat := none
  /-- Consecutive events without a trip, and whether the present event tripped. -/
  cleanRun : Nat := 0
  /-- Above 175 °C and not yet below 160 °C (protection R249). -/
  tooHot : Bool := false
  cal : Calib := .none
  /-- Since when, without a break, the drain stands in its rest band (R222). -/
  restSince : Option Nat := none
  /-- The slots of events with a boost draw that a restart ended and whose draw is not learned yet, oldest first (protection R237). -/
  drawn : List Nat := []
  /-- Off-state test in progress since a cycle, and the last test (protection R247). -/
  test : Option Nat := none
  testAt : Nat := 0
  /-- Self-test of the window comparators in progress (acquisition R337). -/
  selfTest : Bool := false
  deriving DecidableEq, Repr

/-- One reservation in a converter's table (closing R263). -/
structure Reserve where
  desc : Nat
  serial : Nat
  cls : Nat
  closeFrom : Nat
  closeTo : Nat
  exitTo : Option (Nat × Nat)
  deriving DecidableEq, Repr

/-- A window a converter serves (closing R257, R261, R266). -/
structure Window where
  channel : Nat
  serial : Nat
  /-- A closing window; otherwise a CLOSED-exit window. -/
  closing : Bool
  from_ : Nat
  length : Nat
  deriving DecidableEq, Repr

/-- What the trim loop holds of a channel beyond `CD_TRIM_c` (closing R267 to R271), and of the event measured. -/
structure Trim where
  /-- T_f of R270. -/
  base : Int := 0
  /-- `CLOSED_EXIT` of the event in hand (closing Table 8-2). -/
  exits : Nat := 0
  /-- The measurement to come is eligible under R269. -/
  eligible : Bool := false
  /-- The complement of T as stored (R267). -/
  compl : Nat := 131071
  deriving DecidableEq, Repr

/-- A boost controller beyond its registers. -/
structure Boost where
  /-- Cycle at which the state was entered (R230). -/
  since : Nat := 0
  /-- The clamp is engaged (R239). -/
  clamped : Bool := false
  /-- The bleed switch is on (R232, R240). -/
  bleed : Bool := false
  /-- Since when, without a break, VCAP stands below half of `VSET`, and above the clamp level plus 8 V (R233). -/
  lowSince : Option Nat := none
  highSince : Option Nat := none
  /-- Consecutive switching cycles with an inductor current above 1.5 × `ILIM` (R233). -/
  overs : Nat := 0
  /-- What the controller delivered and drew: the end of each stretch within the last 10 ms, its length in cycles, µJ, µC (R228, R230). -/
  power : List (Nat × Nat × Nat × Nat) := []
  /-- The controller switches, and the inductor peak at which it ends each on-time, in 0.1 A (R227, R228). -/
  switching : Bool := false
  peak : Nat := 0
  deriving DecidableEq, Repr

/-- An auxiliary output of the drive die. -/
structure Aux where
  frames : List Frame := []
  /-- Lane ON as the drive die sees it. -/
  lane : Bool := false
  serial : Nat := 0
  /-- Cycle at which the output was last switched off; `none` before the first time on (R280). -/
  offAt : Option Nat := none
  /-- Start of the inrush window in progress (R280). -/
  inrush : Option Nat := none
  /-- Cycle at which the lane last turned ON (R281). -/
  onAt : Nat := 0
  /-- A checked frame released the present lane-ON interval (architecture R15). -/
  framed : Bool := false
  /-- The output conducted in this lane-ON interval. -/
  ran : Bool := false
  /-- Within the inrush window: cycles in which its timer held, and the integral of the squared current, in (10 mA)² × cycles (R280,
  R285). -/
  held : Nat := 0
  heat : Nat := 0
  /-- Since when, without a break, the output stands at its current limit outside an inrush window; below 30 % of V_feed at its limit;
  below `OPEN_I` outside its window; above half of V_feed while off (R282, R286, R287). -/
  limitSince : Option Nat := none
  lowSince : Option Nat := none
  idleSince : Option Nat := none
  backSince : Option Nat := none
  /-- Thermal shutdowns and the open-load fault of this lane-ON interval (R286, R288). -/
  thermal : Nat := 0
  openTold : Bool := false
  latchedAt : Option Nat := none
  /-- Consecutive lane-ON intervals without a trip, and whether this one tripped (R284, protection R252). -/
  cleanRun : Nat := 0
  tripped : Bool := false
  f0542At : Option Nat := none
  /-- `AUX_CFG` and `AUX_OPEN` in effect (R289). -/
  cfg : Option (Word × Word) := none
  deriving DecidableEq, Repr

/-- The drive die beyond its registers. -/
structure Drive where
  profiles : Tbl Profile := []
  /-- `PROFILE_PUT` commands whose slot the drive die is storing, oldest first (R198). -/
  storing : List (Nat × Msg × List Word) := []
  chans : Tbl Chan := []
  /-- Learned draws G in µJ, by 2 × slot + controller (protection R237). -/
  draws : Tbl Nat := []
  boosts : Tbl Boost := []
  /-- Reservation tables and the window served, by converter (closing R263, R266). -/
  reserves : Tbl (List Reserve) := []
  windows : Tbl (Option Window) := []
  trims : Tbl Trim := []
  aux : Tbl Aux := []
  /-- Outputs waiting for an inrush window, oldest lane ON first (auxiliary R281). -/
  waiters : List Nat := []
  /-- `SENSE_CAL` commands in progress: the message, the channels still open and the item statuses so far. -/
  cals : List (Msg × List Nat × Tbl Nat) := []
  /-- VBAT as last measured, 0.1 V (R216, protection R238). -/
  vbat : Nat := 0
  deriving DecidableEq, Repr

end Sys2Proof.Machine
end

