-- ==== Sys2Proof/Machine/PairState.lean ====
section
/-! DEFINITION. State of redundant pairing beyond its registers: the tie link, the resign line, a takeover in progress, the
isolating switches, what the partner mirrored, and the benchmark line (pairing R291 to R314). -/
namespace Sys2Proof.Machine

/-- A handover that waits: its command, QUIET or AT_ONCE, the cycle of its admission and the chain then (R310). -/
structure Handover where
  cmd : Msg
  quiet : Bool
  since : Nat
  from_ : Int
  deriving DecidableEq, Repr

/-- A channel's trim as last mirrored: T in 17 bits, state, miss count, return step (Table 10-4). -/
structure TrimCopy where
  trim : Nat
  state : Nat
  misses : Nat
  step : Nat
  deriving DecidableEq, Repr

/-- Redundant pairing beyond its registers. (log entry 93, DESIGN CHOICE) -/
structure Tie where
  /-- `ENABLE` and `TIE_VER_MAX` in effect, as taken over at the last training (R314). -/
  enable : Bool := true
  verMax : Nat := 3
  /-- The tie link is trained, and has trained since reset (R302, R305). -/
  trained : Bool := false
  ever : Bool := false
  /-- Cycle from which the 5 ms limit of R294 runs; `none` before. -/
  since : Option Nat := none
  /-- The limit has passed without a training, and `F_0600` was raised (R294). -/
  late : Bool := false
  /-- The module has been DUTY or SOLO since its reset (R294). -/
  drove : Bool := false
  /-- `SEQ` of the next frame sent (Table 10-2). -/
  txSeq : Nat := 0
  /-- W0 to W7 of the partner's last valid frame, and the cycle in which it ended, or training did (R298, R302). -/
  frame : List Word := []
  frameAt : Nat := 0
  /-- Consecutive frames beyond `CHAIN_TOL`, with another digest, and with the same digest (R301). -/
  chainRun : Nat := 0
  digestBad : Nat := 0
  digestGood : Nat := 0
  /-- End of this module's own resign assertion; `none` while it leaves the line alone (R303). -/
  resign : Option Nat := none
  /-- Cycle since which the resign line reads low (R306, R309). -/
  lowAt : Nat := 0
  /-- Edges of the resign line are ignored until it is high (R309). -/
  deaf : Bool := false
  /-- Resigned for a cause that leaves the module not eligible (Table 10-5). -/
  resigned : Bool := false
  /-- A takeover in progress: its trigger, 1 SILENCE or 2 RESIGN, and its cycle (R306). -/
  takeover : Option (Nat × Nat) := none
  /-- The isolating switches are closed, but for those of outputs latched by a lane fault (R291). -/
  closed : Bool := false
  handover : Option Handover := none
  /-- Background blocks to send, oldest first (R300). -/
  blocks : List (List Word) := []
  /-- Places of the maps that were sent last, crank A and B (R300). -/
  sent : Option (Nat × Nat) := none
  /-- The channel whose TRIM block is sent next. -/
  trimTurn : Nat := 0
  /-- A map being received: X0, X1, X2, X3 of its head, and the entry blocks so far, oldest first. -/
  rxMap : Option (List Word × List (List Word)) := none
  /-- The last TRIM block of each channel. -/
  trims : Tbl TrimCopy := []
  /-- Listening on the benchmark line since a cycle (R313). -/
  listen : Option Nat := none
  /-- The cycle until which this module holds the benchmark line low (R311, R313). -/
  bmLow : Option Nat := none
  /-- The cycle of the stake that makes the line fall at the next benchmark crossing, as predicted at the last tooth before it (R311). -/
  bmFall : Option Nat := none
  /-- The partner held the benchmark role by the last frame that showed it DUTY or SOLO (R311). -/
  partnerBm : Bool := false
  /-- The cycle of the engine, as counted 2^22 links beyond benchmark, of the last pulse seen and of the last one found missing
  (R312). -/
  bmSeen : Option Int := none
  bmMissed : Option Int := none
  /-- Consecutive missing pulses (R313). -/
  missing : Nat := 0
  deriving DecidableEq, Repr

end Sys2Proof.Machine
end

