-- ==== Sys2Proof/Machine/PeriphState.lean ====
section
/-! DEFINITION. State of the timers, pin engines and position interfaces beyond their registers (timers R345 to R366). -/
namespace Sys2Proof.Machine

/-- A general timer: the cycle from which it ticks when it runs (R347), qualifying edges since its start or last capture (R349),
and the cycle of its last match. -/
structure Timer where
  start : Option Nat := none
  edges : Nat := 0
  matched : Option Nat := none
  /-- The last change that the capture filter has passed: its cycle and level (R349). -/
  passed : Option (Nat × Bool) := none
  /-- The last cycle in which an edge or a match acted, and `edges` before it (R347). -/
  acted : Option (Nat × Nat) := none
  deriving DecidableEq, Repr

/-- An action that timer `timer` has to put on TIO pin `pin` in the next cycle (R348): 1 SET, 2 CLEAR, 3 TOGGLE. -/
structure TioAct where
  timer : Nat
  pin : Nat
  act : Nat
  deriving DecidableEq, Repr

/-- A pin engine beyond its registers (R350 to R356). -/
structure Pe where
  tx : List Word := []
  rx : List Word := []
  outBits : Nat := 0
  inBits : Nat := 0
  /-- Next tick, in 1/256 cycle (R351). -/
  next : Nat := 0
  /-- A HOLD word has executed its steps and waits for its condition (R354). -/
  held : Bool := false
  /-- Cycle of the last DEPOSIT, for a read in the same cycle (R356). -/
  pushed : Option Nat := none
  /-- Output latch of the four pins (R352, R354). -/
  pins : Nat := 0
  deriving DecidableEq, Repr

/-- A position interface beyond its registers (R358 to R366). -/
structure Pos where
  /-- Filtered levels of inputs A, B, Z or U, V, W. -/
  a : Bool := false
  b : Bool := false
  z : Bool := false
  /-- Cycles of the last changes that the three input filters have passed (R358). -/
  aAt : Option Nat := none
  bAt : Option Nat := none
  zAt : Option Nat := none
  /-- The cycle of the last index (R361). -/
  idxAt : Option Nat := none
  /-- A software write of this cycle leaves the compare to be tested in the next (R365). -/
  check : Bool := false
  /-- v_prev of R364. -/
  prev : Option Nat := none
  /-- Cycle of the last valid frame, or of the start (R364). -/
  validAt : Nat := 0
  /-- SSI: start of the frame in progress, earliest start of the next, and consecutive failed idle tests (R363, R364). -/
  frame : Option Nat := none
  nextAt : Nat := 0
  fails : Nat := 0
  f0721At : Option Nat := none
  /-- The last cycle in which R changed by hardware, and by how many counts (R366). -/
  moved : Nat × Nat := (0, 0)
  deriving DecidableEq, Repr

/-- Timers, pin engines and position interfaces. -/
structure Periph where
  timers : Tbl Timer := []
  /-- Output latches of TIO0 to TIO7, bit i for pin i. -/
  tio : Nat := 0
  /-- Actions of the present cycle that fall on the pins in the next (R348). -/
  tioActs : List TioAct := []
  engines : Tbl Pe := []
  positions : Tbl Pos := []
  deriving DecidableEq, Repr

end Sys2Proof.Machine
end

