-- ==== Sys2Proof/Machine/PulseState.lean ====
section
/-! DEFINITION. State of the pulse programs beyond their registers: contexts, program banks, parameter memory, queues, pulse
stakes (pulse R157 to R181). -/
namespace Sys2Proof.Machine

/-- A binding slot (R159): a target of Table 5-1, 255 when empty, a profile and `SYNC_GATED`. -/
structure PSlot where
  target : Nat := 0xFF
  profile : Nat := 0
  gated : Bool := false
  deriving DecidableEq, Repr

/-- What an image says of one context (Table 19-6). -/
structure PBind where
  enable : Bool := false
  entry : Nat := 0
  slots : List PSlot := []
  lines : Nat := 0
  late : Nat := 2
  deriving DecidableEq, Repr

/-- A program bank: its instruction words, unlisted words 0, and its contexts (R165). -/
structure PBank where
  code : Tbl Nat := []
  binds : List PBind := []
  deriving DecidableEq, Repr

/-- What a context waits for (R167 to R173). -/
inductive PWait where
  | angle (a : Nat)
  /-- The time, on the whole cycle counter. -/
  | time (t : Nat)
  | edge (det : Bool) (kind : Nat)
  | qin (q cd : Nat)
  | qout (q v : Nat)
  deriving DecidableEq, Repr

/-- What a context does. `ready` contexts are due since pace `since`, in group `group` of R161, ordered by `key`; a pending
status goes into the wait's register at dispatch. -/
inductive PRun where
  | disabled
  | halted
  | ready (group key since : Nat) (status : Option Nat)
  | waiting
  deriving DecidableEq, Repr

/-- An edge detector (R171): its source, that source's level, and the cycle of the last matched edge. -/
structure Detector where
  source : Option Nat := none
  level : Bool := false
  edge : Nat := 0
  /-- Cycle of the matched edge that the present wait completes on. -/
  hit : Option Nat := none
  deriving DecidableEq, Repr

/-- A context, one of 64 (R157). (log entry 4, DESIGN CHOICE) -/
structure PCtx where
  /-- c0 to c15. -/
  regs : Tbl Nat := []
  pc : Nat := 0
  run : PRun := .disabled
  /-- The wait in hand, its status register, the pace of its issue and its limit's loading pace (R167, R172). -/
  wait : Option PWait := none
  cd : Nat := 0
  issued : Nat := 0
  /-- The cycle in which the wait's instruction executed (R170). -/
  from_ : Nat := 0
  limit : Option Nat := none
  /-- Instructions executed in the step in hand (R160). -/
  steps : Nat := 0
  /-- Bits [63:32] latched by the last CYCLE_LO capture (Table 5-5). -/
  hi : Nat := 0
  det0 : Detector := {}
  det1 : Detector := {}
  deriving DecidableEq, Repr

/-- A loaded pulse stake (R174): the context's number 0 to 63, its target (Table 5-1; 256 + k for trigger line k), the action
of Table 5-4a (3 raises a line), and its cycle. -/
structure PStake where
  ctx : Nat
  target : Nat
  action : Nat
  cycle : Nat
  deriving DecidableEq, Repr

/-- The pulse resources of one tally pair. -/
structure PPair where
  bank0 : PBank := {}
  bank1 : PBank := {}
  /-- Parameter memory: stored value and complement; unlisted words hold 0 and its complement (R166). -/
  params : Tbl (Nat × Nat) := []
  /-- 16 queues, oldest entry first (R173). -/
  queues : Tbl (List Nat) := []
  /-- Pulse stakes by slot, 0 to 31. -/
  stakes : Tbl PStake := []
  /-- The `PULSE_SWITCH` that waits for the pace boundary, and its cycle (R181). -/
  switch : Option (Msg × Nat) := none
  /-- Parameter writes accepted after cycle 59 of a pace; they go in together at the next one (R182). -/
  puts : List Msg := []
  /-- The cycles in which each queue last got an entry while empty, and a place while full (R161, R173). -/
  fed : Tbl Nat := []
  freed : Tbl Nat := []
  deriving DecidableEq, Repr

/-- The last pulse stake actions on a target: the cycle, and whether an OFF or an ON was among them (R176). -/
structure PFired where
  cyc : Nat := 0
  off : Bool := false
  on : Bool := false
  deriving DecidableEq, Repr

/-- The pulse programs of the module. -/
structure Pulse where
  ctxs : Tbl PCtx := []
  pairs : Tbl PPair := []
  /-- Levels of the 24 general pulse outputs. -/
  gpo : Nat := 0
  /-- Levels at the 24 pads: those of the outputs while the module drives them, and what else is wired to them otherwise (R170,
  pairing R292). -/
  pads : Nat := 0
  fired : Tbl PFired := []
  /-- Chain of the last pace snapshot taken in PHASED (R168). -/
  snap : Option Nat := none
  /-- Steps ended so far: orders group 4 of R161. -/
  ended : Nat := 0
  /-- The pace whose pulse shares, from its cycle 60 on, are still to come (R18, R160). -/
  due : Option Nat := none
  /-- The cycle up to which each trigger line is raised (R176). -/
  lines : Tbl Nat := []
  deriving DecidableEq, Repr

end Sys2Proof.Machine
end

