-- ==== Sys2Proof/Config.lean ====
section
/-! DEFINITION. What an individual module or installation fixes, and the free values: constants with no body. -/
namespace Sys2Proof

/-- `GLB_SERIAL_LO`: bits [31:0] of the module's serial number, "per module" (Table 18-6). (log entry 6, PRESUMED) -/
opaque Config.serialLo : Nat
/-- `GLB_SERIAL_HI`: bits [33:32] of the module's serial number, "per module" (Table 18-6). (log entry 6, PRESUMED) -/
opaque Config.serialHi : Nat
/-- The slot number strapped by the carrier (R492; `PAIR_STATUS.SLOT` resets to the strap). (log entry 6, PRESUMED) -/
opaque Config.slotStrap : Nat

/-- The stream of free values: the spec states that a value results and does not say which. No body, so nothing can be
proved of one. (log entry 9, DEDUCED) -/
opaque Config.free : Nat → Nat

end Sys2Proof
end

