-- ==== Sys2Proof/Machine/Regs.lean ====
section
/-! DEFINITION. Every register field of the spec's register tables: where it lies, its access type, its reset value,
its write substitution and the collision count that takes an increment a software write displaces (R13, R537).
A field is named REGISTER_FIELD; a register that repeats takes its index i, a client register its client n. -/
namespace Sys2Proof.Machine

/-- Access types, Table 0-5. -/
inductive Acc where
  | rw | ro | w1c | w1s | rc | pw
  deriving DecidableEq, Repr

/-- Same-cycle rules, Table 20-5. -/
inductive Kind where
  | flag | counter | hw | cfg | trip | rc
  deriving DecidableEq, Repr

/-- Substitutions a write undergoes ("a write of 0 stores 1"): a value below `lo` stores `v`, or the value is held
between two bounds. -/
inductive Fix where
  | none
  | below (lo v : Nat)
  | above (hi v : Nat)
  | clamp (lo hi : Nat)
  deriving DecidableEq, Repr

/-- One register field. `off` is its register's offset in the model's one register space, `lo` and `w` its lowest bit
and width; `coll` is the key and width of the collision count that takes its displaced increments. (log entry 91, DESIGN CHOICE) -/
structure Fld where
  off : Nat
  lo : Nat
  w : Nat
  acc : Acc
  reset : Nat
  kind : Kind := .cfg
  fix : Fix := .none
  coll : Option (Nat × Nat) := none
  deriving DecidableEq, Repr

/-- The key of a field in the register file: 32 keys per register, one per lowest bit. -/
def Fld.key (f : Fld) : Nat := 32 * f.off + f.lo

/-- The largest value the field holds; counters saturate at it. -/
def Fld.max (f : Fld) : Nat := 2 ^ f.w - 1

/-- The value stored by a write of `v` (the substitution of the field's Meaning column). -/
def Fix.apply (x : Fix) (v : Nat) : Nat :=
  match x with
  | .none => v
  | .below lo d => if v < lo then d else v
  | .above hi d => if hi < v then d else v
  | .clamp lo hi => if v < lo then lo else if hi < v then hi else v

/-- The field's bits of a 32-bit register word. -/
def Fld.ofWord (f : Fld) (x : Word) : Nat := x.toNat / 2 ^ f.lo % 2 ^ f.w

/-- Base of the client window of client `n` in the model's one register space. (log entry 91, DESIGN CHOICE) -/
def clientBase (n : Nat) : Nat := 0x10000 + 0x4000 * n

/-- Base of the DMA channel blocks, which stand in the window of their owner (R408). (log entry 91, DESIGN CHOICE) -/
def dmaBase : Nat := 0x800000

/-- Base of the interrupt controller's registers, in the management cores' own address space (R426). (log entry 91, DESIGN CHOICE) -/
def intcBase : Nat := 0x900000

/-- `o` is the offset of one of `count` registers standing `stride` apart from `base`. -/
def inArr (o base stride count : Nat) : Bool :=
  decide (base ≤ o) && decide (o < base + stride * count) && (o - base) % stride == 0

/-- Offset of `GLB_IDENT` (scope R2, R3). -/
def GLB_IDENT : Nat := 0x0
/-- Offset of `GLB_FW_VERSION` (scope R2, R3). -/
def GLB_FW_VERSION : Nat := 0x4
/-- Offset of `GLB_BOOT` (start-up, Table 15-8). -/
def GLB_BOOT : Nat := 0x10
/-- Offset of `GLB_ROLLBACK` (start-up, Table 15-8). -/
def GLB_ROLLBACK : Nat := 0x14
/-- Offset of `GLB_SERIAL_LO` (module, Table 18-6). -/
def GLB_SERIAL_LO : Nat := 0x18
/-- Offset of `GLB_SERIAL_HI` (module, Table 18-6). -/
def GLB_SERIAL_HI : Nat := 0x1C
/-- Offset of `SEQ_PACE` (architecture R22). -/
def SEQ_PACE : Nat := 0x100
/-- Offset of `SEQ_PACE_COLL` (architecture R22). -/
def SEQ_PACE_COLL : Nat := 0x104
/-- Offset of `SEQ_CFG` (scheduling R153 to R155). -/
def SEQ_CFG : Nat := 0x108
/-- Offset of `SEQ_STATUS` (scheduling R153 to R155). -/
def SEQ_STATUS : Nat := 0x10C
/-- Offset of `SEQ_CYCLE` (scheduling R153 to R155). -/
def SEQ_CYCLE : Nat := 0x110
/-- Offset of `SEQ_OCC_ANGLE` (scheduling R153 to R155). -/
def SEQ_OCC_ANGLE : Nat := 0x114
/-- Offset of `SEQ_OCC_FINE` (scheduling R153 to R155). -/
def SEQ_OCC_FINE : Nat := 0x118
/-- Offset of `SEQ_OCC_COARSE` (scheduling R153 to R155). -/
def SEQ_OCC_COARSE : Nat := 0x11C
/-- Offset of `SEQ_DEEP_IDX0` (scheduling R153 to R155). -/
def SEQ_DEEP_IDX0 : Nat := 0x120
/-- Offset of `SEQ_DEEP_IDX1` (scheduling R153 to R155). -/
def SEQ_DEEP_IDX1 : Nat := 0x124
/-- Offset of `SEQ_NEAR` (scheduling R153 to R155). -/
def SEQ_NEAR : Nat := 0x128
/-- Offset of `SEQ_EVT_CNT0` (scheduling R153 to R155). -/
def SEQ_EVT_CNT0 : Nat := 0x12C
/-- Offset of `SEQ_EVT_CNT1` (scheduling R153 to R155). -/
def SEQ_EVT_CNT1 : Nat := 0x130
/-- Offset of `SEQ_EVT_CNT2` (scheduling R153 to R155). -/
def SEQ_EVT_CNT2 : Nat := 0x134
/-- Offset of `SEQ_COLL0` (scheduling R153 to R155). -/
def SEQ_COLL0 : Nat := 0x138
/-- Offset of `SEQ_COLL1` (scheduling R153 to R155). -/
def SEQ_COLL1 : Nat := 0x13C
/-- Offset of `SEQ_MAX_LATE` (scheduling R153 to R155). -/
def SEQ_MAX_LATE : Nat := 0x140
/-- Offset of `SEQ_ECC` (scheduling R153 to R155). -/
def SEQ_ECC : Nat := 0x144
/-- Offset of `PLS_CTRL` (pulse R184). -/
def PLS_CTRL (i : Nat) : Nat := 0x180 + 16 * i
/-- Offset of `PLS_STATUS` (pulse R184). -/
def PLS_STATUS (i : Nat) : Nat := 0x184 + 16 * i
/-- Offset of `PLS_COUNT` (pulse R184). -/
def PLS_COUNT (i : Nat) : Nat := 0x188 + 16 * i
/-- Offset of `PLS_COLL` (pulse R184). -/
def PLS_COLL (i : Nat) : Nat := 0x18C + 16 * i
/-- Offset of `PAIR_CFG` (pairing R314). -/
def PAIR_CFG : Nat := 0x300
/-- Offset of `PAIR_STATUS` (pairing R314). -/
def PAIR_STATUS : Nat := 0x304
/-- Offset of `PAIR_COUNT0` (pairing R314). -/
def PAIR_COUNT0 : Nat := 0x308
/-- Offset of `PAIR_COUNT1` (pairing R314). -/
def PAIR_COUNT1 : Nat := 0x30C
/-- Offset of `PAIR_COLL` (pairing R314). -/
def PAIR_COLL : Nat := 0x310
/-- Offset of `PAIR_DIFF` (pairing R314). -/
def PAIR_DIFF : Nat := 0x314
/-- Offset of `PAIR_TAKEOVER` (pairing R314). -/
def PAIR_TAKEOVER : Nat := 0x318
/-- Offset of `WHL_STATUS` (wheel R39, R60, R77, R78). -/
def WHL_STATUS : Nat := 0x400
/-- Offset of `WHL_LOSS` (wheel R39, R60, R77, R78). -/
def WHL_LOSS : Nat := 0x404
/-- Offset of `WHL_NOISE` (wheel R39, R60, R77, R78). -/
def WHL_NOISE : Nat := 0x408
/-- Offset of `WHL_NOISE_CAM` (wheel R39, R60, R77, R78). -/
def WHL_NOISE_CAM : Nat := 0x40C
/-- Offset of `WHL_COLL` (wheel R39, R60, R77, R78). -/
def WHL_COLL : Nat := 0x410
/-- Offset of `WHL_IN_CFG` (wheel R39, R60, R77, R78). -/
def WHL_IN_CFG (i : Nat) : Nat := 0x420 + 4 * i
/-- Offset of `WHL_DIR_CFG` (wheel R39, R60, R77, R78). -/
def WHL_DIR_CFG : Nat := 0x430
/-- Offset of `ANG_CHAIN` (angle R113). -/
def ANG_CHAIN : Nat := 0x480
/-- Offset of `ANG_TOOTH` (angle R113). -/
def ANG_TOOTH : Nat := 0x484
/-- Offset of `ANG_RATE` (angle R113). -/
def ANG_RATE : Nat := 0x488
/-- Offset of `ANG_PERIOD` (angle R113). -/
def ANG_PERIOD : Nat := 0x48C
/-- Offset of `ANG_MEAN` (angle R113). -/
def ANG_MEAN : Nat := 0x490
/-- Offset of `ANG_CFG` (angle R113). -/
def ANG_CFG : Nat := 0x494
/-- Offset of `ANG_BAND0` (angle R113). -/
def ANG_BAND0 : Nat := 0x498
/-- Offset of `ANG_BAND1` (angle R113). -/
def ANG_BAND1 : Nat := 0x49C
/-- Offset of `ANG_BAND2` (angle R113). -/
def ANG_BAND2 : Nat := 0x4A0
/-- Offset of `ANG_BAND3` (angle R113). -/
def ANG_BAND3 : Nat := 0x4A4
/-- Offset of `ANG_STATUS` (angle R113). -/
def ANG_STATUS : Nat := 0x4A8
/-- Offset of `ANG_ERR` (angle R113). -/
def ANG_ERR : Nat := 0x4AC
/-- Offset of `ANG_ERR_MAX` (angle R113). -/
def ANG_ERR_MAX : Nat := 0x4B0
/-- Offset of `ANG_COUNT` (angle R113). -/
def ANG_COUNT : Nat := 0x4B4
/-- Offset of `ANG_WAITS` (angle R113). -/
def ANG_WAITS : Nat := 0x4B8
/-- Offset of `ANG_COLL` (angle R113). -/
def ANG_COLL : Nat := 0x4BC
/-- Offset of `ANG_LOCKSTEP` (angle R113). -/
def ANG_LOCKSTEP : Nat := 0x4C0
/-- Offset of `ANG_FP_CYCLES0` (angle R113). -/
def ANG_FP_CYCLES0 : Nat := 0x4C4
/-- Offset of `ANG_FP_CYCLES1` (angle R113). -/
def ANG_FP_CYCLES1 : Nat := 0x4C8
/-- Offset of `DRV_CH_EN0` (drive R225). -/
def DRV_CH_EN0 : Nat := 0x600
/-- Offset of `DRV_CH_EN1` (drive R225). -/
def DRV_CH_EN1 : Nat := 0x608
/-- Offset of `DRV_PAIR` (drive R225). -/
def DRV_PAIR : Nat := 0x610
/-- Offset of `DRV_BANK_SLIP` (drive R225). -/
def DRV_BANK_SLIP : Nat := 0x614
/-- Offset of `DRV_STATUS` (drive R225). -/
def DRV_STATUS : Nat := 0x618
/-- Offset of `DRV_PROF_VALID0` (drive R225). -/
def DRV_PROF_VALID0 : Nat := 0x61C
/-- Offset of `DRV_PROF_VALID1` (drive R225). -/
def DRV_PROF_VALID1 : Nat := 0x620
/-- Offset of `DRV_COLL` (drive R225). -/
def DRV_COLL : Nat := 0x624
/-- Offset of `DRV_CH_CFG` (drive R225). -/
def DRV_CH_CFG (i : Nat) : Nat := 0xC00 + 16 * i
/-- Offset of `DRV_CH_SENSE` (drive R225). -/
def DRV_CH_SENSE (i : Nat) : Nat := 0xC04 + 16 * i
/-- Offset of `DRV_CH_STAT` (drive R225). -/
def DRV_CH_STAT (i : Nat) : Nat := 0xC08 + 16 * i
/-- Offset of `DRV_CH_COUNT` (drive R225). -/
def DRV_CH_COUNT (i : Nat) : Nat := 0xC0C + 16 * i
/-- Offset of `BST_CFG` (boost R254). -/
def BST_CFG (i : Nat) : Nat := 0x640 + 16 * i
/-- Offset of `BST_CAP` (boost R254). -/
def BST_CAP (i : Nat) : Nat := 0x644 + 16 * i
/-- Offset of `BST_STATUS` (boost R254). -/
def BST_STATUS (i : Nat) : Nat := 0x648 + 16 * i
/-- Offset of `BST_COUNT` (boost R254). -/
def BST_COUNT (i : Nat) : Nat := 0x64C + 16 * i
/-- Offset of `BST_COLL` (boost R254). -/
def BST_COLL : Nat := 0x660
/-- Offset of `PRT_SUB` (boost R254). -/
def PRT_SUB : Nat := 0x664
/-- Offset of `PRT_CFG` (boost R254). -/
def PRT_CFG (i : Nat) : Nat := 0xE40 + 4 * i
/-- Offset of `PRT_STAT` (boost R254). -/
def PRT_STAT (i : Nat) : Nat := 0xED0 + 4 * i
/-- Offset of `CD_STATUS` (closing R274). -/
def CD_STATUS : Nat := 0x668
/-- Offset of `CD_COLL` (closing R274). -/
def CD_COLL : Nat := 0x66C
/-- Offset of `CD_CFG` (closing R274). -/
def CD_CFG (i : Nat) : Nat := 0xF60 + 32 * i
/-- Offset of `CD_DET` (closing R274). -/
def CD_DET (i : Nat) : Nat := 0xF64 + 32 * i
/-- Offset of `CD_PLAUS` (closing R274). -/
def CD_PLAUS (i : Nat) : Nat := 0xF68 + 32 * i
/-- Offset of `CD_TRIMLIM` (closing R274). -/
def CD_TRIMLIM (i : Nat) : Nat := 0xF6C + 32 * i
/-- Offset of `CD_LAST` (closing R274). -/
def CD_LAST (i : Nat) : Nat := 0xF70 + 32 * i
/-- Offset of `CD_TRIM` (closing R274). -/
def CD_TRIM (i : Nat) : Nat := 0xF74 + 32 * i
/-- Offset of `CD_COUNT` (closing R274). -/
def CD_COUNT (i : Nat) : Nat := 0xF78 + 32 * i
/-- Offset of `AUX_EN` (auxiliary R289). -/
def AUX_EN : Nat := 0x670
/-- Offset of `AUX_STATUS` (auxiliary R289). -/
def AUX_STATUS : Nat := 0x678
/-- Offset of `AUX_FEED` (auxiliary R289). -/
def AUX_FEED : Nat := 0x67C
/-- Offset of `AUX_COLL` (auxiliary R289). -/
def AUX_COLL : Nat := 0x680
/-- Offset of `AUX_CFG` (auxiliary R289). -/
def AUX_CFG (i : Nat) : Nat := 0x690 + 16 * i
/-- Offset of `AUX_OPEN` (auxiliary R289). -/
def AUX_OPEN (i : Nat) : Nat := 0x694 + 16 * i
/-- Offset of `AUX_STAT` (auxiliary R289). -/
def AUX_STAT (i : Nat) : Nat := 0x698 + 16 * i
/-- Offset of `AUX_COUNT` (auxiliary R289). -/
def AUX_COUNT (i : Nat) : Nat := 0x69C + 16 * i
/-- Offset of `SEQ_QUOTA` (scheduling R153 to R155). -/
def SEQ_QUOTA (i : Nat) : Nat := 0x800 + 4 * i
/-- Offset of `ACQ_REF` (acquisition R339). -/
def ACQ_REF : Nat := 0x1400
/-- Offset of `ACQ_RUN` (acquisition R339). -/
def ACQ_RUN : Nat := 0x1404
/-- Offset of `ACQ_OVF` (acquisition R339). -/
def ACQ_OVF : Nat := 0x1408
/-- Offset of `ACQ_COLL` (acquisition R339). -/
def ACQ_COLL : Nat := 0x140C
/-- Offset of `ACQ_URG` (acquisition R339). -/
def ACQ_URG (i : Nat) : Nat := 0x1410 + 4 * i
/-- Offset of `MON_THR` (acquisition R339). -/
def MON_THR (i : Nat) : Nat := 0x1600 + 16 * i
/-- Offset of `MON_CTL` (acquisition R339). -/
def MON_CTL (i : Nat) : Nat := 0x1608 + 16 * i
/-- Offset of `MON_STAT` (acquisition R339). -/
def MON_STAT (i : Nat) : Nat := 0x160C + 16 * i
/-- Offset of `MON_COLL` (acquisition R339). -/
def MON_COLL : Nat := 0x1700
/-- Offset of `ACQ_WP` (acquisition R339). -/
def ACQ_WP (i : Nat) : Nat := 0x1800 + 16 * i
/-- Offset of `ACQ_RP` (acquisition R339). -/
def ACQ_RP (i : Nat) : Nat := 0x1804 + 16 * i
/-- Offset of `ACQ_CNT` (acquisition R339). -/
def ACQ_CNT (i : Nat) : Nat := 0x1808 + 16 * i
/-- Offset of `ACQ_LMAX` (acquisition R339). -/
def ACQ_LMAX (i : Nat) : Nat := 0x180C + 16 * i
/-- Offset of `TMR_CYCLE_LO` (timers R367). -/
def TMR_CYCLE_LO : Nat := 0x2000
/-- Offset of `TMR_CYCLE_HI` (timers R367). -/
def TMR_CYCLE_HI : Nat := 0x2004
/-- Offset of `TMR_START` (timers R367). -/
def TMR_START : Nat := 0x2008
/-- Offset of `TMR_STOP` (timers R367). -/
def TMR_STOP : Nat := 0x200C
/-- Offset of `TMR_STATUS` (timers R367). -/
def TMR_STATUS : Nat := 0x2010
/-- Offset of `TMR_PIN` (timers R367). -/
def TMR_PIN : Nat := 0x2014
/-- Offset of `TMR_CFG` (timers R367). -/
def TMR_CFG (i : Nat) : Nat := 0x2040 + 32 * i
/-- Offset of `TMR_CLK` (timers R367). -/
def TMR_CLK (i : Nat) : Nat := 0x2044 + 32 * i
/-- Offset of `TMR_COUNT` (timers R367). -/
def TMR_COUNT (i : Nat) : Nat := 0x2048 + 32 * i
/-- Offset of `TMR_CMP` (timers R367). -/
def TMR_CMP (i : Nat) : Nat := 0x204C + 32 * i
/-- Offset of `TMR_INTERVAL` (timers R367). -/
def TMR_INTERVAL (i : Nat) : Nat := 0x2050 + 32 * i
/-- Offset of `TMR_CAP` (timers R367). -/
def TMR_CAP (i : Nat) : Nat := 0x2054 + 32 * i
/-- Offset of `TMR_STAT` (timers R367). -/
def TMR_STAT (i : Nat) : Nat := 0x2058 + 32 * i
/-- Offset of `PE_CTRL` (timers R367). -/
def PE_CTRL (i : Nat) : Nat := 0x2800 + 128 * i
/-- Offset of `PE_CFG` (timers R367). -/
def PE_CFG (i : Nat) : Nat := 0x2804 + 128 * i
/-- Offset of `PE_DIV` (timers R367). -/
def PE_DIV (i : Nat) : Nat := 0x2808 + 128 * i
/-- Offset of `PE_CMP` (timers R367). -/
def PE_CMP (i : Nat) : Nat := 0x280C + 128 * i
/-- Offset of `PE_TX` (timers R367). -/
def PE_TX (i : Nat) : Nat := 0x2810 + 128 * i
/-- Offset of `PE_RX` (timers R367). -/
def PE_RX (i : Nat) : Nat := 0x2814 + 128 * i
/-- Offset of `PE_STAT` (timers R367). -/
def PE_STAT (i : Nat) : Nat := 0x2818 + 128 * i
/-- Offset of `PE_CNT` (timers R367). -/
def PE_CNT (i : Nat) : Nat := 0x281C + 128 * i
/-- Offset of `PE_SR` (timers R367). -/
def PE_SR (i : Nat) : Nat := 0x2820 + 128 * i
/-- Offset of `PE_STALLS` (timers R367). -/
def PE_STALLS (i : Nat) : Nat := 0x2824 + 128 * i
/-- Offset of `PE_COLL` (timers R367). -/
def PE_COLL : Nat := 0x2C00
/-- Offset of `POS_COLL` (timers R367). -/
def POS_COLL : Nat := 0x2C04
/-- Offset of `POS_CFG` (timers R367). -/
def POS_CFG (i : Nat) : Nat := 0x2C40 + 64 * i
/-- Offset of `POS_PROTO` (timers R367). -/
def POS_PROTO (i : Nat) : Nat := 0x2C44 + 64 * i
/-- Offset of `POS_COUNT` (timers R367). -/
def POS_COUNT (i : Nat) : Nat := 0x2C48 + 64 * i
/-- Offset of `POS_RAW` (timers R367). -/
def POS_RAW (i : Nat) : Nat := 0x2C4C + 64 * i
/-- Offset of `POS_IDX` (timers R367). -/
def POS_IDX (i : Nat) : Nat := 0x2C50 + 64 * i
/-- Offset of `POS_IDX_TIME` (timers R367). -/
def POS_IDX_TIME (i : Nat) : Nat := 0x2C54 + 64 * i
/-- Offset of `POS_CMP` (timers R367). -/
def POS_CMP (i : Nat) : Nat := 0x2C58 + 64 * i
/-- Offset of `POS_STEP` (timers R367). -/
def POS_STEP (i : Nat) : Nat := 0x2C5C + 64 * i
/-- Offset of `POS_CMP_TIME` (timers R367). -/
def POS_CMP_TIME (i : Nat) : Nat := 0x2C60 + 64 * i
/-- Offset of `POS_STAT` (timers R367). -/
def POS_STAT (i : Nat) : Nat := 0x2C64 + 64 * i
/-- Offset of `POS_CNT` (timers R367). -/
def POS_CNT (i : Nat) : Nat := 0x2C68 + 64 * i
/-- Offset of `HL_CLIENT` (host link, Tables 13-6 and 13-7). -/
def HL_CLIENT (i : Nat) : Nat := 0x3000 + 4 * i
/-- Offset of `HL_OWN` (host link, Tables 13-6 and 13-7). -/
def HL_OWN (i : Nat) : Nat := 0x3400 + 4 * i
/-- Offset of `HL_STATUS` (host link, Tables 13-6 and 13-7). -/
def HL_STATUS : Nat := 0x34D0
/-- Offset of `HL_LOAD` (host link, Tables 13-6 and 13-7). -/
def HL_LOAD : Nat := 0x34D4
/-- Offset of `HL_SHED_CFG` (host link, Tables 13-6 and 13-7). -/
def HL_SHED_CFG : Nat := 0x34D8
/-- Offset of `CAN_CTRL` (host link, Tables 13-6 and 13-7). -/
def CAN_CTRL (i : Nat) : Nat := 0x3500 + 32 * i
/-- Offset of `CAN_NBT` (host link, Tables 13-6 and 13-7). -/
def CAN_NBT (i : Nat) : Nat := 0x3504 + 32 * i
/-- Offset of `CAN_DBT` (host link, Tables 13-6 and 13-7). -/
def CAN_DBT (i : Nat) : Nat := 0x3508 + 32 * i
/-- Offset of `CAN_TDC` (host link, Tables 13-6 and 13-7). -/
def CAN_TDC (i : Nat) : Nat := 0x350C + 32 * i
/-- Offset of `CAN_TP` (host link, Tables 13-6 and 13-7). -/
def CAN_TP (i : Nat) : Nat := 0x3510 + 32 * i
/-- Offset of `CAN_STAT` (host link, Tables 13-6 and 13-7). -/
def CAN_STAT (i : Nat) : Nat := 0x3514 + 32 * i
/-- Offset of `CAN_BIND` (host link, Tables 13-6 and 13-7). -/
def CAN_BIND (i : Nat) : Nat := 0x3600 + 8 * i
/-- Offset of `CAN_BINDR` (host link, Tables 13-6 and 13-7). -/
def CAN_BINDR (i : Nat) : Nat := 0x3604 + 8 * i
/-- Offset of `PE_PROG` (timers R367). -/
def PE_PROG (i : Nat) : Nat := 0x3800 + 4 * i
/-- Offset of `DMA_GRANT` (DMA, Tables 14-6 and 14-9). -/
def DMA_GRANT (i : Nat) : Nat := 0x4000 + 4 * i
/-- Offset of `DMA_GSTAT` (DMA, Tables 14-6 and 14-9). -/
def DMA_GSTAT : Nat := 0x4040
/-- Offset of `PWR_CTRL` (power, Table 16-8). -/
def PWR_CTRL : Nat := 0x5000
/-- Offset of `PWR_STATUS` (power, Table 16-8). -/
def PWR_STATUS : Nat := 0x5004
/-- Offset of `PWR_BASE` (power, Table 16-8). -/
def PWR_BASE : Nat := 0x5008
/-- Offset of `PWR_ON` (power, Table 16-8). -/
def PWR_ON : Nat := 0x500C
/-- Offset of `PWR_HELD` (power, Table 16-8). -/
def PWR_HELD : Nat := 0x5010
/-- Offset of `PWR_WAKE_CFG` (power, Table 16-8). -/
def PWR_WAKE_CFG : Nat := 0x5014
/-- Offset of `PWR_ISL` (power, Table 16-8). -/
def PWR_ISL : Nat := 0x5018
/-- Offset of `PWR_COLL` (power, Table 16-8). -/
def PWR_COLL : Nat := 0x501C
/-- Offset of `RTC_TIME` (power, Table 16-8). -/
def RTC_TIME : Nat := 0x5100
/-- Offset of `RTC_DATE` (power, Table 16-8). -/
def RTC_DATE : Nat := 0x5104
/-- Offset of `RTC_SUB` (power, Table 16-8). -/
def RTC_SUB : Nat := 0x5108
/-- Offset of `RTC_STATUS` (power, Table 16-8). -/
def RTC_STATUS : Nat := 0x510C
/-- Offset of `FB_STATUS` (power, Table 16-8). -/
def FB_STATUS : Nat := 0x5200
/-- Offset of `FB_NEWEST` (power, Table 16-8). -/
def FB_NEWEST : Nat := 0x5204
/-- Offset of `FB_LOST` (power, Table 16-8). -/
def FB_LOST : Nat := 0x5208
/-- Offset of `FLT_LAST` (faults, Table 17-11). -/
def FLT_LAST : Nat := 0x5300
/-- Offset of `FLT_LAST_SEQ` (faults, Table 17-11). -/
def FLT_LAST_SEQ : Nat := 0x5304
/-- Offset of `FLT_COUNT` (faults, Table 17-11). -/
def FLT_COUNT : Nat := 0x5308
/-- Offset of `FLT_COLL` (faults, Table 17-11). -/
def FLT_COLL : Nat := 0x530C
/-- Offset of `FLT_STATUS` (faults, Table 17-11). -/
def FLT_STATUS : Nat := 0x5310
/-- Offset of `MOD_STATUS` (module, Table 18-6). -/
def MOD_STATUS : Nat := 0x5400
/-- Offset of `CLI_SEQ_USE` (scheduling R153 to R155). -/
def CLI_SEQ_USE (n : Nat) : Nat := clientBase n + 0x48
/-- Offset of `CLI_BANK` (scheduling R153 to R155). -/
def CLI_BANK (n : Nat) : Nat := clientBase n + 0x4C
/-- Offset of `CLI_SWITCH_AHEAD` (scheduling R153 to R155). -/
def CLI_SWITCH_AHEAD (n : Nat) : Nat := clientBase n + 0x50
/-- Offset of `CLI_SWITCH_ASTERN` (scheduling R153 to R155). -/
def CLI_SWITCH_ASTERN (n : Nat) : Nat := clientBase n + 0x54
/-- Offset of `CLI_PWR_VOTE` (power, Table 16-8). -/
def CLI_PWR_VOTE (n : Nat) : Nat := clientBase n + 0x74
/-- Offset of `CLI_REG_STATUS` (registers R533). -/
def CLI_REG_STATUS (n : Nat) : Nat := clientBase n + 0x7C
/-- Offset of `CLI_PW_LAST` (registers R533). -/
def CLI_PW_LAST (n : Nat) : Nat := clientBase n + 0x80
/-- Offset of `CLI_REG_COLL` (registers R533). -/
def CLI_REG_COLL (n : Nat) : Nat := clientBase n + 0x84
/-- Offset of `CLI_REQ_BASE_LO` (host link, Tables 13-6 and 13-7). -/
def CLI_REQ_BASE_LO (n : Nat) : Nat := clientBase n + 0x100
/-- Offset of `CLI_REQ_BASE_HI` (host link, Tables 13-6 and 13-7). -/
def CLI_REQ_BASE_HI (n : Nat) : Nat := clientBase n + 0x104
/-- Offset of `CLI_RSP_BASE_LO` (host link, Tables 13-6 and 13-7). -/
def CLI_RSP_BASE_LO (n : Nat) : Nat := clientBase n + 0x108
/-- Offset of `CLI_RSP_BASE_HI` (host link, Tables 13-6 and 13-7). -/
def CLI_RSP_BASE_HI (n : Nat) : Nat := clientBase n + 0x10C
/-- Offset of `CLI_FLT_BASE_LO` (host link, Tables 13-6 and 13-7). -/
def CLI_FLT_BASE_LO (n : Nat) : Nat := clientBase n + 0x110
/-- Offset of `CLI_FLT_BASE_HI` (host link, Tables 13-6 and 13-7). -/
def CLI_FLT_BASE_HI (n : Nat) : Nat := clientBase n + 0x114
/-- Offset of `CLI_SHADOW_LO` (host link, Tables 13-6 and 13-7). -/
def CLI_SHADOW_LO (n : Nat) : Nat := clientBase n + 0x118
/-- Offset of `CLI_SHADOW_HI` (host link, Tables 13-6 and 13-7). -/
def CLI_SHADOW_HI (n : Nat) : Nat := clientBase n + 0x11C
/-- Offset of `CLI_RING_CFG` (host link, Tables 13-6 and 13-7). -/
def CLI_RING_CFG (n : Nat) : Nat := clientBase n + 0x120
/-- Offset of `CLI_REQ_TAIL` (host link, Tables 13-6 and 13-7). -/
def CLI_REQ_TAIL (n : Nat) : Nat := clientBase n + 0x124
/-- Offset of `CLI_REQ_HEAD` (host link, Tables 13-6 and 13-7). -/
def CLI_REQ_HEAD (n : Nat) : Nat := clientBase n + 0x128
/-- Offset of `CLI_REQ_RESUME` (host link, Tables 13-6 and 13-7). -/
def CLI_REQ_RESUME (n : Nat) : Nat := clientBase n + 0x12C
/-- Offset of `CLI_RSP_TAIL` (host link, Tables 13-6 and 13-7). -/
def CLI_RSP_TAIL (n : Nat) : Nat := clientBase n + 0x130
/-- Offset of `CLI_RSP_HEAD` (host link, Tables 13-6 and 13-7). -/
def CLI_RSP_HEAD (n : Nat) : Nat := clientBase n + 0x134
/-- Offset of `CLI_FLT_TAIL` (host link, Tables 13-6 and 13-7). -/
def CLI_FLT_TAIL (n : Nat) : Nat := clientBase n + 0x138
/-- Offset of `CLI_FLT_HEAD` (host link, Tables 13-6 and 13-7). -/
def CLI_FLT_HEAD (n : Nat) : Nat := clientBase n + 0x13C
/-- Offset of `CLI_HL_STATUS` (host link, Tables 13-6 and 13-7). -/
def CLI_HL_STATUS (n : Nat) : Nat := clientBase n + 0x140
/-- Offset of `CLI_HL_COUNT` (host link, Tables 13-6 and 13-7). -/
def CLI_HL_COUNT (n : Nat) : Nat := clientBase n + 0x144
/-- Offset of `CLI_KEEPALIVE` (host link, Tables 13-6 and 13-7). -/
def CLI_KEEPALIVE (n : Nat) : Nat := clientBase n + 0x148
/-- Offset of `CLI_HL_COLL` (host link, Tables 13-6 and 13-7). -/
def CLI_HL_COLL (n : Nat) : Nat := clientBase n + 0x14C
/-- Offset of `CLI_MSIX_COAL` (DMA, Tables 14-6 and 14-9). -/
def CLI_MSIX_COAL (n : Nat) (i : Nat) : Nat := clientBase n + 0x180 + 4 * i
/-- Offset of `CLI_MSIX_LO` (DMA, Tables 14-6 and 14-9). -/
def CLI_MSIX_LO (n : Nat) (i : Nat) : Nat := clientBase n + 0x3000 + 16 * i
/-- Offset of `CLI_MSIX_HI` (DMA, Tables 14-6 and 14-9). -/
def CLI_MSIX_HI (n : Nat) (i : Nat) : Nat := clientBase n + 0x3004 + 16 * i
/-- Offset of `CLI_MSIX_DATA` (DMA, Tables 14-6 and 14-9). -/
def CLI_MSIX_DATA (n : Nat) (i : Nat) : Nat := clientBase n + 0x3008 + 16 * i
/-- Offset of `CLI_MSIX_CTRL` (DMA, Tables 14-6 and 14-9). -/
def CLI_MSIX_CTRL (n : Nat) (i : Nat) : Nat := clientBase n + 0x300C + 16 * i
/-- Offset of `CLI_MSIX_PBA` (DMA, Tables 14-6 and 14-9). -/
def CLI_MSIX_PBA (n : Nat) : Nat := clientBase n + 0x3080
/-- Offset of `CLI_MSIX_PBAH` (DMA, Tables 14-6 and 14-9). -/
def CLI_MSIX_PBAH (n : Nat) : Nat := clientBase n + 0x3084
/-- Offset of `DMA_SRC` (DMA, Tables 14-6 and 14-9). -/
def DMA_SRC (i : Nat) : Nat := dmaBase + 0x0 + 64 * i
/-- Offset of `DMA_DST_LO` (DMA, Tables 14-6 and 14-9). -/
def DMA_DST_LO (i : Nat) : Nat := dmaBase + 0x4 + 64 * i
/-- Offset of `DMA_DST_HI` (DMA, Tables 14-6 and 14-9). -/
def DMA_DST_HI (i : Nat) : Nat := dmaBase + 0x8 + 64 * i
/-- Offset of `DMA_LEN` (DMA, Tables 14-6 and 14-9). -/
def DMA_LEN (i : Nat) : Nat := dmaBase + 0xC + 64 * i
/-- Offset of `DMA_SHUF` (DMA, Tables 14-6 and 14-9). -/
def DMA_SHUF (i : Nat) : Nat := dmaBase + 0x10 + 64 * i
/-- Offset of `DMA_STAT_LO` (DMA, Tables 14-6 and 14-9). -/
def DMA_STAT_LO (i : Nat) : Nat := dmaBase + 0x14 + 64 * i
/-- Offset of `DMA_STAT_HI` (DMA, Tables 14-6 and 14-9). -/
def DMA_STAT_HI (i : Nat) : Nat := dmaBase + 0x18 + 64 * i
/-- Offset of `DMA_CTRL` (DMA, Tables 14-6 and 14-9). -/
def DMA_CTRL (i : Nat) : Nat := dmaBase + 0x1C + 64 * i
/-- Offset of `DMA_STATUS` (DMA, Tables 14-6 and 14-9). -/
def DMA_STATUS (i : Nat) : Nat := dmaBase + 0x20 + 64 * i
/-- Offset of `DMA_RESIDUE` (DMA, Tables 14-6 and 14-9). -/
def DMA_RESIDUE (i : Nat) : Nat := dmaBase + 0x24 + 64 * i
/-- Offset of `DMA_RUNS` (DMA, Tables 14-6 and 14-9). -/
def DMA_RUNS (i : Nat) : Nat := dmaBase + 0x28 + 64 * i
/-- Offset of `INTC_CTRL` (DMA, Tables 14-6 and 14-9). -/
def INTC_CTRL : Nat := intcBase + 0x0
/-- Offset of `INTC_HOLD` (DMA, Tables 14-6 and 14-9). -/
def INTC_HOLD : Nat := intcBase + 0x4
/-- Offset of `INTC_HOLD_SET` (DMA, Tables 14-6 and 14-9). -/
def INTC_HOLD_SET : Nat := intcBase + 0x8
/-- Offset of `INTC_HOLD_CLR` (DMA, Tables 14-6 and 14-9). -/
def INTC_HOLD_CLR : Nat := intcBase + 0xC
/-- Offset of `INTC_IGNORED` (DMA, Tables 14-6 and 14-9). -/
def INTC_IGNORED : Nat := intcBase + 0x10
/-- Offset of `INTC_COLL` (DMA, Tables 14-6 and 14-9). -/
def INTC_COLL : Nat := intcBase + 0x14
/-- Offset of `INTC_CLAIM` (DMA, Tables 14-6 and 14-9). -/
def INTC_CLAIM (i : Nat) : Nat := intcBase + 0x20 + 4 * i
/-- Offset of `INTC_COMPLETE` (DMA, Tables 14-6 and 14-9). -/
def INTC_COMPLETE (i : Nat) : Nat := intcBase + 0x30 + 4 * i
/-- Offset of `INTC_CUR` (DMA, Tables 14-6 and 14-9). -/
def INTC_CUR (i : Nat) : Nat := intcBase + 0x40 + 4 * i
/-- Offset of `INTC_THRESH` (DMA, Tables 14-6 and 14-9). -/
def INTC_THRESH (i : Nat) : Nat := intcBase + 0x50 + 4 * i
/-- Offset of `INTC_EN` (DMA, Tables 14-6 and 14-9). -/
def INTC_EN (i : Nat) : Nat := intcBase + 0x80 + 4 * i
/-- Offset of `INTC_EN_SET` (DMA, Tables 14-6 and 14-9). -/
def INTC_EN_SET : Nat := intcBase + 0xC0
/-- Offset of `INTC_EN_CLR` (DMA, Tables 14-6 and 14-9). -/
def INTC_EN_CLR : Nat := intcBase + 0xC4
/-- Offset of `INTC_PEND` (DMA, Tables 14-6 and 14-9). -/
def INTC_PEND (i : Nat) : Nat := intcBase + 0x100 + 4 * i
/-- Offset of `INTC_ACT` (DMA, Tables 14-6 and 14-9). -/
def INTC_ACT (i : Nat) : Nat := intcBase + 0x140 + 4 * i
/-- Offset of `INTC_SRC` (DMA, Tables 14-6 and 14-9). -/
def INTC_SRC (i : Nat) : Nat := intcBase + 0x400 + 4 * i
/-- Offset of `INTC_GRP` (DMA, Tables 14-6 and 14-9). -/
def INTC_GRP (i : Nat) : Nat := intcBase + 0xC00 + 4 * i
/-- `GLB_IDENT.PART` [31:16] RO. -/
def GLB_IDENT_PART : Fld :=
  { off := GLB_IDENT, lo := 16, w := 16, acc := .ro, reset := 0x3628, kind := .hw }

/-- `GLB_IDENT.VARIANT` [15:8] RO. -/
def GLB_IDENT_VARIANT : Fld :=
  { off := GLB_IDENT, lo := 8, w := 8, acc := .ro, reset := 0x41, kind := .hw }

/-- `GLB_IDENT.STEPPING` [7:0] RO. -/
def GLB_IDENT_STEPPING : Fld :=
  { off := GLB_IDENT, lo := 0, w := 8, acc := .ro, reset := 0x42, kind := .hw }

/-- `GLB_FW_VERSION.MAJOR` [31:24] RO. -/
def GLB_FW_VERSION_MAJOR : Fld :=
  { off := GLB_FW_VERSION, lo := 24, w := 8, acc := .ro, reset := 0, kind := .hw }

/-- `GLB_FW_VERSION.MINOR` [23:16] RO. -/
def GLB_FW_VERSION_MINOR : Fld :=
  { off := GLB_FW_VERSION, lo := 16, w := 8, acc := .ro, reset := 0, kind := .hw }

/-- `GLB_FW_VERSION.PATCH` [15:8] RO. -/
def GLB_FW_VERSION_PATCH : Fld :=
  { off := GLB_FW_VERSION, lo := 8, w := 8, acc := .ro, reset := 0, kind := .hw }

/-- `GLB_FW_VERSION.IMAGE` [0:0] RO. -/
def GLB_FW_VERSION_IMAGE : Fld :=
  { off := GLB_FW_VERSION, lo := 0, w := 1, acc := .ro, reset := 0, kind := .hw }

/-- `GLB_BOOT.FW_READY` [31:31] RO. -/
def GLB_BOOT_FW_READY : Fld :=
  { off := GLB_BOOT, lo := 31, w := 1, acc := .ro, reset := 0, kind := .hw }

/-- `GLB_BOOT.CRANK_READY` [30:30] RO. -/
def GLB_BOOT_CRANK_READY : Fld :=
  { off := GLB_BOOT, lo := 30, w := 1, acc := .ro, reset := 0, kind := .hw }

/-- `GLB_BOOT.SWAP_PEND` [29:29] RO. -/
def GLB_BOOT_SWAP_PEND : Fld :=
  { off := GLB_BOOT, lo := 29, w := 1, acc := .ro, reset := 0, kind := .hw }

/-- `GLB_BOOT.FALLBACK` [28:28] W1C. -/
def GLB_BOOT_FALLBACK : Fld :=
  { off := GLB_BOOT, lo := 28, w := 1, acc := .w1c, reset := 0, kind := .flag }

/-- `GLB_BOOT.STARTREC_OK` [27:27] RO. -/
def GLB_BOOT_STARTREC_OK : Fld :=
  { off := GLB_BOOT, lo := 27, w := 1, acc := .ro, reset := 0, kind := .hw }

/-- `GLB_BOOT.PREF_IMAGE` [26:26] RO. -/
def GLB_BOOT_PREF_IMAGE : Fld :=
  { off := GLB_BOOT, lo := 26, w := 1, acc := .ro, reset := 0, kind := .hw }

/-- `GLB_BOOT.B_VALID` [25:25] RO. -/
def GLB_BOOT_B_VALID : Fld :=
  { off := GLB_BOOT, lo := 25, w := 1, acc := .ro, reset := 0, kind := .hw }

/-- `GLB_BOOT.A_VALID` [24:24] RO. -/
def GLB_BOOT_A_VALID : Fld :=
  { off := GLB_BOOT, lo := 24, w := 1, acc := .ro, reset := 0, kind := .hw }

/-- `GLB_BOOT.RESET_CAUSE` [23:20] RO. -/
def GLB_BOOT_RESET_CAUSE : Fld :=
  { off := GLB_BOOT, lo := 20, w := 4, acc := .ro, reset := 1, kind := .hw }

/-- `GLB_BOOT.BOOT_MS` [15:0] RO. -/
def GLB_BOOT_BOOT_MS : Fld :=
  { off := GLB_BOOT, lo := 0, w := 16, acc := .ro, reset := 0, kind := .hw }

/-- `GLB_ROLLBACK.COUNTER` [21:16] RO. -/
def GLB_ROLLBACK_COUNTER : Fld :=
  { off := GLB_ROLLBACK, lo := 16, w := 6, acc := .ro, reset := 0, kind := .hw }

/-- `GLB_ROLLBACK.B_INDEX` [13:8] RO. -/
def GLB_ROLLBACK_B_INDEX : Fld :=
  { off := GLB_ROLLBACK, lo := 8, w := 6, acc := .ro, reset := 0, kind := .hw }

/-- `GLB_ROLLBACK.A_INDEX` [5:0] RO. -/
def GLB_ROLLBACK_A_INDEX : Fld :=
  { off := GLB_ROLLBACK, lo := 0, w := 6, acc := .ro, reset := 0, kind := .hw }

/-- `GLB_SERIAL_LO.SERIAL` [31:0] RO. -/
def GLB_SERIAL_LO_SERIAL : Fld :=
  { off := GLB_SERIAL_LO, lo := 0, w := 32, acc := .ro, reset := Config.serialLo, kind := .hw }

/-- `GLB_SERIAL_HI.SERIAL` [1:0] RO. -/
def GLB_SERIAL_HI_SERIAL : Fld :=
  { off := GLB_SERIAL_HI, lo := 0, w := 2, acc := .ro, reset := Config.serialHi, kind := .hw }

/-- `SEQ_PACE.OVR_FAULT` [31:31] W1C. -/
def SEQ_PACE_OVR_FAULT : Fld :=
  { off := SEQ_PACE, lo := 31, w := 1, acc := .w1c, reset := 0, kind := .flag }

/-- `SEQ_PACE.WINDOW_COUNT` [28:16] RO. -/
def SEQ_PACE_WINDOW_COUNT : Fld :=
  { off := SEQ_PACE, lo := 16, w := 13, acc := .ro, reset := 0, kind := .hw }

/-- `SEQ_PACE.OVERRUN` [15:0] RW. -/
def SEQ_PACE_OVERRUN : Fld :=
  { off := SEQ_PACE, lo := 0, w := 16, acc := .rw, reset := 0, kind := .counter, coll := some (32 * SEQ_PACE_COLL + 0, 8) }

/-- `SEQ_PACE_COLL.OVERRUN` [7:0] RC. -/
def SEQ_PACE_COLL_OVERRUN : Fld :=
  { off := SEQ_PACE_COLL, lo := 0, w := 8, acc := .rc, reset := 0, kind := .rc }

/-- `SEQ_CFG.REVIEW_D` [19:16] RW. -/
def SEQ_CFG_REVIEW_D : Fld :=
  { off := SEQ_CFG, lo := 16, w := 4, acc := .rw, reset := 3 }

/-- `SEQ_CFG.DEF_LATE` [15:8] RW. -/
def SEQ_CFG_DEF_LATE : Fld :=
  { off := SEQ_CFG, lo := 8, w := 8, acc := .rw, reset := 2, fix := .below 1 1 }

/-- `SEQ_STATUS.CFG_REJ` [3:3] W1C. -/
def SEQ_STATUS_CFG_REJ : Fld :=
  { off := SEQ_STATUS, lo := 3, w := 1, acc := .w1c, reset := 0, kind := .flag }

/-- `SEQ_STATUS.NEAR_FULL` [2:2] W1C. -/
def SEQ_STATUS_NEAR_FULL : Fld :=
  { off := SEQ_STATUS, lo := 2, w := 1, acc := .w1c, reset := 0, kind := .flag }

/-- `SEQ_STATUS.BACKLOG` [1:1] W1C. -/
def SEQ_STATUS_BACKLOG : Fld :=
  { off := SEQ_STATUS, lo := 1, w := 1, acc := .w1c, reset := 0, kind := .flag }

/-- `SEQ_STATUS.ACTIVE` [0:0] RO. -/
def SEQ_STATUS_ACTIVE : Fld :=
  { off := SEQ_STATUS, lo := 0, w := 1, acc := .ro, reset := 0, kind := .hw }

/-- `SEQ_CYCLE.CYCLE` [31:0] RO. -/
def SEQ_CYCLE_CYCLE : Fld :=
  { off := SEQ_CYCLE, lo := 0, w := 32, acc := .ro, reset := 0, kind := .hw }

/-- `SEQ_OCC_ANGLE.DEEPEST` [31:16] RO. -/
def SEQ_OCC_ANGLE_DEEPEST : Fld :=
  { off := SEQ_OCC_ANGLE, lo := 16, w := 16, acc := .ro, reset := 0, kind := .hw }

/-- `SEQ_OCC_ANGLE.COUNT` [15:0] RO. -/
def SEQ_OCC_ANGLE_COUNT : Fld :=
  { off := SEQ_OCC_ANGLE, lo := 0, w := 16, acc := .ro, reset := 0, kind := .hw }

/-- `SEQ_OCC_FINE.DEEPEST` [31:16] RO. -/
def SEQ_OCC_FINE_DEEPEST : Fld :=
  { off := SEQ_OCC_FINE, lo := 16, w := 16, acc := .ro, reset := 0, kind := .hw }

/-- `SEQ_OCC_FINE.COUNT` [15:0] RO. -/
def SEQ_OCC_FINE_COUNT : Fld :=
  { off := SEQ_OCC_FINE, lo := 0, w := 16, acc := .ro, reset := 0, kind := .hw }

/-- `SEQ_OCC_COARSE.DEEPEST` [31:16] RO. -/
def SEQ_OCC_COARSE_DEEPEST : Fld :=
  { off := SEQ_OCC_COARSE, lo := 16, w := 16, acc := .ro, reset := 0, kind := .hw }

/-- `SEQ_OCC_COARSE.COUNT` [15:0] RO. -/
def SEQ_OCC_COARSE_COUNT : Fld :=
  { off := SEQ_OCC_COARSE, lo := 0, w := 16, acc := .ro, reset := 0, kind := .hw }

/-- `SEQ_DEEP_IDX0.FINE` [28:16] RO. -/
def SEQ_DEEP_IDX0_FINE : Fld :=
  { off := SEQ_DEEP_IDX0, lo := 16, w := 13, acc := .ro, reset := 0, kind := .hw }

/-- `SEQ_DEEP_IDX0.ANGLE` [13:0] RO. -/
def SEQ_DEEP_IDX0_ANGLE : Fld :=
  { off := SEQ_DEEP_IDX0, lo := 0, w := 14, acc := .ro, reset := 0, kind := .hw }

/-- `SEQ_DEEP_IDX1.COARSE` [12:0] RO. -/
def SEQ_DEEP_IDX1_COARSE : Fld :=
  { off := SEQ_DEEP_IDX1, lo := 0, w := 13, acc := .ro, reset := 0, kind := .hw }

/-- `SEQ_NEAR.PAIR3` [31:24] RO. -/
def SEQ_NEAR_PAIR3 : Fld :=
  { off := SEQ_NEAR, lo := 24, w := 8, acc := .ro, reset := 0, kind := .hw }

/-- `SEQ_NEAR.PAIR2` [23:16] RO. -/
def SEQ_NEAR_PAIR2 : Fld :=
  { off := SEQ_NEAR, lo := 16, w := 8, acc := .ro, reset := 0, kind := .hw }

/-- `SEQ_NEAR.PAIR1` [15:8] RO. -/
def SEQ_NEAR_PAIR1 : Fld :=
  { off := SEQ_NEAR, lo := 8, w := 8, acc := .ro, reset := 0, kind := .hw }

/-- `SEQ_NEAR.PAIR0` [7:0] RO. -/
def SEQ_NEAR_PAIR0 : Fld :=
  { off := SEQ_NEAR, lo := 0, w := 8, acc := .ro, reset := 0, kind := .hw }

/-- `SEQ_EVT_CNT0.LATE` [31:16] RW. -/
def SEQ_EVT_CNT0_LATE : Fld :=
  { off := SEQ_EVT_CNT0, lo := 16, w := 16, acc := .rw, reset := 0, kind := .counter, coll := some (32 * SEQ_COLL0 + 0, 8) }

/-- `SEQ_EVT_CNT0.DROPPED` [15:0] RW. -/
def SEQ_EVT_CNT0_DROPPED : Fld :=
  { off := SEQ_EVT_CNT0, lo := 0, w := 16, acc := .rw, reset := 0, kind := .counter, coll := some (32 * SEQ_COLL0 + 8, 8) }

/-- `SEQ_EVT_CNT1.DISPLACED` [31:16] RW. -/
def SEQ_EVT_CNT1_DISPLACED : Fld :=
  { off := SEQ_EVT_CNT1, lo := 16, w := 16, acc := .rw, reset := 0, kind := .counter, coll := some (32 * SEQ_COLL0 + 16, 8) }

/-- `SEQ_EVT_CNT1.SUPPRESSED` [15:0] RW. -/
def SEQ_EVT_CNT1_SUPPRESSED : Fld :=
  { off := SEQ_EVT_CNT1, lo := 0, w := 16, acc := .rw, reset := 0, kind := .counter, coll := some (32 * SEQ_COLL0 + 24, 8) }

/-- `SEQ_EVT_CNT2.CUT` [31:16] RW. -/
def SEQ_EVT_CNT2_CUT : Fld :=
  { off := SEQ_EVT_CNT2, lo := 16, w := 16, acc := .rw, reset := 0, kind := .counter, coll := some (32 * SEQ_COLL1 + 0, 8) }

/-- `SEQ_EVT_CNT2.BACKLOG` [15:0] RW. -/
def SEQ_EVT_CNT2_BACKLOG : Fld :=
  { off := SEQ_EVT_CNT2, lo := 0, w := 16, acc := .rw, reset := 0, kind := .counter, coll := some (32 * SEQ_COLL1 + 8, 8) }

/-- `SEQ_COLL0.LATE` [7:0] RC. -/
def SEQ_COLL0_LATE : Fld :=
  { off := SEQ_COLL0, lo := 0, w := 8, acc := .rc, reset := 0, kind := .rc }

/-- `SEQ_COLL0.DROPPED` [15:8] RC. -/
def SEQ_COLL0_DROPPED : Fld :=
  { off := SEQ_COLL0, lo := 8, w := 8, acc := .rc, reset := 0, kind := .rc }

/-- `SEQ_COLL0.DISPLACED` [23:16] RC. -/
def SEQ_COLL0_DISPLACED : Fld :=
  { off := SEQ_COLL0, lo := 16, w := 8, acc := .rc, reset := 0, kind := .rc }

/-- `SEQ_COLL0.SUPPRESSED` [31:24] RC. -/
def SEQ_COLL0_SUPPRESSED : Fld :=
  { off := SEQ_COLL0, lo := 24, w := 8, acc := .rc, reset := 0, kind := .rc }

/-- `SEQ_COLL1.CUT` [7:0] RC. -/
def SEQ_COLL1_CUT : Fld :=
  { off := SEQ_COLL1, lo := 0, w := 8, acc := .rc, reset := 0, kind := .rc }

/-- `SEQ_COLL1.BACKLOG` [15:8] RC. -/
def SEQ_COLL1_BACKLOG : Fld :=
  { off := SEQ_COLL1, lo := 8, w := 8, acc := .rc, reset := 0, kind := .rc }

/-- `SEQ_COLL1.CORRECTED` [23:16] RC. -/
def SEQ_COLL1_CORRECTED : Fld :=
  { off := SEQ_COLL1, lo := 16, w := 8, acc := .rc, reset := 0, kind := .rc }

/-- `SEQ_COLL1.UNCORRECTED` [31:24] RC. -/
def SEQ_COLL1_UNCORRECTED : Fld :=
  { off := SEQ_COLL1, lo := 24, w := 8, acc := .rc, reset := 0, kind := .rc }

/-- `SEQ_MAX_LATE.MAX` [15:0] RC. -/
def SEQ_MAX_LATE_MAX : Fld :=
  { off := SEQ_MAX_LATE, lo := 0, w := 16, acc := .rc, reset := 0, kind := .rc }

/-- `SEQ_ECC.CORRECTED` [31:16] RW. -/
def SEQ_ECC_CORRECTED : Fld :=
  { off := SEQ_ECC, lo := 16, w := 16, acc := .rw, reset := 0, kind := .counter, coll := some (32 * SEQ_COLL1 + 16, 8) }

/-- `SEQ_ECC.UNCORRECTED` [15:0] RW. -/
def SEQ_ECC_UNCORRECTED : Fld :=
  { off := SEQ_ECC, lo := 0, w := 16, acc := .rw, reset := 0, kind := .counter, coll := some (32 * SEQ_COLL1 + 24, 8) }

/-- `PLS_CTRL.RUNNING` [31:16] RO. -/
def PLS_CTRL_RUNNING (i : Nat) : Fld :=
  { off := PLS_CTRL i, lo := 16, w := 16, acc := .ro, reset := 0, kind := .hw }

/-- `PLS_CTRL.OWNER` [15:8] RW. -/
def PLS_CTRL_OWNER (i : Nat) : Fld :=
  { off := PLS_CTRL i, lo := 8, w := 8, acc := .rw, reset := 0 }

/-- `PLS_CTRL.LOADED` [2:2] RO. -/
def PLS_CTRL_LOADED (i : Nat) : Fld :=
  { off := PLS_CTRL i, lo := 2, w := 1, acc := .ro, reset := 0, kind := .hw }

/-- `PLS_CTRL.SWITCH_PEND` [1:1] RO. -/
def PLS_CTRL_SWITCH_PEND (i : Nat) : Fld :=
  { off := PLS_CTRL i, lo := 1, w := 1, acc := .ro, reset := 0, kind := .hw }

/-- `PLS_CTRL.BANK` [0:0] RO. -/
def PLS_CTRL_BANK (i : Nat) : Fld :=
  { off := PLS_CTRL i, lo := 0, w := 1, acc := .ro, reset := 0, kind := .hw }

/-- `PLS_STATUS.FAULTED` [31:16] W1C. -/
def PLS_STATUS_FAULTED (i : Nat) : Fld :=
  { off := PLS_STATUS i, lo := 16, w := 16, acc := .w1c, reset := 0, kind := .flag }

/-- `PLS_STATUS.MAX_LAG` [15:8] RC. -/
def PLS_STATUS_MAX_LAG (i : Nat) : Fld :=
  { off := PLS_STATUS i, lo := 8, w := 8, acc := .rc, reset := 0, kind := .rc }

/-- `PLS_STATUS.CFG_REJ` [1:1] W1C. -/
def PLS_STATUS_CFG_REJ (i : Nat) : Fld :=
  { off := PLS_STATUS i, lo := 1, w := 1, acc := .w1c, reset := 0, kind := .flag }

/-- `PLS_STATUS.CUT_STEP` [0:0] RO. -/
def PLS_STATUS_CUT_STEP (i : Nat) : Fld :=
  { off := PLS_STATUS i, lo := 0, w := 1, acc := .ro, reset := 0, kind := .hw }

/-- `PLS_COUNT.STK_REFUSED` [31:16] RW. -/
def PLS_COUNT_STK_REFUSED (i : Nat) : Fld :=
  { off := PLS_COUNT i, lo := 16, w := 16, acc := .rw, reset := 0, kind := .counter, coll := some (32 * (PLS_COLL i) + 8, 8) }

/-- `PLS_COUNT.FORCED_YIELD` [15:0] RW. -/
def PLS_COUNT_FORCED_YIELD (i : Nat) : Fld :=
  { off := PLS_COUNT i, lo := 0, w := 16, acc := .rw, reset := 0, kind := .counter, coll := some (32 * (PLS_COLL i) + 0, 8) }

/-- `PLS_COLL.STK_REFUSED` [15:8] RC. -/
def PLS_COLL_STK_REFUSED (i : Nat) : Fld :=
  { off := PLS_COLL i, lo := 8, w := 8, acc := .rc, reset := 0, kind := .rc }

/-- `PLS_COLL.FORCED_YIELD` [7:0] RC. -/
def PLS_COLL_FORCED_YIELD (i : Nat) : Fld :=
  { off := PLS_COLL i, lo := 0, w := 8, acc := .rc, reset := 0, kind := .rc }

/-- `PAIR_CFG.ENABLE` [31:31] RW. -/
def PAIR_CFG_ENABLE : Fld :=
  { off := PAIR_CFG, lo := 31, w := 1, acc := .rw, reset := 1 }

/-- `PAIR_CFG.RESIGN_BOOST` [30:30] RW. -/
def PAIR_CFG_RESIGN_BOOST : Fld :=
  { off := PAIR_CFG, lo := 30, w := 1, acc := .rw, reset := 0 }

/-- `PAIR_CFG.BM_ENABLE` [29:29] RW. -/
def PAIR_CFG_BM_ENABLE : Fld :=
  { off := PAIR_CFG, lo := 29, w := 1, acc := .rw, reset := 0 }

/-- `PAIR_CFG.TIE_VER_MAX` [25:24] RW. -/
def PAIR_CFG_TIE_VER_MAX : Fld :=
  { off := PAIR_CFG, lo := 24, w := 2, acc := .rw, reset := 3, fix := .below 1 1 }

/-- `PAIR_CFG.CHAIN_TOL` [23:16] RW. -/
def PAIR_CFG_CHAIN_TOL : Fld :=
  { off := PAIR_CFG, lo := 16, w := 8, acc := .rw, reset := 16, fix := .below 4 4 }

/-- `PAIR_STATUS.SLOT` [31:28] RO. -/
def PAIR_STATUS_SLOT : Fld :=
  { off := PAIR_STATUS, lo := 28, w := 4, acc := .ro, reset := Config.slotStrap, kind := .hw }

/-- `PAIR_STATUS.PARTNER_SLOT` [27:24] RO. -/
def PAIR_STATUS_PARTNER_SLOT : Fld :=
  { off := PAIR_STATUS, lo := 24, w := 4, acc := .ro, reset := 0, kind := .hw }

/-- `PAIR_STATUS.VERSION` [23:22] RO. -/
def PAIR_STATUS_VERSION : Fld :=
  { off := PAIR_STATUS, lo := 22, w := 2, acc := .ro, reset := 0, kind := .hw }

/-- `PAIR_STATUS.ROLE` [21:20] RO. -/
def PAIR_STATUS_ROLE : Fld :=
  { off := PAIR_STATUS, lo := 20, w := 2, acc := .ro, reset := 3, kind := .hw }

/-- `PAIR_STATUS.LAST_TRIGGER` [19:18] RO. -/
def PAIR_STATUS_LAST_TRIGGER : Fld :=
  { off := PAIR_STATUS, lo := 18, w := 2, acc := .ro, reset := 0, kind := .hw }

/-- `PAIR_STATUS.LINK_UP` [17:17] RO. -/
def PAIR_STATUS_LINK_UP : Fld :=
  { off := PAIR_STATUS, lo := 17, w := 1, acc := .ro, reset := 0, kind := .hw }

/-- `PAIR_STATUS.ELIGIBLE` [16:16] RO. -/
def PAIR_STATUS_ELIGIBLE : Fld :=
  { off := PAIR_STATUS, lo := 16, w := 1, acc := .ro, reset := 0, kind := .hw }

/-- `PAIR_STATUS.PARTNER_ELIGIBLE` [15:15] RO. -/
def PAIR_STATUS_PARTNER_ELIGIBLE : Fld :=
  { off := PAIR_STATUS, lo := 15, w := 1, acc := .ro, reset := 0, kind := .hw }

/-- `PAIR_STATUS.BM_HOLDER` [14:14] RO. -/
def PAIR_STATUS_BM_HOLDER : Fld :=
  { off := PAIR_STATUS, lo := 14, w := 1, acc := .ro, reset := 0, kind := .hw }

/-- `PAIR_STATUS.DIGEST_OK` [13:13] RO. -/
def PAIR_STATUS_DIGEST_OK : Fld :=
  { off := PAIR_STATUS, lo := 13, w := 1, acc := .ro, reset := 1, kind := .hw }

/-- `PAIR_STATUS.MAP_MIRRORED` [12:12] RO. -/
def PAIR_STATUS_MAP_MIRRORED : Fld :=
  { off := PAIR_STATUS, lo := 12, w := 1, acc := .ro, reset := 0, kind := .hw }

/-- `PAIR_STATUS.RESIGN_IN` [11:11] RO. -/
def PAIR_STATUS_RESIGN_IN : Fld :=
  { off := PAIR_STATUS, lo := 11, w := 1, acc := .ro, reset := 0, kind := .hw }

/-- `PAIR_STATUS.CFG_REJ` [3:3] W1C. -/
def PAIR_STATUS_CFG_REJ : Fld :=
  { off := PAIR_STATUS, lo := 3, w := 1, acc := .w1c, reset := 0, kind := .flag }

/-- `PAIR_STATUS.BM_MISMATCH` [2:2] W1C. -/
def PAIR_STATUS_BM_MISMATCH : Fld :=
  { off := PAIR_STATUS, lo := 2, w := 1, acc := .w1c, reset := 0, kind := .flag }

/-- `PAIR_STATUS.TAKEOVER` [1:1] W1C. -/
def PAIR_STATUS_TAKEOVER : Fld :=
  { off := PAIR_STATUS, lo := 1, w := 1, acc := .w1c, reset := 0, kind := .flag }

/-- `PAIR_STATUS.ROLE_CHG` [0:0] W1C. -/
def PAIR_STATUS_ROLE_CHG : Fld :=
  { off := PAIR_STATUS, lo := 0, w := 1, acc := .w1c, reset := 0, kind := .flag }

/-- `PAIR_COUNT0.TAKEOVERS` [31:16] RW. -/
def PAIR_COUNT0_TAKEOVERS : Fld :=
  { off := PAIR_COUNT0, lo := 16, w := 16, acc := .rw, reset := 0, kind := .counter, coll := some (32 * PAIR_COLL + 0, 8) }

/-- `PAIR_COUNT0.BAD_FRAMES` [15:0] RW. -/
def PAIR_COUNT0_BAD_FRAMES : Fld :=
  { off := PAIR_COUNT0, lo := 0, w := 16, acc := .rw, reset := 0, kind := .counter, coll := some (32 * PAIR_COLL + 8, 8) }

/-- `PAIR_COUNT1.BM_MISMATCH` [31:24] RW. -/
def PAIR_COUNT1_BM_MISMATCH : Fld :=
  { off := PAIR_COUNT1, lo := 24, w := 8, acc := .rw, reset := 0, kind := .counter, coll := some (32 * PAIR_COLL + 16, 8) }

/-- `PAIR_COUNT1.CHAIN_MISMATCH` [23:16] RW. -/
def PAIR_COUNT1_CHAIN_MISMATCH : Fld :=
  { off := PAIR_COUNT1, lo := 16, w := 8, acc := .rw, reset := 0, kind := .counter, coll := some (32 * PAIR_COLL + 24, 8) }

/-- `PAIR_COUNT1.ORPHANS` [15:8] RW. -/
def PAIR_COUNT1_ORPHANS : Fld :=
  { off := PAIR_COUNT1, lo := 8, w := 8, acc := .rw, reset := 0, kind := .counter }

/-- `PAIR_COUNT1.HOLD_ENTRIES` [7:0] RW. -/
def PAIR_COUNT1_HOLD_ENTRIES : Fld :=
  { off := PAIR_COUNT1, lo := 0, w := 8, acc := .rw, reset := 0, kind := .counter }

/-- `PAIR_COLL.TAKEOVERS` [7:0] RC. -/
def PAIR_COLL_TAKEOVERS : Fld :=
  { off := PAIR_COLL, lo := 0, w := 8, acc := .rc, reset := 0, kind := .rc }

/-- `PAIR_COLL.BAD_FRAMES` [15:8] RC. -/
def PAIR_COLL_BAD_FRAMES : Fld :=
  { off := PAIR_COLL, lo := 8, w := 8, acc := .rc, reset := 0, kind := .rc }

/-- `PAIR_COLL.BM_MISMATCH` [23:16] RC. -/
def PAIR_COLL_BM_MISMATCH : Fld :=
  { off := PAIR_COLL, lo := 16, w := 8, acc := .rc, reset := 0, kind := .rc }

/-- `PAIR_COLL.CHAIN_MISMATCH` [31:24] RC. -/
def PAIR_COLL_CHAIN_MISMATCH : Fld :=
  { off := PAIR_COLL, lo := 24, w := 8, acc := .rc, reset := 0, kind := .rc }

/-- `PAIR_DIFF.TIE_LAT` [31:16] RO. -/
def PAIR_DIFF_TIE_LAT : Fld :=
  { off := PAIR_DIFF, lo := 16, w := 16, acc := .ro, reset := 0, kind := .hw }

/-- `PAIR_DIFF.MAX_DIFF` [15:0] RC. -/
def PAIR_DIFF_MAX_DIFF : Fld :=
  { off := PAIR_DIFF, lo := 0, w := 16, acc := .rc, reset := 0, kind := .rc }

/-- `PAIR_TAKEOVER.AT` [31:0] RO. -/
def PAIR_TAKEOVER_AT : Fld :=
  { off := PAIR_TAKEOVER, lo := 0, w := 32, acc := .ro, reset := 0, kind := .hw }

/-- `WHL_STATUS.TOOTH_POS` [26:16] RO. -/
def WHL_STATUS_TOOTH_POS : Fld :=
  { off := WHL_STATUS, lo := 16, w := 11, acc := .ro, reset := 0, kind := .hw }

/-- `WHL_STATUS.CFG_REJ` [15:15] W1C. -/
def WHL_STATUS_CFG_REJ : Fld :=
  { off := WHL_STATUS, lo := 15, w := 1, acc := .w1c, reset := 0, kind := .flag }

/-- `WHL_STATUS.LOSS` [14:14] W1C. -/
def WHL_STATUS_LOSS : Fld :=
  { off := WHL_STATUS, lo := 14, w := 1, acc := .w1c, reset := 0, kind := .flag }

/-- `WHL_STATUS.CHG` [13:13] W1C. -/
def WHL_STATUS_CHG : Fld :=
  { off := WHL_STATUS, lo := 13, w := 1, acc := .w1c, reset := 0, kind := .flag }

/-- `WHL_STATUS.CAMB_FAULT` [12:12] RO. -/
def WHL_STATUS_CAMB_FAULT : Fld :=
  { off := WHL_STATUS, lo := 12, w := 1, acc := .ro, reset := 0, kind := .hw }

/-- `WHL_STATUS.CAMA_FAULT` [11:11] RO. -/
def WHL_STATUS_CAMA_FAULT : Fld :=
  { off := WHL_STATUS, lo := 11, w := 1, acc := .ro, reset := 0, kind := .hw }

/-- `WHL_STATUS.B_LOST` [10:10] RO. -/
def WHL_STATUS_B_LOST : Fld :=
  { off := WHL_STATUS, lo := 10, w := 1, acc := .ro, reset := 0, kind := .hw }

/-- `WHL_STATUS.A_LOST` [9:9] RO. -/
def WHL_STATUS_A_LOST : Fld :=
  { off := WHL_STATUS, lo := 9, w := 1, acc := .ro, reset := 0, kind := .hw }

/-- `WHL_STATUS.DIR_VALID` [8:8] RO. -/
def WHL_STATUS_DIR_VALID : Fld :=
  { off := WHL_STATUS, lo := 8, w := 1, acc := .ro, reset := 0, kind := .hw }

/-- `WHL_STATUS.CRANK_SRC` [7:6] RO. -/
def WHL_STATUS_CRANK_SRC : Fld :=
  { off := WHL_STATUS, lo := 6, w := 2, acc := .ro, reset := 2, kind := .hw }

/-- `WHL_STATUS.ASTERN` [5:5] RO. -/
def WHL_STATUS_ASTERN : Fld :=
  { off := WHL_STATUS, lo := 5, w := 1, acc := .ro, reset := 0, kind := .hw }

/-- `WHL_STATUS.REVERSE` [4:4] RO. -/
def WHL_STATUS_REVERSE : Fld :=
  { off := WHL_STATUS, lo := 4, w := 1, acc := .ro, reset := 0, kind := .hw }

/-- `WHL_STATUS.LIMP` [3:3] RO. -/
def WHL_STATUS_LIMP : Fld :=
  { off := WHL_STATUS, lo := 3, w := 1, acc := .ro, reset := 0, kind := .hw }

/-- `WHL_STATUS.STATE` [1:0] RO. -/
def WHL_STATUS_STATE : Fld :=
  { off := WHL_STATUS, lo := 0, w := 2, acc := .ro, reset := 0, kind := .hw }

/-- `WHL_LOSS.CAUSE` [31:24] RO. -/
def WHL_LOSS_CAUSE : Fld :=
  { off := WHL_LOSS, lo := 24, w := 8, acc := .ro, reset := 0, kind := .hw }

/-- `WHL_LOSS.LIMP_DISAGREE` [23:16] RW. -/
def WHL_LOSS_LIMP_DISAGREE : Fld :=
  { off := WHL_LOSS, lo := 16, w := 8, acc := .rw, reset := 0, kind := .counter, coll := some (32 * WHL_COLL + 24, 8) }

/-- `WHL_LOSS.LOSS_COUNT` [15:0] RW. -/
def WHL_LOSS_LOSS_COUNT : Fld :=
  { off := WHL_LOSS, lo := 0, w := 16, acc := .rw, reset := 0, kind := .counter, coll := some (32 * WHL_COLL + 16, 8) }

/-- `WHL_NOISE.CRANK_B` [31:16] RW. -/
def WHL_NOISE_CRANK_B : Fld :=
  { off := WHL_NOISE, lo := 16, w := 16, acc := .rw, reset := 0, kind := .counter, coll := some (32 * WHL_COLL + 8, 8) }

/-- `WHL_NOISE.CRANK_A` [15:0] RW. -/
def WHL_NOISE_CRANK_A : Fld :=
  { off := WHL_NOISE, lo := 0, w := 16, acc := .rw, reset := 0, kind := .counter, coll := some (32 * WHL_COLL + 0, 8) }

/-- `WHL_NOISE_CAM.DIR_INVALID` [31:24] RW. -/
def WHL_NOISE_CAM_DIR_INVALID : Fld :=
  { off := WHL_NOISE_CAM, lo := 24, w := 8, acc := .rw, reset := 0, kind := .counter }

/-- `WHL_NOISE_CAM.CAMB_MISMATCH` [23:12] RW. -/
def WHL_NOISE_CAM_CAMB_MISMATCH : Fld :=
  { off := WHL_NOISE_CAM, lo := 12, w := 12, acc := .rw, reset := 0, kind := .counter }

/-- `WHL_NOISE_CAM.CAMA_MISMATCH` [11:0] RW. -/
def WHL_NOISE_CAM_CAMA_MISMATCH : Fld :=
  { off := WHL_NOISE_CAM, lo := 0, w := 12, acc := .rw, reset := 0, kind := .counter }

/-- `WHL_COLL.CRANK_A` [7:0] RC. -/
def WHL_COLL_CRANK_A : Fld :=
  { off := WHL_COLL, lo := 0, w := 8, acc := .rc, reset := 0, kind := .rc }

/-- `WHL_COLL.CRANK_B` [15:8] RC. -/
def WHL_COLL_CRANK_B : Fld :=
  { off := WHL_COLL, lo := 8, w := 8, acc := .rc, reset := 0, kind := .rc }

/-- `WHL_COLL.LOSS_COUNT` [23:16] RC. -/
def WHL_COLL_LOSS_COUNT : Fld :=
  { off := WHL_COLL, lo := 16, w := 8, acc := .rc, reset := 0, kind := .rc }

/-- `WHL_COLL.LIMP_DISAGREE` [31:24] RC. -/
def WHL_COLL_LIMP_DISAGREE : Fld :=
  { off := WHL_COLL, lo := 24, w := 8, acc := .rc, reset := 0, kind := .rc }

/-- `WHL_IN_CFG.FILTER_N` [27:16] RW. -/
def WHL_IN_CFG_FILTER_N (i : Nat) : Fld :=
  { off := WHL_IN_CFG i, lo := 16, w := 12, acc := .rw, reset := 0x10, fix := .below 1 1 }

/-- `WHL_IN_CFG.ARM_FRAC` [11:9] RW. -/
def WHL_IN_CFG_ARM_FRAC (i : Nat) : Fld :=
  { off := WHL_IN_CFG i, lo := 9, w := 3, acc := .rw, reset := 4, fix := .below 1 4 }

/-- `WHL_IN_CFG.VR_FLOOR` [8:4] RW. -/
def WHL_IN_CFG_VR_FLOOR (i : Nat) : Fld :=
  { off := WHL_IN_CFG i, lo := 4, w := 5, acc := .rw, reset := 4, fix := .below 1 1 }

/-- `WHL_IN_CFG.EDGE` [2:2] RW. -/
def WHL_IN_CFG_EDGE (i : Nat) : Fld :=
  { off := WHL_IN_CFG i, lo := 2, w := 1, acc := .rw, reset := 0 }

/-- `WHL_IN_CFG.TYPE` [1:1] RW. -/
def WHL_IN_CFG_TYPE (i : Nat) : Fld :=
  { off := WHL_IN_CFG i, lo := 1, w := 1, acc := .rw, reset := 0 }

/-- `WHL_IN_CFG.ENABLE` [0:0] RW. -/
def WHL_IN_CFG_ENABLE (i : Nat) : Fld :=
  { off := WHL_IN_CFG i, lo := 0, w := 1, acc := .rw, reset := 0 }

/-- `WHL_DIR_CFG.REV_MAX` [31:24] RW. -/
def WHL_DIR_CFG_REV_MAX : Fld :=
  { off := WHL_DIR_CFG, lo := 24, w := 8, acc := .rw, reset := 135 }

/-- `WHL_DIR_CFG.REV_MIN` [23:16] RW. -/
def WHL_DIR_CFG_REV_MIN : Fld :=
  { off := WHL_DIR_CFG, lo := 16, w := 8, acc := .rw, reset := 70 }

/-- `WHL_DIR_CFG.FWD_MAX` [15:8] RW. -/
def WHL_DIR_CFG_FWD_MAX : Fld :=
  { off := WHL_DIR_CFG, lo := 8, w := 8, acc := .rw, reset := 60 }

/-- `WHL_DIR_CFG.FWD_MIN` [7:0] RW. -/
def WHL_DIR_CFG_FWD_MIN : Fld :=
  { off := WHL_DIR_CFG, lo := 0, w := 8, acc := .rw, reset := 30 }

/-- `ANG_CHAIN.CHAIN` [31:8] RO. -/
def ANG_CHAIN_CHAIN : Fld :=
  { off := ANG_CHAIN, lo := 8, w := 24, acc := .ro, reset := 0, kind := .hw }

/-- `ANG_CHAIN.FRACTION` [7:0] RO. -/
def ANG_CHAIN_FRACTION : Fld :=
  { off := ANG_CHAIN, lo := 0, w := 8, acc := .ro, reset := 0, kind := .hw }

/-- `ANG_TOOTH.TOOTH_REF` [31:8] RO. -/
def ANG_TOOTH_TOOTH_REF : Fld :=
  { off := ANG_TOOTH, lo := 8, w := 24, acc := .ro, reset := 0, kind := .hw }

/-- `ANG_TOOTH.COASTED` [0:0] RO. -/
def ANG_TOOTH_COASTED : Fld :=
  { off := ANG_TOOTH, lo := 0, w := 1, acc := .ro, reset := 0, kind := .hw }

/-- `ANG_RATE.RATE` [31:0] RO. -/
def ANG_RATE_RATE : Fld :=
  { off := ANG_RATE, lo := 0, w := 32, acc := .ro, reset := 0, kind := .hw }

/-- `ANG_PERIOD.PREDICTED` [31:0] RO. -/
def ANG_PERIOD_PREDICTED : Fld :=
  { off := ANG_PERIOD, lo := 0, w := 32, acc := .ro, reset := 0, kind := .hw }

/-- `ANG_MEAN.MEAN` [31:0] RO. -/
def ANG_MEAN_MEAN : Fld :=
  { off := ANG_MEAN, lo := 0, w := 32, acc := .ro, reset := 0, kind := .hw }

/-- `ANG_CFG.FP_ENABLE` [20:20] RW. -/
def ANG_CFG_FP_ENABLE : Fld :=
  { off := ANG_CFG, lo := 20, w := 1, acc := .rw, reset := 1 }

/-- `ANG_CFG.FP_TC` [19:16] RW. -/
def ANG_CFG_FP_TC : Fld :=
  { off := ANG_CFG, lo := 16, w := 4, acc := .rw, reset := 4, fix := .clamp 2 10 }

/-- `ANG_CFG.FROZEN_F` [15:12] RW. -/
def ANG_CFG_FROZEN_F : Fld :=
  { off := ANG_CFG, lo := 12, w := 4, acc := .rw, reset := 3, fix := .below 1 1 }

/-- `ANG_CFG.COAST_K` [10:8] RW. -/
def ANG_CFG_COAST_K : Fld :=
  { off := ANG_CFG, lo := 8, w := 3, acc := .rw, reset := 1 }

/-- `ANG_CFG.JUMP_FRAC` [5:0] RW. -/
def ANG_CFG_JUMP_FRAC : Fld :=
  { off := ANG_CFG, lo := 0, w := 6, acc := .rw, reset := 8, fix := .below 1 1 }

/-- `ANG_BAND0.LIMIT1` [27:16] RW. -/
def ANG_BAND0_LIMIT1 : Fld :=
  { off := ANG_BAND0, lo := 16, w := 12, acc := .rw, reset := 400 }

/-- `ANG_BAND0.LIMIT0` [11:0] RW. -/
def ANG_BAND0_LIMIT0 : Fld :=
  { off := ANG_BAND0, lo := 0, w := 12, acc := .rw, reset := 200 }

/-- `ANG_BAND1.LIMIT3` [27:16] RW. -/
def ANG_BAND1_LIMIT3 : Fld :=
  { off := ANG_BAND1, lo := 16, w := 12, acc := .rw, reset := 800 }

/-- `ANG_BAND1.LIMIT2` [11:0] RW. -/
def ANG_BAND1_LIMIT2 : Fld :=
  { off := ANG_BAND1, lo := 0, w := 12, acc := .rw, reset := 600 }

/-- `ANG_BAND2.LIMIT5` [27:16] RW. -/
def ANG_BAND2_LIMIT5 : Fld :=
  { off := ANG_BAND2, lo := 16, w := 12, acc := .rw, reset := 1300 }

/-- `ANG_BAND2.LIMIT4` [11:0] RW. -/
def ANG_BAND2_LIMIT4 : Fld :=
  { off := ANG_BAND2, lo := 0, w := 12, acc := .rw, reset := 1000 }

/-- `ANG_BAND3.LIMIT6` [11:0] RW. -/
def ANG_BAND3_LIMIT6 : Fld :=
  { off := ANG_BAND3, lo := 0, w := 12, acc := .rw, reset := 1700 }

/-- `ANG_STATUS.STEP_EXP` [19:16] RO. -/
def ANG_STATUS_STEP_EXP : Fld :=
  { off := ANG_STATUS, lo := 16, w := 4, acc := .ro, reset := 0, kind := .hw }

/-- `ANG_STATUS.CFG_REJ` [15:15] W1C. -/
def ANG_STATUS_CFG_REJ : Fld :=
  { off := ANG_STATUS, lo := 15, w := 1, acc := .w1c, reset := 0, kind := .flag }

/-- `ANG_STATUS.JUMP` [14:14] W1C. -/
def ANG_STATUS_JUMP : Fld :=
  { off := ANG_STATUS, lo := 14, w := 1, acc := .w1c, reset := 0, kind := .flag }

/-- `ANG_STATUS.LEARN_DONE` [13:13] W1C. -/
def ANG_STATUS_LEARN_DONE : Fld :=
  { off := ANG_STATUS, lo := 13, w := 1, acc := .w1c, reset := 0, kind := .flag }

/-- `ANG_STATUS.BAND` [12:10] RO. -/
def ANG_STATUS_BAND : Fld :=
  { off := ANG_STATUS, lo := 10, w := 3, acc := .ro, reset := 0, kind := .hw }

/-- `ANG_STATUS.FP_LEARNING` [9:9] RO. -/
def ANG_STATUS_FP_LEARNING : Fld :=
  { off := ANG_STATUS, lo := 9, w := 1, acc := .ro, reset := 0, kind := .hw }

/-- `ANG_STATUS.CL_LEARNING` [8:8] RO. -/
def ANG_STATUS_CL_LEARNING : Fld :=
  { off := ANG_STATUS, lo := 8, w := 1, acc := .ro, reset := 0, kind := .hw }

/-- `ANG_STATUS.QUAL_B` [5:4] RO. -/
def ANG_STATUS_QUAL_B : Fld :=
  { off := ANG_STATUS, lo := 4, w := 2, acc := .ro, reset := 0, kind := .hw }

/-- `ANG_STATUS.QUAL_A` [3:2] RO. -/
def ANG_STATUS_QUAL_A : Fld :=
  { off := ANG_STATUS, lo := 2, w := 2, acc := .ro, reset := 0, kind := .hw }

/-- `ANG_ERR.LAST_ERR` [31:8] RO. -/
def ANG_ERR_LAST_ERR : Fld :=
  { off := ANG_ERR, lo := 8, w := 24, acc := .ro, reset := 0, kind := .hw }

/-- `ANG_ERR_MAX.MAX_ABS` [23:0] RC. -/
def ANG_ERR_MAX_MAX_ABS : Fld :=
  { off := ANG_ERR_MAX, lo := 0, w := 24, acc := .rc, reset := 0, kind := .rc }

/-- `ANG_COUNT.JUMPS` [31:16] RW. -/
def ANG_COUNT_JUMPS : Fld :=
  { off := ANG_COUNT, lo := 16, w := 16, acc := .rw, reset := 0, kind := .counter, coll := some (32 * ANG_COLL + 8, 8) }

/-- `ANG_COUNT.COASTS` [15:0] RW. -/
def ANG_COUNT_COASTS : Fld :=
  { off := ANG_COUNT, lo := 0, w := 16, acc := .rw, reset := 0, kind := .counter, coll := some (32 * ANG_COLL + 0, 8) }

/-- `ANG_WAITS.WAITS` [31:0] RW. -/
def ANG_WAITS_WAITS : Fld :=
  { off := ANG_WAITS, lo := 0, w := 32, acc := .rw, reset := 0, kind := .counter, coll := some (32 * ANG_COLL + 16, 8) }

/-- `ANG_COLL.COASTS` [7:0] RC. -/
def ANG_COLL_COASTS : Fld :=
  { off := ANG_COLL, lo := 0, w := 8, acc := .rc, reset := 0, kind := .rc }

/-- `ANG_COLL.JUMPS` [15:8] RC. -/
def ANG_COLL_JUMPS : Fld :=
  { off := ANG_COLL, lo := 8, w := 8, acc := .rc, reset := 0, kind := .rc }

/-- `ANG_COLL.WAITS` [23:16] RC. -/
def ANG_COLL_WAITS : Fld :=
  { off := ANG_COLL, lo := 16, w := 8, acc := .rc, reset := 0, kind := .rc }

/-- `ANG_LOCKSTEP.MAX_DIFF` [3:0] RC. -/
def ANG_LOCKSTEP_MAX_DIFF : Fld :=
  { off := ANG_LOCKSTEP, lo := 0, w := 4, acc := .rc, reset := 0, kind := .rc }

/-- `ANG_FP_CYCLES0.BAND3` [31:24] RO. -/
def ANG_FP_CYCLES0_BAND3 : Fld :=
  { off := ANG_FP_CYCLES0, lo := 24, w := 8, acc := .ro, reset := 0, kind := .hw }

/-- `ANG_FP_CYCLES0.BAND2` [23:16] RO. -/
def ANG_FP_CYCLES0_BAND2 : Fld :=
  { off := ANG_FP_CYCLES0, lo := 16, w := 8, acc := .ro, reset := 0, kind := .hw }

/-- `ANG_FP_CYCLES0.BAND1` [15:8] RO. -/
def ANG_FP_CYCLES0_BAND1 : Fld :=
  { off := ANG_FP_CYCLES0, lo := 8, w := 8, acc := .ro, reset := 0, kind := .hw }

/-- `ANG_FP_CYCLES0.BAND0` [7:0] RO. -/
def ANG_FP_CYCLES0_BAND0 : Fld :=
  { off := ANG_FP_CYCLES0, lo := 0, w := 8, acc := .ro, reset := 0, kind := .hw }

/-- `ANG_FP_CYCLES1.BAND7` [31:24] RO. -/
def ANG_FP_CYCLES1_BAND7 : Fld :=
  { off := ANG_FP_CYCLES1, lo := 24, w := 8, acc := .ro, reset := 0, kind := .hw }

/-- `ANG_FP_CYCLES1.BAND6` [23:16] RO. -/
def ANG_FP_CYCLES1_BAND6 : Fld :=
  { off := ANG_FP_CYCLES1, lo := 16, w := 8, acc := .ro, reset := 0, kind := .hw }

/-- `ANG_FP_CYCLES1.BAND5` [15:8] RO. -/
def ANG_FP_CYCLES1_BAND5 : Fld :=
  { off := ANG_FP_CYCLES1, lo := 8, w := 8, acc := .ro, reset := 0, kind := .hw }

/-- `ANG_FP_CYCLES1.BAND4` [7:0] RO. -/
def ANG_FP_CYCLES1_BAND4 : Fld :=
  { off := ANG_FP_CYCLES1, lo := 0, w := 8, acc := .ro, reset := 0, kind := .hw }

/-- `DRV_CH_EN0.EN` [31:0] PW. -/
def DRV_CH_EN0_EN : Fld :=
  { off := DRV_CH_EN0, lo := 0, w := 32, acc := .pw, reset := 0 }

/-- `DRV_CH_EN1.EN` [3:0] PW. -/
def DRV_CH_EN1_EN : Fld :=
  { off := DRV_CH_EN1, lo := 0, w := 4, acc := .pw, reset := 0 }

/-- `DRV_PAIR.PAIR` [13:0] RW. -/
def DRV_PAIR_PAIR : Fld :=
  { off := DRV_PAIR, lo := 0, w := 14, acc := .rw, reset := 0 }

/-- `DRV_BANK_SLIP.BANK1` [23:16] RW. -/
def DRV_BANK_SLIP_BANK1 : Fld :=
  { off := DRV_BANK_SLIP, lo := 16, w := 8, acc := .rw, reset := 0, fix := .above 200 200 }

/-- `DRV_BANK_SLIP.BANK0` [7:0] RW. -/
def DRV_BANK_SLIP_BANK0 : Fld :=
  { off := DRV_BANK_SLIP, lo := 0, w := 8, acc := .rw, reset := 0, fix := .above 200 200 }

/-- `DRV_STATUS.CFG_REJ` [0:0] W1C. -/
def DRV_STATUS_CFG_REJ : Fld :=
  { off := DRV_STATUS, lo := 0, w := 1, acc := .w1c, reset := 0, kind := .flag }

/-- `DRV_PROF_VALID0.VALID` [31:0] RO. -/
def DRV_PROF_VALID0_VALID : Fld :=
  { off := DRV_PROF_VALID0, lo := 0, w := 32, acc := .ro, reset := 0, kind := .hw }

/-- `DRV_PROF_VALID1.VALID` [31:0] RO. -/
def DRV_PROF_VALID1_VALID : Fld :=
  { off := DRV_PROF_VALID1, lo := 0, w := 32, acc := .ro, reset := 0, kind := .hw }

/-- `DRV_COLL.RETRIG` [31:24] RC. -/
def DRV_COLL_RETRIG : Fld :=
  { off := DRV_COLL, lo := 24, w := 8, acc := .rc, reset := 0, kind := .rc }

/-- `DRV_COLL.PLAUS` [23:16] RC. -/
def DRV_COLL_PLAUS : Fld :=
  { off := DRV_COLL, lo := 16, w := 8, acc := .rc, reset := 0, kind := .rc }

/-- `DRV_COLL.TIMEOUT` [15:8] RC. -/
def DRV_COLL_TIMEOUT : Fld :=
  { off := DRV_COLL, lo := 8, w := 8, acc := .rc, reset := 0, kind := .rc }

/-- `DRV_COLL.TRUNC` [7:0] RC. -/
def DRV_COLL_TRUNC : Fld :=
  { off := DRV_COLL, lo := 0, w := 8, acc := .rc, reset := 0, kind := .rc }

/-- `DRV_CH_CFG.FALLBACK_PROF` [31:26] RW. -/
def DRV_CH_CFG_FALLBACK_PROF (i : Nat) : Fld :=
  { off := DRV_CH_CFG i, lo := 26, w := 6, acc := .rw, reset := 0 }

/-- `DRV_CH_CFG.FALLBACK_EN` [25:25] RW. -/
def DRV_CH_CFG_FALLBACK_EN (i : Nat) : Fld :=
  { off := DRV_CH_CFG i, lo := 25, w := 1, acc := .rw, reset := 0 }

/-- `DRV_CH_CFG.DUTY_WIN` [23:20] RW. -/
def DRV_CH_CFG_DUTY_WIN (i : Nat) : Fld :=
  { off := DRV_CH_CFG i, lo := 20, w := 4, acc := .rw, reset := 5 }

/-- `DRV_CH_CFG.DUTY_FRAC` [19:12] RW. -/
def DRV_CH_CFG_DUTY_FRAC (i : Nat) : Fld :=
  { off := DRV_CH_CFG i, lo := 12, w := 8, acc := .rw, reset := 0x40 }

/-- `DRV_CH_CFG.RETRIG` [11:10] RW. -/
def DRV_CH_CFG_RETRIG (i : Nat) : Fld :=
  { off := DRV_CH_CFG i, lo := 10, w := 2, acc := .rw, reset := 0, fix := .above 2 0 }

/-- `DRV_CH_SENSE.L_NOM` [31:16] RW. -/
def DRV_CH_SENSE_L_NOM (i : Nat) : Fld :=
  { off := DRV_CH_SENSE i, lo := 16, w := 16, acc := .rw, reset := 2000, fix := .below 10 10 }

/-- `DRV_CH_SENSE.L_LEARNED` [15:0] RO. -/
def DRV_CH_SENSE_L_LEARNED (i : Nat) : Fld :=
  { off := DRV_CH_SENSE i, lo := 0, w := 16, acc := .ro, reset := 2000, kind := .hw }

/-- `DRV_CH_STAT.OFFSET` [31:20] RO. -/
def DRV_CH_STAT_OFFSET (i : Nat) : Fld :=
  { off := DRV_CH_STAT i, lo := 20, w := 12, acc := .ro, reset := 0, kind := .hw }

/-- `DRV_CH_STAT.SENSE_LOST` [15:15] RO. -/
def DRV_CH_STAT_SENSE_LOST (i : Nat) : Fld :=
  { off := DRV_CH_STAT i, lo := 15, w := 1, acc := .ro, reset := 0, kind := .hw }

/-- `DRV_CH_STAT.CLAMPED` [14:14] W1C. -/
def DRV_CH_STAT_CLAMPED (i : Nat) : Fld :=
  { off := DRV_CH_STAT i, lo := 14, w := 1, acc := .w1c, reset := 0, kind := .flag }

/-- `DRV_CH_STAT.CAL_DONE` [13:13] W1C. -/
def DRV_CH_STAT_CAL_DONE (i : Nat) : Fld :=
  { off := DRV_CH_STAT i, lo := 13, w := 1, acc := .w1c, reset := 0, kind := .flag }

/-- `DRV_CH_STAT.CAL_PEND` [12:12] RO. -/
def DRV_CH_STAT_CAL_PEND (i : Nat) : Fld :=
  { off := DRV_CH_STAT i, lo := 12, w := 1, acc := .ro, reset := 0, kind := .hw }

/-- `DRV_CH_STAT.FAILS` [11:10] RO. -/
def DRV_CH_STAT_FAILS (i : Nat) : Fld :=
  { off := DRV_CH_STAT i, lo := 10, w := 2, acc := .ro, reset := 0, kind := .hw }

/-- `DRV_CH_STAT.PHASE` [7:4] RO. -/
def DRV_CH_STAT_PHASE (i : Nat) : Fld :=
  { off := DRV_CH_STAT i, lo := 4, w := 4, acc := .ro, reset := 15, kind := .hw }

/-- `DRV_CH_STAT.ENERGISED` [3:3] RO. -/
def DRV_CH_STAT_ENERGISED (i : Nat) : Fld :=
  { off := DRV_CH_STAT i, lo := 3, w := 1, acc := .ro, reset := 0, kind := .hw }

/-- `DRV_CH_STAT.PAIRED` [2:2] RO. -/
def DRV_CH_STAT_PAIRED (i : Nat) : Fld :=
  { off := DRV_CH_STAT i, lo := 2, w := 1, acc := .ro, reset := 0, kind := .hw }

/-- `DRV_CH_COUNT.TRUNCATIONS` [31:24] RW. -/
def DRV_CH_COUNT_TRUNCATIONS (i : Nat) : Fld :=
  { off := DRV_CH_COUNT i, lo := 24, w := 8, acc := .rw, reset := 0, kind := .counter, coll := some (32 * DRV_COLL + 0, 8) }

/-- `DRV_CH_COUNT.TIMEOUTS` [23:16] RW. -/
def DRV_CH_COUNT_TIMEOUTS (i : Nat) : Fld :=
  { off := DRV_CH_COUNT i, lo := 16, w := 8, acc := .rw, reset := 0, kind := .counter, coll := some (32 * DRV_COLL + 8, 8) }

/-- `DRV_CH_COUNT.PLAUS_FAIL` [15:8] RW. -/
def DRV_CH_COUNT_PLAUS_FAIL (i : Nat) : Fld :=
  { off := DRV_CH_COUNT i, lo := 8, w := 8, acc := .rw, reset := 0, kind := .counter, coll := some (32 * DRV_COLL + 16, 8) }

/-- `DRV_CH_COUNT.RETRIGGERS` [7:0] RW. -/
def DRV_CH_COUNT_RETRIGGERS (i : Nat) : Fld :=
  { off := DRV_CH_COUNT i, lo := 0, w := 8, acc := .rw, reset := 0, kind := .counter, coll := some (32 * DRV_COLL + 24, 8) }

/-- `BST_CFG.ENABLE` [31:31] RW. -/
def BST_CFG_ENABLE (i : Nat) : Fld :=
  { off := BST_CFG i, lo := 31, w := 1, acc := .rw, reset := 0 }

/-- `BST_CFG.ILIM` [27:24] RW. -/
def BST_CFG_ILIM (i : Nat) : Fld :=
  { off := BST_CFG i, lo := 24, w := 4, acc := .rw, reset := 10 }

/-- `BST_CFG.CLAMP_MARGIN` [20:16] RW. -/
def BST_CFG_CLAMP_MARGIN (i : Nat) : Fld :=
  { off := BST_CFG i, lo := 16, w := 5, acc := .rw, reset := 10 }

/-- `BST_CFG.READY` [13:8] RW. -/
def BST_CFG_READY (i : Nat) : Fld :=
  { off := BST_CFG i, lo := 8, w := 6, acc := .rw, reset := 60 }

/-- `BST_CFG.VSET` [7:0] RW. -/
def BST_CFG_VSET (i : Nat) : Fld :=
  { off := BST_CFG i, lo := 0, w := 8, acc := .rw, reset := 80 }

/-- `BST_CAP.CBANK` [8:0] RW. -/
def BST_CAP_CBANK (i : Nat) : Fld :=
  { off := BST_CAP i, lo := 0, w := 9, acc := .rw, reset := 100 }

/-- `BST_STATUS.VCAP` [27:16] RO. -/
def BST_STATUS_VCAP (i : Nat) : Fld :=
  { off := BST_STATUS i, lo := 16, w := 12, acc := .ro, reset := 0, kind := .hw }

/-- `BST_STATUS.CFG_REJ` [7:7] W1C. -/
def BST_STATUS_CFG_REJ (i : Nat) : Fld :=
  { off := BST_STATUS i, lo := 7, w := 1, acc := .w1c, reset := 0, kind := .flag }

/-- `BST_STATUS.CLAMP_SEEN` [6:6] W1C. -/
def BST_STATUS_CLAMP_SEEN (i : Nat) : Fld :=
  { off := BST_STATUS i, lo := 6, w := 1, acc := .w1c, reset := 0, kind := .flag }

/-- `BST_STATUS.NOT_READY_SEEN` [5:5] W1C. -/
def BST_STATUS_NOT_READY_SEEN (i : Nat) : Fld :=
  { off := BST_STATUS i, lo := 5, w := 1, acc := .w1c, reset := 0, kind := .flag }

/-- `BST_STATUS.FAIL_CAUSE` [4:3] RO. -/
def BST_STATUS_FAIL_CAUSE (i : Nat) : Fld :=
  { off := BST_STATUS i, lo := 3, w := 2, acc := .ro, reset := 0, kind := .hw }

/-- `BST_STATUS.STATE` [2:0] RO. -/
def BST_STATUS_STATE (i : Nat) : Fld :=
  { off := BST_STATUS i, lo := 0, w := 3, acc := .ro, reset := 0, kind := .hw }

/-- `BST_COUNT.NOT_READY` [31:16] RW. -/
def BST_COUNT_NOT_READY (i : Nat) : Fld :=
  { off := BST_COUNT i, lo := 16, w := 16, acc := .rw, reset := 0, kind := .counter, coll := some (32 * 0x660 + (16*i), 8) }

/-- `BST_COUNT.CLAMPS` [15:0] RW. -/
def BST_COUNT_CLAMPS (i : Nat) : Fld :=
  { off := BST_COUNT i, lo := 0, w := 16, acc := .rw, reset := 0, kind := .counter, coll := some (32 * 0x660 + (16*i+8), 8) }

/-- `BST_COLL.NOT_READY_A` [7:0] RC. -/
def BST_COLL_NOT_READY_A : Fld :=
  { off := BST_COLL, lo := 0, w := 8, acc := .rc, reset := 0, kind := .rc }

/-- `BST_COLL.CLAMPS_A` [15:8] RC. -/
def BST_COLL_CLAMPS_A : Fld :=
  { off := BST_COLL, lo := 8, w := 8, acc := .rc, reset := 0, kind := .rc }

/-- `BST_COLL.NOT_READY_B` [23:16] RC. -/
def BST_COLL_NOT_READY_B : Fld :=
  { off := BST_COLL, lo := 16, w := 8, acc := .rc, reset := 0, kind := .rc }

/-- `BST_COLL.CLAMPS_B` [31:24] RC. -/
def BST_COLL_CLAMPS_B : Fld :=
  { off := BST_COLL, lo := 24, w := 8, acc := .rc, reset := 0, kind := .rc }

/-- `PRT_SUB.TRIP_B` [19:19] RO. -/
def PRT_SUB_TRIP_B : Fld :=
  { off := PRT_SUB, lo := 19, w := 1, acc := .ro, reset := 0, kind := .hw }

/-- `PRT_SUB.TRIP_A` [18:18] RO. -/
def PRT_SUB_TRIP_A : Fld :=
  { off := PRT_SUB, lo := 18, w := 1, acc := .ro, reset := 0, kind := .hw }

/-- `PRT_SUB.HOT_B` [17:17] RO. -/
def PRT_SUB_HOT_B : Fld :=
  { off := PRT_SUB, lo := 17, w := 1, acc := .ro, reset := 0, kind := .hw }

/-- `PRT_SUB.HOT_A` [16:16] RO. -/
def PRT_SUB_HOT_A : Fld :=
  { off := PRT_SUB, lo := 16, w := 1, acc := .ro, reset := 0, kind := .hw }

/-- `PRT_SUB.TEMP_B` [15:8] RO. -/
def PRT_SUB_TEMP_B : Fld :=
  { off := PRT_SUB, lo := 8, w := 8, acc := .ro, reset := 0, kind := .hw }

/-- `PRT_SUB.TEMP_A` [7:0] RO. -/
def PRT_SUB_TEMP_A : Fld :=
  { off := PRT_SUB, lo := 0, w := 8, acc := .ro, reset := 0, kind := .hw }

/-- `PRT_CFG.RAMP` [31:28] RW. -/
def PRT_CFG_RAMP (i : Nat) : Fld :=
  { off := PRT_CFG i, lo := 28, w := 4, acc := .rw, reset := 5 }

/-- `PRT_CFG.DIDT_MAX` [27:24] RW. -/
def PRT_CFG_DIDT_MAX (i : Nat) : Fld :=
  { off := PRT_CFG i, lo := 24, w := 4, acc := .rw, reset := 8, fix := .below 1 1 }

/-- `PRT_CFG.VMARGIN` [23:20] RW. -/
def PRT_CFG_VMARGIN (i : Nat) : Fld :=
  { off := PRT_CFG i, lo := 20, w := 4, acc := .rw, reset := 5, fix := .below 1 1 }

/-- `PRT_CFG.DESAT_V` [19:16] RW. -/
def PRT_CFG_DESAT_V (i : Nat) : Fld :=
  { off := PRT_CFG i, lo := 16, w := 4, acc := .rw, reset := 8, fix := .below 3 3 }

/-- `PRT_CFG.RETRY_N` [15:14] RW. -/
def PRT_CFG_RETRY_N (i : Nat) : Fld :=
  { off := PRT_CFG i, lo := 14, w := 2, acc := .rw, reset := 1 }

/-- `PRT_CFG.RETRY_INT` [13:11] RW. -/
def PRT_CFG_RETRY_INT (i : Nat) : Fld :=
  { off := PRT_CFG i, lo := 11, w := 3, acc := .rw, reset := 3 }

/-- `PRT_CFG.OPEN_T` [10:7] RW. -/
def PRT_CFG_OPEN_T (i : Nat) : Fld :=
  { off := PRT_CFG i, lo := 7, w := 4, acc := .rw, reset := 3 }

/-- `PRT_CFG.OPEN_I` [6:0] RW. -/
def PRT_CFG_OPEN_I (i : Nat) : Fld :=
  { off := PRT_CFG i, lo := 0, w := 7, acc := .rw, reset := 4 }

/-- `PRT_STAT.TEMP` [23:16] RO. -/
def PRT_STAT_TEMP (i : Nat) : Fld :=
  { off := PRT_STAT i, lo := 16, w := 8, acc := .ro, reset := 0, kind := .hw }

/-- `PRT_STAT.HOT` [11:11] RO. -/
def PRT_STAT_HOT (i : Nat) : Fld :=
  { off := PRT_STAT i, lo := 11, w := 1, acc := .ro, reset := 0, kind := .hw }

/-- `PRT_STAT.OPEN` [10:10] RO. -/
def PRT_STAT_OPEN (i : Nat) : Fld :=
  { off := PRT_STAT i, lo := 10, w := 1, acc := .ro, reset := 0, kind := .hw }

/-- `PRT_STAT.RETRIES_LEFT` [9:8] RO. -/
def PRT_STAT_RETRIES_LEFT (i : Nat) : Fld :=
  { off := PRT_STAT i, lo := 8, w := 2, acc := .ro, reset := 1, kind := .hw }

/-- `PRT_STAT.CAUSE` [7:4] RO. -/
def PRT_STAT_CAUSE (i : Nat) : Fld :=
  { off := PRT_STAT i, lo := 4, w := 4, acc := .ro, reset := 0, kind := .hw }

/-- `PRT_STAT.LATCH` [0:0] RW. -/
def PRT_STAT_LATCH (i : Nat) : Fld :=
  { off := PRT_STAT i, lo := 0, w := 1, acc := .rw, reset := 0, kind := .trip }

/-- `CD_STATUS.BUSY` [15:8] RO. -/
def CD_STATUS_BUSY : Fld :=
  { off := CD_STATUS, lo := 8, w := 8, acc := .ro, reset := 0, kind := .hw }

/-- `CD_STATUS.CFG_REJ` [0:0] W1C. -/
def CD_STATUS_CFG_REJ : Fld :=
  { off := CD_STATUS, lo := 0, w := 1, acc := .w1c, reset := 0, kind := .flag }

/-- `CD_COLL.MISSES` [15:8] RC. -/
def CD_COLL_MISSES : Fld :=
  { off := CD_COLL, lo := 8, w := 8, acc := .rc, reset := 0, kind := .rc }

/-- `CD_COLL.NOT_SAMPLED` [7:0] RC. -/
def CD_COLL_NOT_SAMPLED : Fld :=
  { off := CD_COLL, lo := 0, w := 8, acc := .rc, reset := 0, kind := .rc }

/-- `CD_CFG.ENABLE` [31:31] RW. -/
def CD_CFG_ENABLE (i : Nat) : Fld :=
  { off := CD_CFG i, lo := 31, w := 1, acc := .rw, reset := 0 }

/-- `CD_CFG.TRIM_EN` [30:30] RW. -/
def CD_CFG_TRIM_EN (i : Nat) : Fld :=
  { off := CD_CFG i, lo := 30, w := 1, acc := .rw, reset := 0 }

/-- `CD_CFG.POLARITY` [29:29] RW. -/
def CD_CFG_POLARITY (i : Nat) : Fld :=
  { off := CD_CFG i, lo := 29, w := 1, acc := .rw, reset := 1 }

/-- `CD_CFG.HALF_W` [28:25] RW. -/
def CD_CFG_HALF_W (i : Nat) : Fld :=
  { off := CD_CFG i, lo := 25, w := 4, acc := .rw, reset := 7 }

/-- `CD_CFG.GAIN` [24:16] RW. -/
def CD_CFG_GAIN (i : Nat) : Fld :=
  { off := CD_CFG i, lo := 16, w := 9, acc := .rw, reset := 128 }

/-- `CD_CFG.TARGET` [15:0] RW. -/
def CD_CFG_TARGET (i : Nat) : Fld :=
  { off := CD_CFG i, lo := 0, w := 16, acc := .rw, reset := 8000 }

/-- `CD_DET.CD_END` [31:20] RW. -/
def CD_DET_CD_END (i : Nat) : Fld :=
  { off := CD_DET i, lo := 20, w := 12, acc := .rw, reset := 600 }

/-- `CD_DET.SETTLE` [19:12] RW. -/
def CD_DET_SETTLE (i : Nat) : Fld :=
  { off := CD_DET i, lo := 12, w := 8, acc := .rw, reset := 50 }

/-- `CD_DET.THRESH` [11:0] RW. -/
def CD_DET_THRESH (i : Nat) : Fld :=
  { off := CD_DET i, lo := 0, w := 12, acc := .rw, reset := 4 }

/-- `CD_PLAUS.PL_MAX` [31:16] RW. -/
def CD_PLAUS_PL_MAX (i : Nat) : Fld :=
  { off := CD_PLAUS i, lo := 16, w := 16, acc := .rw, reset := 12000 }

/-- `CD_PLAUS.PL_MIN` [15:0] RW. -/
def CD_PLAUS_PL_MIN (i : Nat) : Fld :=
  { off := CD_PLAUS i, lo := 0, w := 16, acc := .rw, reset := 2000 }

/-- `CD_TRIMLIM.TRIM_LIM` [15:0] RW. -/
def CD_TRIMLIM_TRIM_LIM (i : Nat) : Fld :=
  { off := CD_TRIMLIM i, lo := 0, w := 16, acc := .rw, reset := 4000 }

/-- `CD_LAST.WORD` [31:0] RO. -/
def CD_LAST_WORD (i : Nat) : Fld :=
  { off := CD_LAST i, lo := 0, w := 32, acc := .ro, reset := 0x40300000, kind := .hw }

/-- `CD_TRIM.STATE` [31:30] RO. -/
def CD_TRIM_STATE (i : Nat) : Fld :=
  { off := CD_TRIM i, lo := 30, w := 2, acc := .ro, reset := 3, kind := .hw }

/-- `CD_TRIM.MISS_RUN` [29:26] RO. -/
def CD_TRIM_MISS_RUN (i : Nat) : Fld :=
  { off := CD_TRIM i, lo := 26, w := 4, acc := .ro, reset := 0, kind := .hw }

/-- `CD_TRIM.RETURN_STEP` [25:19] RO. -/
def CD_TRIM_RETURN_STEP (i : Nat) : Fld :=
  { off := CD_TRIM i, lo := 19, w := 7, acc := .ro, reset := 0, kind := .hw }

/-- `CD_TRIM.TRIM` [16:0] RO. -/
def CD_TRIM_TRIM (i : Nat) : Fld :=
  { off := CD_TRIM i, lo := 0, w := 17, acc := .ro, reset := 0, kind := .hw }

/-- `CD_COUNT.NOT_SAMPLED` [31:16] RW. -/
def CD_COUNT_NOT_SAMPLED (i : Nat) : Fld :=
  { off := CD_COUNT i, lo := 16, w := 16, acc := .rw, reset := 0, kind := .counter, coll := some (32 * CD_COLL + 0, 8) }

/-- `CD_COUNT.MISSES` [15:0] RW. -/
def CD_COUNT_MISSES (i : Nat) : Fld :=
  { off := CD_COUNT i, lo := 0, w := 16, acc := .rw, reset := 0, kind := .counter, coll := some (32 * CD_COLL + 8, 8) }

/-- `AUX_EN.EN` [15:0] PW. -/
def AUX_EN_EN : Fld :=
  { off := AUX_EN, lo := 0, w := 16, acc := .pw, reset := 0 }

/-- `AUX_STATUS.CFG_REJ` [0:0] W1C. -/
def AUX_STATUS_CFG_REJ : Fld :=
  { off := AUX_STATUS, lo := 0, w := 1, acc := .w1c, reset := 0, kind := .flag }

/-- `AUX_FEED.GROUP3` [31:24] RO. -/
def AUX_FEED_GROUP3 : Fld :=
  { off := AUX_FEED, lo := 24, w := 8, acc := .ro, reset := 0, kind := .hw }

/-- `AUX_FEED.GROUP2` [23:16] RO. -/
def AUX_FEED_GROUP2 : Fld :=
  { off := AUX_FEED, lo := 16, w := 8, acc := .ro, reset := 0, kind := .hw }

/-- `AUX_FEED.GROUP1` [15:8] RO. -/
def AUX_FEED_GROUP1 : Fld :=
  { off := AUX_FEED, lo := 8, w := 8, acc := .ro, reset := 0, kind := .hw }

/-- `AUX_FEED.GROUP0` [7:0] RO. -/
def AUX_FEED_GROUP0 : Fld :=
  { off := AUX_FEED, lo := 0, w := 8, acc := .ro, reset := 0, kind := .hw }

/-- `AUX_COLL.SHORTS` [7:0] RC. -/
def AUX_COLL_SHORTS : Fld :=
  { off := AUX_COLL, lo := 0, w := 8, acc := .rc, reset := 0, kind := .rc }

/-- `AUX_COLL.THERMAL` [15:8] RC. -/
def AUX_COLL_THERMAL : Fld :=
  { off := AUX_COLL, lo := 8, w := 8, acc := .rc, reset := 0, kind := .rc }

/-- `AUX_COLL.I2T_ENDS` [23:16] RC. -/
def AUX_COLL_I2T_ENDS : Fld :=
  { off := AUX_COLL, lo := 16, w := 8, acc := .rc, reset := 0, kind := .rc }

/-- `AUX_COLL.HOLDS_WAITS` [31:24] RC. -/
def AUX_COLL_HOLDS_WAITS : Fld :=
  { off := AUX_COLL, lo := 24, w := 8, acc := .rc, reset := 0, kind := .rc }

/-- `AUX_CFG.INRUSH_EN` [31:31] RW. -/
def AUX_CFG_INRUSH_EN (i : Nat) : Fld :=
  { off := AUX_CFG i, lo := 31, w := 1, acc := .rw, reset := 0 }

/-- `AUX_CFG.INRUSH_T` [30:25] RW. -/
def AUX_CFG_INRUSH_T (i : Nat) : Fld :=
  { off := AUX_CFG i, lo := 25, w := 6, acc := .rw, reset := 20 }

/-- `AUX_CFG.INRUSH_LIM` [24:20] RW. -/
def AUX_CFG_INRUSH_LIM (i : Nat) : Fld :=
  { off := AUX_CFG i, lo := 20, w := 5, acc := .rw, reset := 15 }

/-- `AUX_CFG.I2T` [19:12] RW. -/
def AUX_CFG_I2T (i : Nat) : Fld :=
  { off := AUX_CFG i, lo := 12, w := 8, acc := .rw, reset := 80 }

/-- `AUX_CFG.LIMIT` [11:8] RW. -/
def AUX_CFG_LIMIT (i : Nat) : Fld :=
  { off := AUX_CFG i, lo := 8, w := 4, acc := .rw, reset := 8 }

/-- `AUX_CFG.RETRY_N` [7:6] RW. -/
def AUX_CFG_RETRY_N (i : Nat) : Fld :=
  { off := AUX_CFG i, lo := 6, w := 2, acc := .rw, reset := 1 }

/-- `AUX_CFG.RETRY_INT` [5:3] RW. -/
def AUX_CFG_RETRY_INT (i : Nat) : Fld :=
  { off := AUX_CFG i, lo := 3, w := 3, acc := .rw, reset := 3 }

/-- `AUX_OPEN.OPEN_I` [5:0] RW. -/
def AUX_OPEN_OPEN_I (i : Nat) : Fld :=
  { off := AUX_OPEN i, lo := 0, w := 6, acc := .rw, reset := 5 }

/-- `AUX_STAT.TEMP` [23:16] RO. -/
def AUX_STAT_TEMP (i : Nat) : Fld :=
  { off := AUX_STAT i, lo := 16, w := 8, acc := .ro, reset := 0, kind := .hw }

/-- `AUX_STAT.WAITING` [12:12] RO. -/
def AUX_STAT_WAITING (i : Nat) : Fld :=
  { off := AUX_STAT i, lo := 12, w := 1, acc := .ro, reset := 0, kind := .hw }

/-- `AUX_STAT.INRUSH` [11:11] RO. -/
def AUX_STAT_INRUSH (i : Nat) : Fld :=
  { off := AUX_STAT i, lo := 11, w := 1, acc := .ro, reset := 0, kind := .hw }

/-- `AUX_STAT.AT_LIMIT` [10:10] RO. -/
def AUX_STAT_AT_LIMIT (i : Nat) : Fld :=
  { off := AUX_STAT i, lo := 10, w := 1, acc := .ro, reset := 0, kind := .hw }

/-- `AUX_STAT.BAT` [9:9] W1C. -/
def AUX_STAT_BAT (i : Nat) : Fld :=
  { off := AUX_STAT i, lo := 9, w := 1, acc := .w1c, reset := 0, kind := .flag }

/-- `AUX_STAT.OPEN` [8:8] W1C. -/
def AUX_STAT_OPEN (i : Nat) : Fld :=
  { off := AUX_STAT i, lo := 8, w := 1, acc := .w1c, reset := 0, kind := .flag }

/-- `AUX_STAT.HOT` [7:7] RO. -/
def AUX_STAT_HOT (i : Nat) : Fld :=
  { off := AUX_STAT i, lo := 7, w := 1, acc := .ro, reset := 0, kind := .hw }

/-- `AUX_STAT.RETRIES_LEFT` [6:5] RO. -/
def AUX_STAT_RETRIES_LEFT (i : Nat) : Fld :=
  { off := AUX_STAT i, lo := 5, w := 2, acc := .ro, reset := 1, kind := .hw }

/-- `AUX_STAT.CAUSE` [4:3] RO. -/
def AUX_STAT_CAUSE (i : Nat) : Fld :=
  { off := AUX_STAT i, lo := 3, w := 2, acc := .ro, reset := 0, kind := .hw }

/-- `AUX_STAT.ON` [2:2] RO. -/
def AUX_STAT_ON (i : Nat) : Fld :=
  { off := AUX_STAT i, lo := 2, w := 1, acc := .ro, reset := 0, kind := .hw }

/-- `AUX_STAT.LATCH` [0:0] RW. -/
def AUX_STAT_LATCH (i : Nat) : Fld :=
  { off := AUX_STAT i, lo := 0, w := 1, acc := .rw, reset := 0, kind := .trip }

/-- `AUX_COUNT.SHORTS` [31:24] RW. -/
def AUX_COUNT_SHORTS (i : Nat) : Fld :=
  { off := AUX_COUNT i, lo := 24, w := 8, acc := .rw, reset := 0, kind := .counter, coll := some (32 * AUX_COLL + 0, 8) }

/-- `AUX_COUNT.THERMAL` [23:16] RW. -/
def AUX_COUNT_THERMAL (i : Nat) : Fld :=
  { off := AUX_COUNT i, lo := 16, w := 8, acc := .rw, reset := 0, kind := .counter, coll := some (32 * AUX_COLL + 8, 8) }

/-- `AUX_COUNT.I2T_ENDS` [15:8] RW. -/
def AUX_COUNT_I2T_ENDS (i : Nat) : Fld :=
  { off := AUX_COUNT i, lo := 8, w := 8, acc := .rw, reset := 0, kind := .counter, coll := some (32 * AUX_COLL + 16, 8) }

/-- `AUX_COUNT.DROOP_HOLDS` [7:4] RW. -/
def AUX_COUNT_DROOP_HOLDS (i : Nat) : Fld :=
  { off := AUX_COUNT i, lo := 4, w := 4, acc := .rw, reset := 0, kind := .counter, coll := some (32 * AUX_COLL + 24, 8) }

/-- `AUX_COUNT.WAITS` [3:0] RW. -/
def AUX_COUNT_WAITS (i : Nat) : Fld :=
  { off := AUX_COUNT i, lo := 0, w := 4, acc := .rw, reset := 0, kind := .counter, coll := some (32 * AUX_COLL + 24, 8) }

/-- `SEQ_QUOTA.QUOTA` [15:0] RW. -/
def SEQ_QUOTA_QUOTA (i : Nat) : Fld :=
  { off := SEQ_QUOTA i, lo := 0, w := 16, acc := .rw, reset := 128 }

/-- `ACQ_REF.CFG_REJ` [15:15] W1C. -/
def ACQ_REF_CFG_REJ : Fld :=
  { off := ACQ_REF, lo := 15, w := 1, acc := .w1c, reset := 0, kind := .flag }

/-- `ACQ_REF.EXT_RANGE` [9:9] RO. -/
def ACQ_REF_EXT_RANGE : Fld :=
  { off := ACQ_REF, lo := 9, w := 1, acc := .ro, reset := 0, kind := .hw }

/-- `ACQ_REF.SETTLED` [8:8] RO. -/
def ACQ_REF_SETTLED : Fld :=
  { off := ACQ_REF, lo := 8, w := 1, acc := .ro, reset := 0, kind := .hw }

/-- `ACQ_REF.SEL` [1:0] RW. -/
def ACQ_REF_SEL : Fld :=
  { off := ACQ_REF, lo := 0, w := 2, acc := .rw, reset := 0 }

/-- `ACQ_RUN.RUNNING` [31:0] RO. -/
def ACQ_RUN_RUNNING : Fld :=
  { off := ACQ_RUN, lo := 0, w := 32, acc := .ro, reset := 0, kind := .hw }

/-- `ACQ_OVF.OVF` [31:0] W1C. -/
def ACQ_OVF_OVF : Fld :=
  { off := ACQ_OVF, lo := 0, w := 32, acc := .w1c, reset := 0, kind := .flag }

/-- `ACQ_COLL.LATE` [15:8] RC. -/
def ACQ_COLL_LATE : Fld :=
  { off := ACQ_COLL, lo := 8, w := 8, acc := .rc, reset := 0, kind := .rc }

/-- `ACQ_COLL.LOST` [7:0] RC. -/
def ACQ_COLL_LOST : Fld :=
  { off := ACQ_COLL, lo := 0, w := 8, acc := .rc, reset := 0, kind := .rc }

/-- `ACQ_URG.GO` [31:31] W1S. -/
def ACQ_URG_GO (i : Nat) : Fld :=
  { off := ACQ_URG i, lo := 31, w := 1, acc := .w1s, reset := 0 }

/-- `ACQ_URG.DONE` [30:30] RO. -/
def ACQ_URG_DONE (i : Nat) : Fld :=
  { off := ACQ_URG i, lo := 30, w := 1, acc := .ro, reset := 0, kind := .hw }

/-- `ACQ_URG.ERR` [29:29] RO. -/
def ACQ_URG_ERR (i : Nat) : Fld :=
  { off := ACQ_URG i, lo := 29, w := 1, acc := .ro, reset := 0, kind := .hw }

/-- `ACQ_URG.REJ` [28:28] W1C. -/
def ACQ_URG_REJ (i : Nat) : Fld :=
  { off := ACQ_URG i, lo := 28, w := 1, acc := .w1c, reset := 0, kind := .flag }

/-- `ACQ_URG.INPUT` [21:16] RW. -/
def ACQ_URG_INPUT (i : Nat) : Fld :=
  { off := ACQ_URG i, lo := 16, w := 6, acc := .rw, reset := 0 }

/-- `ACQ_URG.RESULT` [15:0] RO. -/
def ACQ_URG_RESULT (i : Nat) : Fld :=
  { off := ACQ_URG i, lo := 0, w := 16, acc := .ro, reset := 0, kind := .hw }

/-- `MON_THR.HIGH` [25:16] PW. -/
def MON_THR_HIGH (i : Nat) : Fld :=
  { off := MON_THR i, lo := 16, w := 10, acc := .pw, reset := 0x3FF }

/-- `MON_THR.LOW` [9:0] PW. -/
def MON_THR_LOW (i : Nat) : Fld :=
  { off := MON_THR i, lo := 0, w := 10, acc := .pw, reset := 0 }

/-- `MON_CTL.ENABLE` [31:31] RW. -/
def MON_CTL_ENABLE (i : Nat) : Fld :=
  { off := MON_CTL i, lo := 31, w := 1, acc := .rw, reset := 0 }

/-- `MON_CTL.AUTO` [30:30] RW. -/
def MON_CTL_AUTO (i : Nat) : Fld :=
  { off := MON_CTL i, lo := 30, w := 1, acc := .rw, reset := 0 }

/-- `MON_CTL.FILTER` [15:8] RW. -/
def MON_CTL_FILTER (i : Nat) : Fld :=
  { off := MON_CTL i, lo := 8, w := 8, acc := .rw, reset := 10 }

/-- `MON_STAT.VIOLATIONS` [31:24] RW. -/
def MON_STAT_VIOLATIONS (i : Nat) : Fld :=
  { off := MON_STAT i, lo := 24, w := 8, acc := .rw, reset := 0, kind := .counter, coll := some (32 * MON_COLL + 0, 8) }

/-- `MON_STAT.AUTO_SKIPS` [23:16] RW. -/
def MON_STAT_AUTO_SKIPS (i : Nat) : Fld :=
  { off := MON_STAT i, lo := 16, w := 8, acc := .rw, reset := 0, kind := .counter, coll := some (32 * MON_COLL + 8, 8) }

/-- `MON_STAT.FAIL_STEP` [9:6] RO. -/
def MON_STAT_FAIL_STEP (i : Nat) : Fld :=
  { off := MON_STAT i, lo := 6, w := 4, acc := .ro, reset := 0, kind := .hw }

/-- `MON_STAT.CFG_REJ` [5:5] W1C. -/
def MON_STAT_CFG_REJ (i : Nat) : Fld :=
  { off := MON_STAT i, lo := 5, w := 1, acc := .w1c, reset := 0, kind := .flag }

/-- `MON_STAT.EXCHANGED` [4:4] RO. -/
def MON_STAT_EXCHANGED (i : Nat) : Fld :=
  { off := MON_STAT i, lo := 4, w := 1, acc := .ro, reset := 0, kind := .hw }

/-- `MON_STAT.TEST_FAIL` [3:3] W1C. -/
def MON_STAT_TEST_FAIL (i : Nat) : Fld :=
  { off := MON_STAT i, lo := 3, w := 1, acc := .w1c, reset := 0, kind := .flag }

/-- `MON_STAT.TESTING` [2:2] RO. -/
def MON_STAT_TESTING (i : Nat) : Fld :=
  { off := MON_STAT i, lo := 2, w := 1, acc := .ro, reset := 0, kind := .hw }

/-- `MON_STAT.HIGH_VIOL` [1:1] RO. -/
def MON_STAT_HIGH_VIOL (i : Nat) : Fld :=
  { off := MON_STAT i, lo := 1, w := 1, acc := .ro, reset := 0, kind := .hw }

/-- `MON_STAT.LOW_VIOL` [0:0] RO. -/
def MON_STAT_LOW_VIOL (i : Nat) : Fld :=
  { off := MON_STAT i, lo := 0, w := 1, acc := .ro, reset := 0, kind := .hw }

/-- `MON_COLL.VIOLATIONS` [7:0] RC. -/
def MON_COLL_VIOLATIONS : Fld :=
  { off := MON_COLL, lo := 0, w := 8, acc := .rc, reset := 0, kind := .rc }

/-- `MON_COLL.AUTO_SKIPS` [15:8] RC. -/
def MON_COLL_AUTO_SKIPS : Fld :=
  { off := MON_COLL, lo := 8, w := 8, acc := .rc, reset := 0, kind := .rc }

/-- `ACQ_WP.RUNS` [31:20] RO. -/
def ACQ_WP_RUNS (i : Nat) : Fld :=
  { off := ACQ_WP i, lo := 20, w := 12, acc := .ro, reset := 0, kind := .hw }

/-- `ACQ_WP.WP` [19:0] RO. -/
def ACQ_WP_WP (i : Nat) : Fld :=
  { off := ACQ_WP i, lo := 0, w := 20, acc := .ro, reset := 0, kind := .hw }

/-- `ACQ_RP.RP` [19:0] RW. -/
def ACQ_RP_RP (i : Nat) : Fld :=
  { off := ACQ_RP i, lo := 0, w := 20, acc := .rw, reset := 0 }

/-- `ACQ_CNT.LOST` [31:16] RW. -/
def ACQ_CNT_LOST (i : Nat) : Fld :=
  { off := ACQ_CNT i, lo := 16, w := 16, acc := .rw, reset := 0, kind := .counter, coll := some (32 * ACQ_COLL + 0, 8) }

/-- `ACQ_CNT.LATE` [15:0] RW. -/
def ACQ_CNT_LATE (i : Nat) : Fld :=
  { off := ACQ_CNT i, lo := 0, w := 16, acc := .rw, reset := 0, kind := .counter, coll := some (32 * ACQ_COLL + 8, 8) }

/-- `ACQ_LMAX.MAX_LATE` [15:0] RC. -/
def ACQ_LMAX_MAX_LATE (i : Nat) : Fld :=
  { off := ACQ_LMAX i, lo := 0, w := 16, acc := .rc, reset := 0, kind := .rc }

/-- `TMR_CYCLE_LO.LO` [31:0] RO. -/
def TMR_CYCLE_LO_LO : Fld :=
  { off := TMR_CYCLE_LO, lo := 0, w := 32, acc := .ro, reset := 0, kind := .hw }

/-- `TMR_CYCLE_HI.HI` [31:0] RO. -/
def TMR_CYCLE_HI_HI : Fld :=
  { off := TMR_CYCLE_HI, lo := 0, w := 32, acc := .ro, reset := 0, kind := .hw }

/-- `TMR_START.START` [31:0] W1S. -/
def TMR_START_START : Fld :=
  { off := TMR_START, lo := 0, w := 32, acc := .w1s, reset := 0 }

/-- `TMR_STOP.STOP` [31:0] W1C. -/
def TMR_STOP_STOP : Fld :=
  { off := TMR_STOP, lo := 0, w := 32, acc := .w1c, reset := 0, kind := .flag }

/-- `TMR_STATUS.CFG_REJ` [0:0] W1C. -/
def TMR_STATUS_CFG_REJ : Fld :=
  { off := TMR_STATUS, lo := 0, w := 1, acc := .w1c, reset := 0, kind := .flag }

/-- `TMR_PIN.DIR` [15:8] RW. -/
def TMR_PIN_DIR : Fld :=
  { off := TMR_PIN, lo := 8, w := 8, acc := .rw, reset := 0 }

/-- `TMR_PIN.LEVEL` [7:0] RO. -/
def TMR_PIN_LEVEL : Fld :=
  { off := TMR_PIN, lo := 0, w := 8, acc := .ro, reset := 0, kind := .hw }

/-- `TMR_CFG.OUT_ACT` [31:30] RW. -/
def TMR_CFG_OUT_ACT (i : Nat) : Fld :=
  { off := TMR_CFG i, lo := 30, w := 2, acc := .rw, reset := 0 }

/-- `TMR_CFG.OUT_PIN` [29:27] RW. -/
def TMR_CFG_OUT_PIN (i : Nat) : Fld :=
  { off := TMR_CFG i, lo := 27, w := 3, acc := .rw, reset := 0 }

/-- `TMR_CFG.AUTO_ADD` [26:26] RW. -/
def TMR_CFG_AUTO_ADD (i : Nat) : Fld :=
  { off := TMR_CFG i, lo := 26, w := 1, acc := .rw, reset := 0 }

/-- `TMR_CFG.CLK` [25:24] RW. -/
def TMR_CFG_CLK (i : Nat) : Fld :=
  { off := TMR_CFG i, lo := 24, w := 2, acc := .rw, reset := 0 }

/-- `TMR_CFG.CAP_PRE` [23:16] RW. -/
def TMR_CFG_CAP_PRE (i : Nat) : Fld :=
  { off := TMR_CFG i, lo := 16, w := 8, acc := .rw, reset := 0 }

/-- `TMR_CFG.CAP_EDGE` [15:14] RW. -/
def TMR_CFG_CAP_EDGE (i : Nat) : Fld :=
  { off := TMR_CFG i, lo := 14, w := 2, acc := .rw, reset := 0 }

/-- `TMR_CFG.CAP_SRC` [13:8] RW. -/
def TMR_CFG_CAP_SRC (i : Nat) : Fld :=
  { off := TMR_CFG i, lo := 8, w := 6, acc := .rw, reset := 0 }

/-- `TMR_CFG.MATCH_IE` [7:7] RW. -/
def TMR_CFG_MATCH_IE (i : Nat) : Fld :=
  { off := TMR_CFG i, lo := 7, w := 1, acc := .rw, reset := 0 }

/-- `TMR_CFG.CAP_IE` [6:6] RW. -/
def TMR_CFG_CAP_IE (i : Nat) : Fld :=
  { off := TMR_CFG i, lo := 6, w := 1, acc := .rw, reset := 0 }

/-- `TMR_CLK.DIV` [31:16] RW. -/
def TMR_CLK_DIV (i : Nat) : Fld :=
  { off := TMR_CLK i, lo := 16, w := 16, acc := .rw, reset := 0 }

/-- `TMR_CLK.FILTER_N` [11:0] RW. -/
def TMR_CLK_FILTER_N (i : Nat) : Fld :=
  { off := TMR_CLK i, lo := 0, w := 12, acc := .rw, reset := 1, fix := .below 1 1 }

/-- `TMR_COUNT.COUNT` [31:0] RW. -/
def TMR_COUNT_COUNT (i : Nat) : Fld :=
  { off := TMR_COUNT i, lo := 0, w := 32, acc := .rw, reset := 0 }

/-- `TMR_CMP.CMP` [31:0] RW. -/
def TMR_CMP_CMP (i : Nat) : Fld :=
  { off := TMR_CMP i, lo := 0, w := 32, acc := .rw, reset := 0xFFFFFFFF }

/-- `TMR_INTERVAL.INTERVAL` [31:0] RW. -/
def TMR_INTERVAL_INTERVAL (i : Nat) : Fld :=
  { off := TMR_INTERVAL i, lo := 0, w := 32, acc := .rw, reset := 0 }

/-- `TMR_CAP.CAP` [31:0] RO. -/
def TMR_CAP_CAP (i : Nat) : Fld :=
  { off := TMR_CAP i, lo := 0, w := 32, acc := .ro, reset := 0, kind := .hw }

/-- `TMR_STAT.OVR` [2:2] W1C. -/
def TMR_STAT_OVR (i : Nat) : Fld :=
  { off := TMR_STAT i, lo := 2, w := 1, acc := .w1c, reset := 0, kind := .flag }

/-- `TMR_STAT.CAP` [1:1] W1C. -/
def TMR_STAT_CAP (i : Nat) : Fld :=
  { off := TMR_STAT i, lo := 1, w := 1, acc := .w1c, reset := 0, kind := .flag }

/-- `TMR_STAT.MATCH` [0:0] W1C. -/
def TMR_STAT_MATCH (i : Nat) : Fld :=
  { off := TMR_STAT i, lo := 0, w := 1, acc := .w1c, reset := 0, kind := .flag }

/-- `PE_CTRL.ENTRY` [20:16] RW. -/
def PE_CTRL_ENTRY (i : Nat) : Fld :=
  { off := PE_CTRL i, lo := 16, w := 5, acc := .rw, reset := 0 }

/-- `PE_CTRL.RUN` [0:0] RW. -/
def PE_CTRL_RUN (i : Nat) : Fld :=
  { off := PE_CTRL i, lo := 0, w := 1, acc := .rw, reset := 0 }

/-- `PE_CFG.MSB_FIRST` [31:31] RW. -/
def PE_CFG_MSB_FIRST (i : Nat) : Fld :=
  { off := PE_CFG i, lo := 31, w := 1, acc := .rw, reset := 0 }

/-- `PE_CFG.DOUT` [29:28] RW. -/
def PE_CFG_DOUT (i : Nat) : Fld :=
  { off := PE_CFG i, lo := 28, w := 2, acc := .rw, reset := 0 }

/-- `PE_CFG.DIN` [27:26] RW. -/
def PE_CFG_DIN (i : Nat) : Fld :=
  { off := PE_CFG i, lo := 26, w := 2, acc := .rw, reset := 0 }

/-- `PE_CFG.THRESH` [25:21] RW. -/
def PE_CFG_THRESH (i : Nat) : Fld :=
  { off := PE_CFG i, lo := 21, w := 5, acc := .rw, reset := 0 }

/-- `PE_CFG.PRESET` [15:8] RW. -/
def PE_CFG_PRESET (i : Nat) : Fld :=
  { off := PE_CFG i, lo := 8, w := 8, acc := .rw, reset := 0 }

/-- `PE_CFG.LEVEL_RESET` [7:4] RW. -/
def PE_CFG_LEVEL_RESET (i : Nat) : Fld :=
  { off := PE_CFG i, lo := 4, w := 4, acc := .rw, reset := 0 }

/-- `PE_CFG.DIR_RESET` [3:0] RW. -/
def PE_CFG_DIR_RESET (i : Nat) : Fld :=
  { off := PE_CFG i, lo := 0, w := 4, acc := .rw, reset := 0 }

/-- `PE_DIV.DIV` [23:0] RW. -/
def PE_DIV_DIV (i : Nat) : Fld :=
  { off := PE_DIV i, lo := 0, w := 24, acc := .rw, reset := 0x100, fix := .below 256 256 }

/-- `PE_CMP.MASK` [31:16] RW. -/
def PE_CMP_MASK (i : Nat) : Fld :=
  { off := PE_CMP i, lo := 16, w := 16, acc := .rw, reset := 0 }

/-- `PE_CMP.VALUE` [15:0] RW. -/
def PE_CMP_VALUE (i : Nat) : Fld :=
  { off := PE_CMP i, lo := 0, w := 16, acc := .rw, reset := 0 }

/-- `PE_TX.DATA` [31:0] RW. -/
def PE_TX_DATA (i : Nat) : Fld :=
  { off := PE_TX i, lo := 0, w := 32, acc := .rw, reset := 0 }

/-- `PE_RX.DATA` [31:0] RC. -/
def PE_RX_DATA (i : Nat) : Fld :=
  { off := PE_RX i, lo := 0, w := 32, acc := .rc, reset := 0, kind := .rc }

/-- `PE_STAT.PC` [31:27] RO. -/
def PE_STAT_PC (i : Nat) : Fld :=
  { off := PE_STAT i, lo := 27, w := 5, acc := .ro, reset := 0, kind := .hw }

/-- `PE_STAT.RX_LEVEL` [23:20] RO. -/
def PE_STAT_RX_LEVEL (i : Nat) : Fld :=
  { off := PE_STAT i, lo := 20, w := 4, acc := .ro, reset := 0, kind := .hw }

/-- `PE_STAT.TX_LEVEL` [19:16] RO. -/
def PE_STAT_TX_LEVEL (i : Nat) : Fld :=
  { off := PE_STAT i, lo := 16, w := 4, acc := .ro, reset := 0, kind := .hw }

/-- `PE_STAT.PIN_LEVEL` [15:12] RO. -/
def PE_STAT_PIN_LEVEL (i : Nat) : Fld :=
  { off := PE_STAT i, lo := 12, w := 4, acc := .ro, reset := 0, kind := .hw }

/-- `PE_STAT.PIN_DIR` [11:8] RO. -/
def PE_STAT_PIN_DIR (i : Nat) : Fld :=
  { off := PE_STAT i, lo := 8, w := 4, acc := .ro, reset := 0, kind := .hw }

/-- `PE_STAT.HOLDING` [5:5] RO. -/
def PE_STAT_HOLDING (i : Nat) : Fld :=
  { off := PE_STAT i, lo := 5, w := 1, acc := .ro, reset := 0, kind := .hw }

/-- `PE_STAT.CFG_REJ` [4:4] W1C. -/
def PE_STAT_CFG_REJ (i : Nat) : Fld :=
  { off := PE_STAT i, lo := 4, w := 1, acc := .w1c, reset := 0, kind := .flag }

/-- `PE_STAT.TX_OVER` [3:3] W1C. -/
def PE_STAT_TX_OVER (i : Nat) : Fld :=
  { off := PE_STAT i, lo := 3, w := 1, acc := .w1c, reset := 0, kind := .flag }

/-- `PE_STAT.RX_UNDER` [2:2] W1C. -/
def PE_STAT_RX_UNDER (i : Nat) : Fld :=
  { off := PE_STAT i, lo := 2, w := 1, acc := .w1c, reset := 0, kind := .flag }

/-- `PE_STAT.FAULT` [1:1] W1C. -/
def PE_STAT_FAULT (i : Nat) : Fld :=
  { off := PE_STAT i, lo := 1, w := 1, acc := .w1c, reset := 0, kind := .flag }

/-- `PE_STAT.STALLED` [0:0] RO. -/
def PE_STAT_STALLED (i : Nat) : Fld :=
  { off := PE_STAT i, lo := 0, w := 1, acc := .ro, reset := 0, kind := .hw }

/-- `PE_CNT.CNT` [7:0] RO. -/
def PE_CNT_CNT (i : Nat) : Fld :=
  { off := PE_CNT i, lo := 0, w := 8, acc := .ro, reset := 0, kind := .hw }

/-- `PE_SR.SR` [31:0] RO. -/
def PE_SR_SR (i : Nat) : Fld :=
  { off := PE_SR i, lo := 0, w := 32, acc := .ro, reset := 0, kind := .hw }

/-- `PE_STALLS.STALLS` [15:0] RW. -/
def PE_STALLS_STALLS (i : Nat) : Fld :=
  { off := PE_STALLS i, lo := 0, w := 16, acc := .rw, reset := 0, kind := .counter, coll := some (32 * PE_COLL + 0, 8) }

/-- `PE_COLL.STALLS` [7:0] RC. -/
def PE_COLL_STALLS : Fld :=
  { off := PE_COLL, lo := 0, w := 8, acc := .rc, reset := 0, kind := .rc }

/-- `POS_COLL.IF0` [3:0] RC. -/
def POS_COLL_IF0 : Fld :=
  { off := POS_COLL, lo := 0, w := 4, acc := .rc, reset := 0, kind := .rc }

/-- `POS_COLL.IF1` [7:4] RC. -/
def POS_COLL_IF1 : Fld :=
  { off := POS_COLL, lo := 4, w := 4, acc := .rc, reset := 0, kind := .rc }

/-- `POS_COLL.IF2` [11:8] RC. -/
def POS_COLL_IF2 : Fld :=
  { off := POS_COLL, lo := 8, w := 4, acc := .rc, reset := 0, kind := .rc }

/-- `POS_COLL.IF3` [15:12] RC. -/
def POS_COLL_IF3 : Fld :=
  { off := POS_COLL, lo := 12, w := 4, acc := .rc, reset := 0, kind := .rc }

/-- `POS_COLL.IF4` [19:16] RC. -/
def POS_COLL_IF4 : Fld :=
  { off := POS_COLL, lo := 16, w := 4, acc := .rc, reset := 0, kind := .rc }

/-- `POS_COLL.IF5` [23:20] RC. -/
def POS_COLL_IF5 : Fld :=
  { off := POS_COLL, lo := 20, w := 4, acc := .rc, reset := 0, kind := .rc }

/-- `POS_CFG.MODE` [31:29] RW. -/
def POS_CFG_MODE (i : Nat) : Fld :=
  { off := POS_CFG i, lo := 29, w := 3, acc := .rw, reset := 0 }

/-- `POS_CFG.HYST` [28:28] RW. -/
def POS_CFG_HYST (i : Nat) : Fld :=
  { off := POS_CFG i, lo := 28, w := 1, acc := .rw, reset := 1 }

/-- `POS_CFG.INVERT` [27:27] RW. -/
def POS_CFG_INVERT (i : Nat) : Fld :=
  { off := POS_CFG i, lo := 27, w := 1, acc := .rw, reset := 0 }

/-- `POS_CFG.IDX_QUAL` [26:26] RW. -/
def POS_CFG_IDX_QUAL (i : Nat) : Fld :=
  { off := POS_CFG i, lo := 26, w := 1, acc := .rw, reset := 0 }

/-- `POS_CFG.FILTER_N` [25:16] RW. -/
def POS_CFG_FILTER_N (i : Nat) : Fld :=
  { off := POS_CFG i, lo := 16, w := 10, acc := .rw, reset := 8, fix := .below 1 1 }

/-- `POS_PROTO.TICK_HALF` [29:16] RW. -/
def POS_PROTO_TICK_HALF (i : Nat) : Fld :=
  { off := POS_PROTO i, lo := 16, w := 14, acc := .rw, reset := 30 }

/-- `POS_PROTO.LEN` [15:11] RW. -/
def POS_PROTO_LEN (i : Nat) : Fld :=
  { off := POS_PROTO i, lo := 11, w := 5, acc := .rw, reset := 3 }

/-- `POS_PROTO.CRC_GRAY` [10:10] RW. -/
def POS_PROTO_CRC_GRAY (i : Nat) : Fld :=
  { off := POS_PROTO i, lo := 10, w := 1, acc := .rw, reset := 0 }

/-- `POS_PROTO.PAUSE` [9:9] RW. -/
def POS_PROTO_PAUSE (i : Nat) : Fld :=
  { off := POS_PROTO i, lo := 9, w := 1, acc := .rw, reset := 0 }

/-- `POS_PROTO.MONO` [7:0] RW. -/
def POS_PROTO_MONO (i : Nat) : Fld :=
  { off := POS_PROTO i, lo := 0, w := 8, acc := .rw, reset := 20 }

/-- `POS_COUNT.C` [31:0] RW. -/
def POS_COUNT_C (i : Nat) : Fld :=
  { off := POS_COUNT i, lo := 0, w := 32, acc := .rw, reset := 0 }

/-- `POS_RAW.R` [31:0] RO. -/
def POS_RAW_R (i : Nat) : Fld :=
  { off := POS_RAW i, lo := 0, w := 32, acc := .ro, reset := 0, kind := .hw }

/-- `POS_IDX.IDX_POS` [31:0] RO. -/
def POS_IDX_IDX_POS (i : Nat) : Fld :=
  { off := POS_IDX i, lo := 0, w := 32, acc := .ro, reset := 0, kind := .hw }

/-- `POS_IDX_TIME.IDX_TIME` [31:0] RO. -/
def POS_IDX_TIME_IDX_TIME (i : Nat) : Fld :=
  { off := POS_IDX_TIME i, lo := 0, w := 32, acc := .ro, reset := 0, kind := .hw }

/-- `POS_CMP.CMP_POS` [31:0] RW. -/
def POS_CMP_CMP_POS (i : Nat) : Fld :=
  { off := POS_CMP i, lo := 0, w := 32, acc := .rw, reset := 0 }

/-- `POS_STEP.STEP` [31:0] RW. -/
def POS_STEP_STEP (i : Nat) : Fld :=
  { off := POS_STEP i, lo := 0, w := 32, acc := .rw, reset := 0 }

/-- `POS_CMP_TIME.CMP_TIME` [31:0] RO. -/
def POS_CMP_TIME_CMP_TIME (i : Nat) : Fld :=
  { off := POS_CMP_TIME i, lo := 0, w := 32, acc := .ro, reset := 0, kind := .hw }

/-- `POS_STAT.HITS` [31:16] RW. -/
def POS_STAT_HITS (i : Nat) : Fld :=
  { off := POS_STAT i, lo := 16, w := 16, acc := .rw, reset := 0, kind := .counter, coll := some (32 * 0x2C04 + (4*i), 4) }

/-- `POS_STAT.CFG_REJ` [15:15] W1C. -/
def POS_STAT_CFG_REJ (i : Nat) : Fld :=
  { off := POS_STAT i, lo := 15, w := 1, acc := .w1c, reset := 0, kind := .flag }

/-- `POS_STAT.IDX` [14:14] W1C. -/
def POS_STAT_IDX (i : Nat) : Fld :=
  { off := POS_STAT i, lo := 14, w := 1, acc := .w1c, reset := 0, kind := .flag }

/-- `POS_STAT.CMP` [13:13] W1C. -/
def POS_STAT_CMP (i : Nat) : Fld :=
  { off := POS_STAT i, lo := 13, w := 1, acc := .w1c, reset := 0, kind := .flag }

/-- `POS_STAT.MULTI` [12:12] W1C. -/
def POS_STAT_MULTI (i : Nat) : Fld :=
  { off := POS_STAT i, lo := 12, w := 1, acc := .w1c, reset := 0, kind := .flag }

/-- `POS_STAT.LOST` [11:11] RO. -/
def POS_STAT_LOST (i : Nat) : Fld :=
  { off := POS_STAT i, lo := 11, w := 1, acc := .ro, reset := 0, kind := .hw }

/-- `POS_STAT.ERR` [10:10] W1C. -/
def POS_STAT_ERR (i : Nat) : Fld :=
  { off := POS_STAT i, lo := 10, w := 1, acc := .w1c, reset := 0, kind := .flag }

/-- `POS_STAT.DIR` [8:8] RO. -/
def POS_STAT_DIR (i : Nat) : Fld :=
  { off := POS_STAT i, lo := 8, w := 1, acc := .ro, reset := 0, kind := .hw }

/-- `POS_STAT.SENT_STATUS` [3:0] RO. -/
def POS_STAT_SENT_STATUS (i : Nat) : Fld :=
  { off := POS_STAT i, lo := 0, w := 4, acc := .ro, reset := 0, kind := .hw }

/-- `POS_CNT.ERRORS` [31:16] RW. -/
def POS_CNT_ERRORS (i : Nat) : Fld :=
  { off := POS_CNT i, lo := 16, w := 16, acc := .rw, reset := 0, kind := .counter, coll := some (32 * 0x2C04 + (4*i), 4) }

/-- `POS_CNT.IDX_COUNT` [15:0] RW. -/
def POS_CNT_IDX_COUNT (i : Nat) : Fld :=
  { off := POS_CNT i, lo := 0, w := 16, acc := .rw, reset := 0, kind := .counter, coll := some (32 * 0x2C04 + (4*i), 4) }

/-- `HL_CLIENT.LEASE` [15:8] RW. -/
def HL_CLIENT_LEASE (i : Nat) : Fld :=
  { off := HL_CLIENT i, lo := 8, w := 8, acc := .rw, reset := 0 }

/-- `HL_CLIENT.LOSS` [3:2] RW. -/
def HL_CLIENT_LOSS (i : Nat) : Fld :=
  { off := HL_CLIENT i, lo := 2, w := 2, acc := .rw, reset := 1 }

/-- `HL_CLIENT.CLASS` [1:0] RW. -/
def HL_CLIENT_CLASS (i : Nat) : Fld :=
  { off := HL_CLIENT i, lo := 0, w := 2, acc := .rw, reset := 2 }

/-- `HL_OWN.VALID` [31:31] RW. -/
def HL_OWN_VALID (i : Nat) : Fld :=
  { off := HL_OWN i, lo := 31, w := 1, acc := .rw, reset := 0 }

/-- `HL_OWN.OWNER` [7:0] RW. -/
def HL_OWN_OWNER (i : Nat) : Fld :=
  { off := HL_OWN i, lo := 0, w := 8, acc := .rw, reset := 0 }

/-- `HL_STATUS.LEVEL` [3:2] RO. -/
def HL_STATUS_LEVEL : Fld :=
  { off := HL_STATUS, lo := 2, w := 2, acc := .ro, reset := 0, kind := .hw }

/-- `HL_STATUS.LINK_LOST` [1:1] W1C. -/
def HL_STATUS_LINK_LOST : Fld :=
  { off := HL_STATUS, lo := 1, w := 1, acc := .w1c, reset := 0, kind := .flag }

/-- `HL_STATUS.CFG_REJ` [0:0] W1C. -/
def HL_STATUS_CFG_REJ : Fld :=
  { off := HL_STATUS, lo := 0, w := 1, acc := .w1c, reset := 0, kind := .flag }

/-- `HL_LOAD.MAX` [15:8] RC. -/
def HL_LOAD_MAX : Fld :=
  { off := HL_LOAD, lo := 8, w := 8, acc := .rc, reset := 0, kind := .rc }

/-- `HL_LOAD.LOAD` [7:0] RO. -/
def HL_LOAD_LOAD : Fld :=
  { off := HL_LOAD, lo := 0, w := 8, acc := .ro, reset := 0, kind := .hw }

/-- `HL_SHED_CFG.OBS_SHARE` [23:16] RW. -/
def HL_SHED_CFG_OBS_SHARE : Fld :=
  { off := HL_SHED_CFG, lo := 16, w := 8, acc := .rw, reset := 5 }

/-- `HL_SHED_CFG.SHED_TIMEOUT` [15:0] RW. -/
def HL_SHED_CFG_SHED_TIMEOUT : Fld :=
  { off := HL_SHED_CFG, lo := 0, w := 16, acc := .rw, reset := 100 }

/-- `CAN_CTRL.ENABLE` [31:31] RW. -/
def CAN_CTRL_ENABLE (i : Nat) : Fld :=
  { off := CAN_CTRL i, lo := 31, w := 1, acc := .rw, reset := 0 }

/-- `CAN_CTRL.AUTO_REC` [30:30] RW. -/
def CAN_CTRL_AUTO_REC (i : Nat) : Fld :=
  { off := CAN_CTRL i, lo := 30, w := 1, acc := .rw, reset := 1 }

/-- `CAN_CTRL.RESTART` [29:29] W1S. -/
def CAN_CTRL_RESTART (i : Nat) : Fld :=
  { off := CAN_CTRL i, lo := 29, w := 1, acc := .w1s, reset := 0 }

/-- `CAN_NBT.BRP` [31:23] RW. -/
def CAN_NBT_BRP (i : Nat) : Fld :=
  { off := CAN_NBT i, lo := 23, w := 9, acc := .rw, reset := 0 }

/-- `CAN_NBT.SEG1` [22:14] RW. -/
def CAN_NBT_SEG1 (i : Nat) : Fld :=
  { off := CAN_NBT i, lo := 14, w := 9, acc := .rw, reset := 0 }

/-- `CAN_NBT.SEG2` [13:7] RW. -/
def CAN_NBT_SEG2 (i : Nat) : Fld :=
  { off := CAN_NBT i, lo := 7, w := 7, acc := .rw, reset := 0 }

/-- `CAN_NBT.SJW` [6:0] RW. -/
def CAN_NBT_SJW (i : Nat) : Fld :=
  { off := CAN_NBT i, lo := 0, w := 7, acc := .rw, reset := 0 }

/-- `CAN_DBT.BRP` [31:27] RW. -/
def CAN_DBT_BRP (i : Nat) : Fld :=
  { off := CAN_DBT i, lo := 27, w := 5, acc := .rw, reset := 0 }

/-- `CAN_DBT.SEG1` [26:18] RW. -/
def CAN_DBT_SEG1 (i : Nat) : Fld :=
  { off := CAN_DBT i, lo := 18, w := 9, acc := .rw, reset := 0 }

/-- `CAN_DBT.SEG2` [17:11] RW. -/
def CAN_DBT_SEG2 (i : Nat) : Fld :=
  { off := CAN_DBT i, lo := 11, w := 7, acc := .rw, reset := 0 }

/-- `CAN_DBT.SJW` [10:4] RW. -/
def CAN_DBT_SJW (i : Nat) : Fld :=
  { off := CAN_DBT i, lo := 4, w := 7, acc := .rw, reset := 0 }

/-- `CAN_TDC.TDC_EN` [16:16] RW. -/
def CAN_TDC_TDC_EN (i : Nat) : Fld :=
  { off := CAN_TDC i, lo := 16, w := 1, acc := .rw, reset := 0 }

/-- `CAN_TDC.TDCO` [15:8] RW. -/
def CAN_TDC_TDCO (i : Nat) : Fld :=
  { off := CAN_TDC i, lo := 8, w := 8, acc := .rw, reset := 0 }

/-- `CAN_TDC.TDCF` [7:0] RW. -/
def CAN_TDC_TDCF (i : Nat) : Fld :=
  { off := CAN_TDC i, lo := 0, w := 8, acc := .rw, reset := 0 }

/-- `CAN_TP.BS` [15:8] RW. -/
def CAN_TP_BS (i : Nat) : Fld :=
  { off := CAN_TP i, lo := 8, w := 8, acc := .rw, reset := 0 }

/-- `CAN_TP.STMIN` [7:0] RW. -/
def CAN_TP_STMIN (i : Nat) : Fld :=
  { off := CAN_TP i, lo := 0, w := 8, acc := .rw, reset := 0 }

/-- `CAN_STAT.TEC` [31:24] RO. -/
def CAN_STAT_TEC (i : Nat) : Fld :=
  { off := CAN_STAT i, lo := 24, w := 8, acc := .ro, reset := 0, kind := .hw }

/-- `CAN_STAT.REC` [23:16] RO. -/
def CAN_STAT_REC (i : Nat) : Fld :=
  { off := CAN_STAT i, lo := 16, w := 8, acc := .ro, reset := 0, kind := .hw }

/-- `CAN_STAT.TP_ERRORS` [15:8] RW. -/
def CAN_STAT_TP_ERRORS (i : Nat) : Fld :=
  { off := CAN_STAT i, lo := 8, w := 8, acc := .rw, reset := 0, kind := .counter }

/-- `CAN_STAT.IGNORED` [7:2] RW. -/
def CAN_STAT_IGNORED (i : Nat) : Fld :=
  { off := CAN_STAT i, lo := 2, w := 6, acc := .rw, reset := 0, kind := .counter }

/-- `CAN_STAT.PASSIVE` [1:1] RO. -/
def CAN_STAT_PASSIVE (i : Nat) : Fld :=
  { off := CAN_STAT i, lo := 1, w := 1, acc := .ro, reset := 0, kind := .hw }

/-- `CAN_STAT.BUS_OFF` [0:0] RO. -/
def CAN_STAT_BUS_OFF (i : Nat) : Fld :=
  { off := CAN_STAT i, lo := 0, w := 1, acc := .ro, reset := 0, kind := .hw }

/-- `CAN_BIND.EN` [31:31] RW. -/
def CAN_BIND_EN (i : Nat) : Fld :=
  { off := CAN_BIND i, lo := 31, w := 1, acc := .rw, reset := 0 }

/-- `CAN_BIND.CTRL` [30:29] RW. -/
def CAN_BIND_CTRL (i : Nat) : Fld :=
  { off := CAN_BIND i, lo := 29, w := 2, acc := .rw, reset := 0 }

/-- `CAN_BIND.REQ_ID` [28:0] RW. -/
def CAN_BIND_REQ_ID (i : Nat) : Fld :=
  { off := CAN_BIND i, lo := 0, w := 29, acc := .rw, reset := 0 }

/-- `CAN_BINDR.IDE` [31:31] RW. -/
def CAN_BINDR_IDE (i : Nat) : Fld :=
  { off := CAN_BINDR i, lo := 31, w := 1, acc := .rw, reset := 0 }

/-- `CAN_BINDR.BRS` [30:30] RW. -/
def CAN_BINDR_BRS (i : Nat) : Fld :=
  { off := CAN_BINDR i, lo := 30, w := 1, acc := .rw, reset := 1 }

/-- `CAN_BINDR.RSP_ID` [28:0] RW. -/
def CAN_BINDR_RSP_ID (i : Nat) : Fld :=
  { off := CAN_BINDR i, lo := 0, w := 29, acc := .rw, reset := 0 }

/-- `PE_PROG.WORD` [31:0] RW. -/
def PE_PROG_WORD (i : Nat) : Fld :=
  { off := PE_PROG i, lo := 0, w := 32, acc := .rw, reset := 0 }

/-- `DMA_GRANT.VALID` [31:31] RW. -/
def DMA_GRANT_VALID (i : Nat) : Fld :=
  { off := DMA_GRANT i, lo := 31, w := 1, acc := .rw, reset := 0 }

/-- `DMA_GRANT.OWNER` [7:0] RW. -/
def DMA_GRANT_OWNER (i : Nat) : Fld :=
  { off := DMA_GRANT i, lo := 0, w := 8, acc := .rw, reset := 0 }

/-- `DMA_GSTAT.ACTIVE` [31:16] RO. -/
def DMA_GSTAT_ACTIVE : Fld :=
  { off := DMA_GSTAT, lo := 16, w := 16, acc := .ro, reset := 0, kind := .hw }

/-- `DMA_GSTAT.CFG_REJ` [0:0] W1C. -/
def DMA_GSTAT_CFG_REJ : Fld :=
  { off := DMA_GSTAT, lo := 0, w := 1, acc := .w1c, reset := 0, kind := .flag }

/-- `PWR_CTRL.GO` [31:31] W1S. -/
def PWR_CTRL_GO : Fld :=
  { off := PWR_CTRL, lo := 31, w := 1, acc := .w1s, reset := 0 }

/-- `PWR_CTRL.TARGET` [1:0] RW. -/
def PWR_CTRL_TARGET : Fld :=
  { off := PWR_CTRL, lo := 0, w := 2, acc := .rw, reset := 0 }

/-- `PWR_STATUS.STATE` [31:30] RO. -/
def PWR_STATUS_STATE : Fld :=
  { off := PWR_STATUS, lo := 30, w := 2, acc := .ro, reset := 0, kind := .hw }

/-- `PWR_STATUS.CHANGING` [29:29] RO. -/
def PWR_STATUS_CHANGING : Fld :=
  { off := PWR_STATUS, lo := 29, w := 1, acc := .ro, reset := 0, kind := .hw }

/-- `PWR_STATUS.REJ_CAUSE` [28:26] RO. -/
def PWR_STATUS_REJ_CAUSE : Fld :=
  { off := PWR_STATUS, lo := 26, w := 3, acc := .ro, reset := 0, kind := .hw }

/-- `PWR_STATUS.REQ_REJ` [25:25] W1C. -/
def PWR_STATUS_REQ_REJ : Fld :=
  { off := PWR_STATUS, lo := 25, w := 1, acc := .w1c, reset := 0, kind := .flag }

/-- `PWR_STATUS.CANCELLED` [24:24] W1C. -/
def PWR_STATUS_CANCELLED : Fld :=
  { off := PWR_STATUS, lo := 24, w := 1, acc := .w1c, reset := 0, kind := .flag }

/-- `PWR_STATUS.RET_LOST` [23:23] W1C. -/
def PWR_STATUS_RET_LOST : Fld :=
  { off := PWR_STATUS, lo := 23, w := 1, acc := .w1c, reset := 0, kind := .flag }

/-- `PWR_STATUS.CFG_REJ` [22:22] W1C. -/
def PWR_STATUS_CFG_REJ : Fld :=
  { off := PWR_STATUS, lo := 22, w := 1, acc := .w1c, reset := 0, kind := .flag }

/-- `PWR_BASE.BASE` [16:0] RW. -/
def PWR_BASE_BASE : Fld :=
  { off := PWR_BASE, lo := 0, w := 17, acc := .rw, reset := 0x1FFFF }

/-- `PWR_ON.ON` [16:0] RO. -/
def PWR_ON_ON : Fld :=
  { off := PWR_ON, lo := 0, w := 17, acc := .ro, reset := 0x1FFFF, kind := .hw }

/-- `PWR_HELD.HELD` [16:0] RO. -/
def PWR_HELD_HELD : Fld :=
  { off := PWR_HELD, lo := 0, w := 17, acc := .ro, reset := 0, kind := .hw }

/-- `PWR_WAKE_CFG.I2C_ADDR` [14:8] RW. -/
def PWR_WAKE_CFG_I2C_ADDR : Fld :=
  { off := PWR_WAKE_CFG, lo := 8, w := 7, acc := .rw, reset := 0x2A }

/-- `PWR_WAKE_CFG.EN` [3:0] RW. -/
def PWR_WAKE_CFG_EN : Fld :=
  { off := PWR_WAKE_CFG, lo := 0, w := 4, acc := .rw, reset := 15 }

/-- `PWR_ISL.LAST_WAKE` [31:28] RO. -/
def PWR_ISL_LAST_WAKE : Fld :=
  { off := PWR_ISL, lo := 28, w := 4, acc := .ro, reset := 0, kind := .hw }

/-- `PWR_ISL.PMBUS_TO` [27:27] W1C. -/
def PWR_ISL_PMBUS_TO : Fld :=
  { off := PWR_ISL, lo := 27, w := 1, acc := .w1c, reset := 0, kind := .flag }

/-- `PWR_ISL.EDGE_LOST` [15:8] RW. -/
def PWR_ISL_EDGE_LOST : Fld :=
  { off := PWR_ISL, lo := 8, w := 8, acc := .rw, reset := 0, kind := .counter, coll := some (32 * PWR_COLL + 0, 8) }

/-- `PWR_ISL.REWAKES` [7:0] RW. -/
def PWR_ISL_REWAKES : Fld :=
  { off := PWR_ISL, lo := 0, w := 8, acc := .rw, reset := 0, kind := .counter, coll := some (32 * PWR_COLL + 8, 8) }

/-- `PWR_COLL.EDGE_LOST` [7:0] RC. -/
def PWR_COLL_EDGE_LOST : Fld :=
  { off := PWR_COLL, lo := 0, w := 8, acc := .rc, reset := 0, kind := .rc }

/-- `PWR_COLL.REWAKES` [15:8] RC. -/
def PWR_COLL_REWAKES : Fld :=
  { off := PWR_COLL, lo := 8, w := 8, acc := .rc, reset := 0, kind := .rc }

/-- `RTC_TIME.WEEKDAY` [26:24] RO. -/
def RTC_TIME_WEEKDAY : Fld :=
  { off := RTC_TIME, lo := 24, w := 3, acc := .ro, reset := 5, kind := .hw }

/-- `RTC_TIME.HOUR` [20:16] RW. -/
def RTC_TIME_HOUR : Fld :=
  { off := RTC_TIME, lo := 16, w := 5, acc := .rw, reset := 0 }

/-- `RTC_TIME.MINUTE` [13:8] RW. -/
def RTC_TIME_MINUTE : Fld :=
  { off := RTC_TIME, lo := 8, w := 6, acc := .rw, reset := 0 }

/-- `RTC_TIME.SECOND` [5:0] RW. -/
def RTC_TIME_SECOND : Fld :=
  { off := RTC_TIME, lo := 0, w := 6, acc := .rw, reset := 0 }

/-- `RTC_DATE.KEEP` [31:31] RW. -/
def RTC_DATE_KEEP : Fld :=
  { off := RTC_DATE, lo := 31, w := 1, acc := .rw, reset := 0 }

/-- `RTC_DATE.YEAR` [27:16] RW. -/
def RTC_DATE_YEAR : Fld :=
  { off := RTC_DATE, lo := 16, w := 12, acc := .rw, reset := 2000 }

/-- `RTC_DATE.MONTH` [11:8] RW. -/
def RTC_DATE_MONTH : Fld :=
  { off := RTC_DATE, lo := 8, w := 4, acc := .rw, reset := 1 }

/-- `RTC_DATE.DAY` [4:0] RW. -/
def RTC_DATE_DAY : Fld :=
  { off := RTC_DATE, lo := 0, w := 5, acc := .rw, reset := 1 }

/-- `RTC_SUB.SUB` [14:0] RO. -/
def RTC_SUB_SUB : Fld :=
  { off := RTC_SUB, lo := 0, w := 15, acc := .ro, reset := 0, kind := .hw }

/-- `RTC_STATUS.SRC` [3:3] RO. -/
def RTC_STATUS_SRC : Fld :=
  { off := RTC_STATUS, lo := 3, w := 1, acc := .ro, reset := 0, kind := .hw }

/-- `RTC_STATUS.STAGED` [2:2] RO. -/
def RTC_STATUS_STAGED : Fld :=
  { off := RTC_STATUS, lo := 2, w := 1, acc := .ro, reset := 0, kind := .hw }

/-- `RTC_STATUS.WRITE_ERR` [1:1] W1C. -/
def RTC_STATUS_WRITE_ERR : Fld :=
  { off := RTC_STATUS, lo := 1, w := 1, acc := .w1c, reset := 0, kind := .flag }

/-- `RTC_STATUS.TIME_LOST` [0:0] RO. -/
def RTC_STATUS_TIME_LOST : Fld :=
  { off := RTC_STATUS, lo := 0, w := 1, acc := .ro, reset := 1, kind := .hw }

/-- `FB_STATUS.READY` [31:31] RO. -/
def FB_STATUS_READY : Fld :=
  { off := FB_STATUS, lo := 31, w := 1, acc := .ro, reset := 0, kind := .hw }

/-- `FB_STATUS.COPY_B_BAD` [30:30] RO. -/
def FB_STATUS_COPY_B_BAD : Fld :=
  { off := FB_STATUS, lo := 30, w := 1, acc := .ro, reset := 0, kind := .hw }

/-- `FB_STATUS.COPY_A_BAD` [29:29] RO. -/
def FB_STATUS_COPY_A_BAD : Fld :=
  { off := FB_STATUS, lo := 29, w := 1, acc := .ro, reset := 0, kind := .hw }

/-- `FB_STATUS.QUEUED` [8:0] RO. -/
def FB_STATUS_QUEUED : Fld :=
  { off := FB_STATUS, lo := 0, w := 9, acc := .ro, reset := 0, kind := .hw }

/-- `FB_NEWEST.SEQ_LO` [31:0] RO. -/
def FB_NEWEST_SEQ_LO : Fld :=
  { off := FB_NEWEST, lo := 0, w := 32, acc := .ro, reset := 0, kind := .hw }

/-- `FB_LOST.LOST` [15:0] RW. -/
def FB_LOST_LOST : Fld :=
  { off := FB_LOST, lo := 0, w := 16, acc := .rw, reset := 0, kind := .counter, coll := some (32 * PWR_COLL + 8, 8) }

/-- `FLT_LAST.CODE` [31:16] RO. -/
def FLT_LAST_CODE : Fld :=
  { off := FLT_LAST, lo := 16, w := 16, acc := .ro, reset := 0, kind := .hw }

/-- `FLT_LAST.CLASS` [15:12] RO. -/
def FLT_LAST_CLASS : Fld :=
  { off := FLT_LAST, lo := 12, w := 4, acc := .ro, reset := 0, kind := .hw }

/-- `FLT_LAST.SOURCE` [7:0] RO. -/
def FLT_LAST_SOURCE : Fld :=
  { off := FLT_LAST, lo := 0, w := 8, acc := .ro, reset := 0, kind := .hw }

/-- `FLT_LAST_SEQ.SEQ_LO` [31:0] RO. -/
def FLT_LAST_SEQ_SEQ_LO : Fld :=
  { off := FLT_LAST_SEQ, lo := 0, w := 32, acc := .ro, reset := 0, kind := .hw }

/-- `FLT_COUNT.INTEGRITY` [31:16] RW. -/
def FLT_COUNT_INTEGRITY : Fld :=
  { off := FLT_COUNT, lo := 16, w := 16, acc := .rw, reset := 0, kind := .counter, coll := some (32 * FLT_COLL + 8, 8) }

/-- `FLT_COUNT.TOTAL` [15:0] RW. -/
def FLT_COUNT_TOTAL : Fld :=
  { off := FLT_COUNT, lo := 0, w := 16, acc := .rw, reset := 0, kind := .counter, coll := some (32 * FLT_COLL + 0, 8) }

/-- `FLT_COLL.TOTAL` [7:0] RC. -/
def FLT_COLL_TOTAL : Fld :=
  { off := FLT_COLL, lo := 0, w := 8, acc := .rc, reset := 0, kind := .rc }

/-- `FLT_COLL.INTEGRITY` [15:8] RC. -/
def FLT_COLL_INTEGRITY : Fld :=
  { off := FLT_COLL, lo := 8, w := 8, acc := .rc, reset := 0, kind := .rc }

/-- `FLT_STATUS.TRIP_SEEN` [1:1] W1C. -/
def FLT_STATUS_TRIP_SEEN : Fld :=
  { off := FLT_STATUS, lo := 1, w := 1, acc := .w1c, reset := 0, kind := .flag }

/-- `FLT_STATUS.INTEGRITY_SEEN` [0:0] W1C. -/
def FLT_STATUS_INTEGRITY_SEEN : Fld :=
  { off := FLT_STATUS, lo := 0, w := 1, acc := .w1c, reset := 0, kind := .flag }

/-- `MOD_STATUS.SERIAL_TIE` [3:3] RO. -/
def MOD_STATUS_SERIAL_TIE : Fld :=
  { off := MOD_STATUS, lo := 3, w := 1, acc := .ro, reset := 0, kind := .hw }

/-- `MOD_STATUS.LEAVING` [2:2] RO. -/
def MOD_STATUS_LEAVING : Fld :=
  { off := MOD_STATUS, lo := 2, w := 1, acc := .ro, reset := 0, kind := .hw }

/-- `MOD_STATUS.LEAVE` [1:1] RO. -/
def MOD_STATUS_LEAVE : Fld :=
  { off := MOD_STATUS, lo := 1, w := 1, acc := .ro, reset := 0, kind := .hw }

/-- `MOD_STATUS.SEATED` [0:0] RO. -/
def MOD_STATUS_SEATED : Fld :=
  { off := MOD_STATUS, lo := 0, w := 1, acc := .ro, reset := 0, kind := .hw }

/-- `CLI_SEQ_USE.USED` [15:0] RO. -/
def CLI_SEQ_USE_USED (n : Nat) : Fld :=
  { off := CLI_SEQ_USE n, lo := 0, w := 16, acc := .ro, reset := 0, kind := .hw }

/-- `CLI_BANK.INHIBIT` [8:8] RO. -/
def CLI_BANK_INHIBIT (n : Nat) : Fld :=
  { off := CLI_BANK n, lo := 8, w := 1, acc := .ro, reset := 0, kind := .hw }

/-- `CLI_BANK.ASTERN_PEND` [5:5] RO. -/
def CLI_BANK_ASTERN_PEND (n : Nat) : Fld :=
  { off := CLI_BANK n, lo := 5, w := 1, acc := .ro, reset := 0, kind := .hw }

/-- `CLI_BANK.AHEAD_PEND` [4:4] RO. -/
def CLI_BANK_AHEAD_PEND (n : Nat) : Fld :=
  { off := CLI_BANK n, lo := 4, w := 1, acc := .ro, reset := 0, kind := .hw }

/-- `CLI_BANK.ASTERN_ACTIVE` [1:1] RO. -/
def CLI_BANK_ASTERN_ACTIVE (n : Nat) : Fld :=
  { off := CLI_BANK n, lo := 1, w := 1, acc := .ro, reset := 0, kind := .hw }

/-- `CLI_BANK.AHEAD_ACTIVE` [0:0] RO. -/
def CLI_BANK_AHEAD_ACTIVE (n : Nat) : Fld :=
  { off := CLI_BANK n, lo := 0, w := 1, acc := .ro, reset := 0, kind := .hw }

/-- `CLI_SWITCH_AHEAD.CYCLE` [31:0] RO. -/
def CLI_SWITCH_AHEAD_CYCLE (n : Nat) : Fld :=
  { off := CLI_SWITCH_AHEAD n, lo := 0, w := 32, acc := .ro, reset := 0, kind := .hw }

/-- `CLI_SWITCH_ASTERN.CYCLE` [31:0] RO. -/
def CLI_SWITCH_ASTERN_CYCLE (n : Nat) : Fld :=
  { off := CLI_SWITCH_ASTERN n, lo := 0, w := 32, acc := .ro, reset := 0, kind := .hw }

/-- `CLI_PWR_VOTE.VOTE` [16:0] RW. -/
def CLI_PWR_VOTE_VOTE (n : Nat) : Fld :=
  { off := CLI_PWR_VOTE n, lo := 0, w := 17, acc := .rw, reset := 0 }

/-- `CLI_REG_STATUS.PW_REJECTS` [31:16] RW. -/
def CLI_REG_STATUS_PW_REJECTS (n : Nat) : Fld :=
  { off := CLI_REG_STATUS n, lo := 16, w := 16, acc := .rw, reset := 0, kind := .counter, coll := some (32 * (CLI_REG_COLL n) + 0, 8) }

/-- `CLI_REG_STATUS.PW_PEND` [4:4] RO. -/
def CLI_REG_STATUS_PW_PEND (n : Nat) : Fld :=
  { off := CLI_REG_STATUS n, lo := 4, w := 1, acc := .ro, reset := 0, kind := .hw }

/-- `CLI_REG_STATUS.PARTIAL` [3:3] W1C. -/
def CLI_REG_STATUS_PARTIAL (n : Nat) : Fld :=
  { off := CLI_REG_STATUS n, lo := 3, w := 1, acc := .w1c, reset := 0, kind := .flag }

/-- `CLI_REG_STATUS.UNMAPPED` [2:2] W1C. -/
def CLI_REG_STATUS_UNMAPPED (n : Nat) : Fld :=
  { off := CLI_REG_STATUS n, lo := 2, w := 1, acc := .w1c, reset := 0, kind := .flag }

/-- `CLI_REG_STATUS.PW_REJ` [0:0] W1C. -/
def CLI_REG_STATUS_PW_REJ (n : Nat) : Fld :=
  { off := CLI_REG_STATUS n, lo := 0, w := 1, acc := .w1c, reset := 0, kind := .flag }

/-- `CLI_PW_LAST.CAUSE` [17:16] RO. -/
def CLI_PW_LAST_CAUSE (n : Nat) : Fld :=
  { off := CLI_PW_LAST n, lo := 16, w := 2, acc := .ro, reset := 0, kind := .hw }

/-- `CLI_PW_LAST.OFFSET` [15:0] RO. -/
def CLI_PW_LAST_OFFSET (n : Nat) : Fld :=
  { off := CLI_PW_LAST n, lo := 0, w := 16, acc := .ro, reset := 0, kind := .hw }

/-- `CLI_REG_COLL.PW_REJECTS` [7:0] RC. -/
def CLI_REG_COLL_PW_REJECTS (n : Nat) : Fld :=
  { off := CLI_REG_COLL n, lo := 0, w := 8, acc := .rc, reset := 0, kind := .rc }

/-- `CLI_REQ_BASE_LO.ADDR` [31:6] RW. -/
def CLI_REQ_BASE_LO_ADDR (n : Nat) : Fld :=
  { off := CLI_REQ_BASE_LO n, lo := 6, w := 26, acc := .rw, reset := 0 }

/-- `CLI_REQ_BASE_HI.ADDR` [31:0] RW. -/
def CLI_REQ_BASE_HI_ADDR (n : Nat) : Fld :=
  { off := CLI_REQ_BASE_HI n, lo := 0, w := 32, acc := .rw, reset := 0 }

/-- `CLI_RSP_BASE_LO.ADDR` [31:6] RW. -/
def CLI_RSP_BASE_LO_ADDR (n : Nat) : Fld :=
  { off := CLI_RSP_BASE_LO n, lo := 6, w := 26, acc := .rw, reset := 0 }

/-- `CLI_RSP_BASE_HI.ADDR` [31:0] RW. -/
def CLI_RSP_BASE_HI_ADDR (n : Nat) : Fld :=
  { off := CLI_RSP_BASE_HI n, lo := 0, w := 32, acc := .rw, reset := 0 }

/-- `CLI_FLT_BASE_LO.ADDR` [31:6] RW. -/
def CLI_FLT_BASE_LO_ADDR (n : Nat) : Fld :=
  { off := CLI_FLT_BASE_LO n, lo := 6, w := 26, acc := .rw, reset := 0 }

/-- `CLI_FLT_BASE_HI.ADDR` [31:0] RW. -/
def CLI_FLT_BASE_HI_ADDR (n : Nat) : Fld :=
  { off := CLI_FLT_BASE_HI n, lo := 0, w := 32, acc := .rw, reset := 0 }

/-- `CLI_SHADOW_LO.ADDR` [31:3] RW. -/
def CLI_SHADOW_LO_ADDR (n : Nat) : Fld :=
  { off := CLI_SHADOW_LO n, lo := 3, w := 29, acc := .rw, reset := 0 }

/-- `CLI_SHADOW_HI.ADDR` [31:0] RW. -/
def CLI_SHADOW_HI_ADDR (n : Nat) : Fld :=
  { off := CLI_SHADOW_HI n, lo := 0, w := 32, acc := .rw, reset := 0 }

/-- `CLI_RING_CFG.ENABLE` [31:31] RW. -/
def CLI_RING_CFG_ENABLE (n : Nat) : Fld :=
  { off := CLI_RING_CFG n, lo := 31, w := 1, acc := .rw, reset := 0 }

/-- `CLI_RING_CFG.SHADOW_EN` [30:30] RW. -/
def CLI_RING_CFG_SHADOW_EN (n : Nat) : Fld :=
  { off := CLI_RING_CFG n, lo := 30, w := 1, acc := .rw, reset := 0 }

/-- `CLI_RING_CFG.FLT_EN` [29:29] RW. -/
def CLI_RING_CFG_FLT_EN (n : Nat) : Fld :=
  { off := CLI_RING_CFG n, lo := 29, w := 1, acc := .rw, reset := 0 }

/-- `CLI_RING_CFG.FLT_LOG2` [11:8] RW. -/
def CLI_RING_CFG_FLT_LOG2 (n : Nat) : Fld :=
  { off := CLI_RING_CFG n, lo := 8, w := 4, acc := .rw, reset := 4 }

/-- `CLI_RING_CFG.RSP_LOG2` [7:4] RW. -/
def CLI_RING_CFG_RSP_LOG2 (n : Nat) : Fld :=
  { off := CLI_RING_CFG n, lo := 4, w := 4, acc := .rw, reset := 4 }

/-- `CLI_RING_CFG.REQ_LOG2` [3:0] RW. -/
def CLI_RING_CFG_REQ_LOG2 (n : Nat) : Fld :=
  { off := CLI_RING_CFG n, lo := 0, w := 4, acc := .rw, reset := 4 }

/-- `CLI_REQ_TAIL.TAIL` [11:0] RW. -/
def CLI_REQ_TAIL_TAIL (n : Nat) : Fld :=
  { off := CLI_REQ_TAIL n, lo := 0, w := 12, acc := .rw, reset := 0 }

/-- `CLI_REQ_HEAD.HEAD` [11:0] RO. -/
def CLI_REQ_HEAD_HEAD (n : Nat) : Fld :=
  { off := CLI_REQ_HEAD n, lo := 0, w := 12, acc := .ro, reset := 0, kind := .hw }

/-- `CLI_REQ_RESUME.INDEX` [11:0] RW. -/
def CLI_REQ_RESUME_INDEX (n : Nat) : Fld :=
  { off := CLI_REQ_RESUME n, lo := 0, w := 12, acc := .rw, reset := 0 }

/-- `CLI_RSP_TAIL.PHASE` [12:12] RO. -/
def CLI_RSP_TAIL_PHASE (n : Nat) : Fld :=
  { off := CLI_RSP_TAIL n, lo := 12, w := 1, acc := .ro, reset := 1, kind := .hw }

/-- `CLI_RSP_TAIL.TAIL` [11:0] RO. -/
def CLI_RSP_TAIL_TAIL (n : Nat) : Fld :=
  { off := CLI_RSP_TAIL n, lo := 0, w := 12, acc := .ro, reset := 0, kind := .hw }

/-- `CLI_RSP_HEAD.HEAD` [11:0] RW. -/
def CLI_RSP_HEAD_HEAD (n : Nat) : Fld :=
  { off := CLI_RSP_HEAD n, lo := 0, w := 12, acc := .rw, reset := 0 }

/-- `CLI_FLT_TAIL.PHASE` [12:12] RO. -/
def CLI_FLT_TAIL_PHASE (n : Nat) : Fld :=
  { off := CLI_FLT_TAIL n, lo := 12, w := 1, acc := .ro, reset := 1, kind := .hw }

/-- `CLI_FLT_TAIL.TAIL` [11:0] RO. -/
def CLI_FLT_TAIL_TAIL (n : Nat) : Fld :=
  { off := CLI_FLT_TAIL n, lo := 0, w := 12, acc := .ro, reset := 0, kind := .hw }

/-- `CLI_FLT_HEAD.HEAD` [11:0] RW. -/
def CLI_FLT_HEAD_HEAD (n : Nat) : Fld :=
  { off := CLI_FLT_HEAD n, lo := 0, w := 12, acc := .rw, reset := 0 }

/-- `CLI_HL_STATUS.VERSION` [23:16] RO. -/
def CLI_HL_STATUS_VERSION (n : Nat) : Fld :=
  { off := CLI_HL_STATUS n, lo := 16, w := 8, acc := .ro, reset := 0, kind := .hw }

/-- `CLI_HL_STATUS.SESSION` [13:13] RO. -/
def CLI_HL_STATUS_SESSION (n : Nat) : Fld :=
  { off := CLI_HL_STATUS n, lo := 13, w := 1, acc := .ro, reset := 0, kind := .hw }

/-- `CLI_HL_STATUS.REQ_HALT` [12:12] RO. -/
def CLI_HL_STATUS_REQ_HALT (n : Nat) : Fld :=
  { off := CLI_HL_STATUS n, lo := 12, w := 1, acc := .ro, reset := 0, kind := .hw }

/-- `CLI_HL_STATUS.MP_SAT` [11:11] RO. -/
def CLI_HL_STATUS_MP_SAT (n : Nat) : Fld :=
  { off := CLI_HL_STATUS n, lo := 11, w := 1, acc := .ro, reset := 0, kind := .hw }

/-- `CLI_HL_STATUS.CAN_BOUND` [10:10] RO. -/
def CLI_HL_STATUS_CAN_BOUND (n : Nat) : Fld :=
  { off := CLI_HL_STATUS n, lo := 10, w := 1, acc := .ro, reset := 0, kind := .hw }

/-- `CLI_HL_STATUS.NOTICE_OVF` [9:9] W1C. -/
def CLI_HL_STATUS_NOTICE_OVF (n : Nat) : Fld :=
  { off := CLI_HL_STATUS n, lo := 9, w := 1, acc := .w1c, reset := 0, kind := .flag }

/-- `CLI_HL_STATUS.RING_ERR` [8:8] W1C. -/
def CLI_HL_STATUS_RING_ERR (n : Nat) : Fld :=
  { off := CLI_HL_STATUS n, lo := 8, w := 1, acc := .w1c, reset := 0, kind := .flag }

/-- `CLI_HL_STATUS.CFG_REJ` [7:7] W1C. -/
def CLI_HL_STATUS_CFG_REJ (n : Nat) : Fld :=
  { off := CLI_HL_STATUS n, lo := 7, w := 1, acc := .w1c, reset := 0, kind := .flag }

/-- `CLI_HL_STATUS.SESSION_LOST` [6:6] W1C. -/
def CLI_HL_STATUS_SESSION_LOST (n : Nat) : Fld :=
  { off := CLI_HL_STATUS n, lo := 6, w := 1, acc := .w1c, reset := 0, kind := .flag }

/-- `CLI_HL_COUNT.REFUSED` [31:16] RW. -/
def CLI_HL_COUNT_REFUSED (n : Nat) : Fld :=
  { off := CLI_HL_COUNT n, lo := 16, w := 16, acc := .rw, reset := 0, kind := .counter, coll := some (32 * (CLI_HL_COLL n) + 8, 8) }

/-- `CLI_HL_COUNT.LOST` [15:0] RW. -/
def CLI_HL_COUNT_LOST (n : Nat) : Fld :=
  { off := CLI_HL_COUNT n, lo := 0, w := 16, acc := .rw, reset := 0, kind := .counter, coll := some (32 * (CLI_HL_COLL n) + 0, 8) }

/-- `CLI_KEEPALIVE.KICK` [0:0] W1S. -/
def CLI_KEEPALIVE_KICK (n : Nat) : Fld :=
  { off := CLI_KEEPALIVE n, lo := 0, w := 1, acc := .w1s, reset := 0 }

/-- `CLI_HL_COLL.REFUSED` [15:8] RC. -/
def CLI_HL_COLL_REFUSED (n : Nat) : Fld :=
  { off := CLI_HL_COLL n, lo := 8, w := 8, acc := .rc, reset := 0, kind := .rc }

/-- `CLI_HL_COLL.LOST` [7:0] RC. -/
def CLI_HL_COLL_LOST (n : Nat) : Fld :=
  { off := CLI_HL_COLL n, lo := 0, w := 8, acc := .rc, reset := 0, kind := .rc }

/-- `CLI_MSIX_COAL.TIME` [31:16] RW. -/
def CLI_MSIX_COAL_TIME (n : Nat) (i : Nat) : Fld :=
  { off := CLI_MSIX_COAL n i, lo := 16, w := 16, acc := .rw, reset := 100, fix := .below 1 1 }

/-- `CLI_MSIX_COAL.COUNT` [7:0] RW. -/
def CLI_MSIX_COAL_COUNT (n : Nat) (i : Nat) : Fld :=
  { off := CLI_MSIX_COAL n i, lo := 0, w := 8, acc := .rw, reset := 1, fix := .below 1 1 }

/-- `CLI_MSIX_LO.ADDR` [31:0] RW. -/
def CLI_MSIX_LO_ADDR (n : Nat) (i : Nat) : Fld :=
  { off := CLI_MSIX_LO n i, lo := 0, w := 32, acc := .rw, reset := 0 }

/-- `CLI_MSIX_HI.ADDR` [31:0] RW. -/
def CLI_MSIX_HI_ADDR (n : Nat) (i : Nat) : Fld :=
  { off := CLI_MSIX_HI n i, lo := 0, w := 32, acc := .rw, reset := 0 }

/-- `CLI_MSIX_DATA.DATA` [31:0] RW. -/
def CLI_MSIX_DATA_DATA (n : Nat) (i : Nat) : Fld :=
  { off := CLI_MSIX_DATA n i, lo := 0, w := 32, acc := .rw, reset := 0 }

/-- `CLI_MSIX_CTRL.MASK` [0:0] RW. -/
def CLI_MSIX_CTRL_MASK (n : Nat) (i : Nat) : Fld :=
  { off := CLI_MSIX_CTRL n i, lo := 0, w := 1, acc := .rw, reset := 1 }

/-- `CLI_MSIX_PBA.PEND` [7:0] RO. -/
def CLI_MSIX_PBA_PEND (n : Nat) : Fld :=
  { off := CLI_MSIX_PBA n, lo := 0, w := 8, acc := .ro, reset := 0, kind := .hw }

/-- `CLI_MSIX_PBAH.PEND` [31:0] RO. -/
def CLI_MSIX_PBAH_PEND (n : Nat) : Fld :=
  { off := CLI_MSIX_PBAH n, lo := 0, w := 32, acc := .ro, reset := 0, kind := .hw }

/-- `DMA_SRC.SRC_MODE` [31:31] RW. -/
def DMA_SRC_SRC_MODE (i : Nat) : Fld :=
  { off := DMA_SRC i, lo := 31, w := 1, acc := .rw, reset := 0 }

/-- `DMA_SRC.LIST` [30:26] RW. -/
def DMA_SRC_LIST (i : Nat) : Fld :=
  { off := DMA_SRC i, lo := 26, w := 5, acc := .rw, reset := 0 }

/-- `DMA_SRC.SRC_OFF` [19:0] RW. -/
def DMA_SRC_SRC_OFF (i : Nat) : Fld :=
  { off := DMA_SRC i, lo := 0, w := 20, acc := .rw, reset := 0 }

/-- `DMA_DST_LO.DST` [31:0] RW. -/
def DMA_DST_LO_DST (i : Nat) : Fld :=
  { off := DMA_DST_LO i, lo := 0, w := 32, acc := .rw, reset := 0 }

/-- `DMA_DST_HI.DST` [31:0] RW. -/
def DMA_DST_HI_DST (i : Nat) : Fld :=
  { off := DMA_DST_HI i, lo := 0, w := 32, acc := .rw, reset := 0 }

/-- `DMA_LEN.LEN` [20:0] RW. -/
def DMA_LEN_LEN (i : Nat) : Fld :=
  { off := DMA_LEN i, lo := 0, w := 21, acc := .rw, reset := 0 }

/-- `DMA_SHUF.SHUF_EN` [31:31] RW. -/
def DMA_SHUF_SHUF_EN (i : Nat) : Fld :=
  { off := DMA_SHUF i, lo := 31, w := 1, acc := .rw, reset := 0 }

/-- `DMA_SHUF.WAYS` [27:24] RW. -/
def DMA_SHUF_WAYS (i : Nat) : Fld :=
  { off := DMA_SHUF i, lo := 24, w := 4, acc := .rw, reset := 0 }

/-- `DMA_SHUF.ELEM` [23:23] RW. -/
def DMA_SHUF_ELEM (i : Nat) : Fld :=
  { off := DMA_SHUF i, lo := 23, w := 1, acc := .rw, reset := 0 }

/-- `DMA_SHUF.STRIDE` [19:0] RW. -/
def DMA_SHUF_STRIDE (i : Nat) : Fld :=
  { off := DMA_SHUF i, lo := 0, w := 20, acc := .rw, reset := 0 }

/-- `DMA_STAT_LO.STAT_ADDR` [31:0] RW. -/
def DMA_STAT_LO_STAT_ADDR (i : Nat) : Fld :=
  { off := DMA_STAT_LO i, lo := 0, w := 32, acc := .rw, reset := 0 }

/-- `DMA_STAT_HI.STAT_ADDR` [31:0] RW. -/
def DMA_STAT_HI_STAT_ADDR (i : Nat) : Fld :=
  { off := DMA_STAT_HI i, lo := 0, w := 32, acc := .rw, reset := 0 }

/-- `DMA_CTRL.START` [31:31] W1S. -/
def DMA_CTRL_START (i : Nat) : Fld :=
  { off := DMA_CTRL i, lo := 31, w := 1, acc := .w1s, reset := 0 }

/-- `DMA_CTRL.ABORT` [30:30] W1S. -/
def DMA_CTRL_ABORT (i : Nat) : Fld :=
  { off := DMA_CTRL i, lo := 30, w := 1, acc := .w1s, reset := 0 }

/-- `DMA_CTRL.IE` [29:29] RW. -/
def DMA_CTRL_IE (i : Nat) : Fld :=
  { off := DMA_CTRL i, lo := 29, w := 1, acc := .rw, reset := 0 }

/-- `DMA_CTRL.RETRY_N` [18:16] RW. -/
def DMA_CTRL_RETRY_N (i : Nat) : Fld :=
  { off := DMA_CTRL i, lo := 16, w := 3, acc := .rw, reset := 3 }

/-- `DMA_CTRL.TAG` [15:0] RW. -/
def DMA_CTRL_TAG (i : Nat) : Fld :=
  { off := DMA_CTRL i, lo := 0, w := 16, acc := .rw, reset := 0 }

/-- `DMA_STATUS.STATE` [31:29] RO. -/
def DMA_STATUS_STATE (i : Nat) : Fld :=
  { off := DMA_STATUS i, lo := 29, w := 3, acc := .ro, reset := 0, kind := .hw }

/-- `DMA_STATUS.END` [28:25] RO. -/
def DMA_STATUS_END (i : Nat) : Fld :=
  { off := DMA_STATUS i, lo := 25, w := 4, acc := .ro, reset := 0, kind := .hw }

/-- `DMA_STATUS.CFG_REJ` [24:24] W1C. -/
def DMA_STATUS_CFG_REJ (i : Nat) : Fld :=
  { off := DMA_STATUS i, lo := 24, w := 1, acc := .w1c, reset := 0, kind := .flag }

/-- `DMA_STATUS.RETRIES` [23:21] RO. -/
def DMA_STATUS_RETRIES (i : Nat) : Fld :=
  { off := DMA_STATUS i, lo := 21, w := 3, acc := .ro, reset := 0, kind := .hw }

/-- `DMA_RESIDUE.RESIDUE` [20:0] RO. -/
def DMA_RESIDUE_RESIDUE (i : Nat) : Fld :=
  { off := DMA_RESIDUE i, lo := 0, w := 21, acc := .ro, reset := 0, kind := .hw }

/-- `DMA_RUNS.RUNS` [19:0] RO. -/
def DMA_RUNS_RUNS (i : Nat) : Fld :=
  { off := DMA_RUNS i, lo := 0, w := 20, acc := .ro, reset := 0, kind := .hw }

/-- `INTC_CTRL.RAW` [0:0] RW. -/
def INTC_CTRL_RAW : Fld :=
  { off := INTC_CTRL, lo := 0, w := 1, acc := .rw, reset := 1 }

/-- `INTC_HOLD.HOLD` [4:0] RO. -/
def INTC_HOLD_HOLD : Fld :=
  { off := INTC_HOLD, lo := 0, w := 5, acc := .ro, reset := 0, kind := .hw }

/-- `INTC_HOLD_SET.SET` [4:0] W1S. -/
def INTC_HOLD_SET_SET : Fld :=
  { off := INTC_HOLD_SET, lo := 0, w := 5, acc := .w1s, reset := 0 }

/-- `INTC_HOLD_CLR.CLR` [4:0] W1C. -/
def INTC_HOLD_CLR_CLR : Fld :=
  { off := INTC_HOLD_CLR, lo := 0, w := 5, acc := .w1c, reset := 0, kind := .flag }

/-- `INTC_IGNORED.COUNT` [15:0] RW. -/
def INTC_IGNORED_COUNT : Fld :=
  { off := INTC_IGNORED, lo := 0, w := 16, acc := .rw, reset := 0, kind := .counter, coll := some (32 * INTC_COLL + 0, 8) }

/-- `INTC_COLL.IGNORED` [7:0] RC. -/
def INTC_COLL_IGNORED : Fld :=
  { off := INTC_COLL, lo := 0, w := 8, acc := .rc, reset := 0, kind := .rc }

/-- `INTC_CLAIM.SOURCE` [8:0] RC. -/
def INTC_CLAIM_SOURCE (i : Nat) : Fld :=
  { off := INTC_CLAIM i, lo := 0, w := 9, acc := .rc, reset := 0, kind := .rc }

/-- `INTC_COMPLETE.SOURCE` [8:0] RW. -/
def INTC_COMPLETE_SOURCE (i : Nat) : Fld :=
  { off := INTC_COMPLETE i, lo := 0, w := 9, acc := .rw, reset := 0 }

/-- `INTC_CUR.CUR` [3:0] RO. -/
def INTC_CUR_CUR (i : Nat) : Fld :=
  { off := INTC_CUR i, lo := 0, w := 4, acc := .ro, reset := 0, kind := .hw }

/-- `INTC_THRESH.THRESH` [3:0] RW. -/
def INTC_THRESH_THRESH (i : Nat) : Fld :=
  { off := INTC_THRESH i, lo := 0, w := 4, acc := .rw, reset := 0 }

/-- `INTC_EN.EN` [31:0] RW. -/
def INTC_EN_EN (i : Nat) : Fld :=
  { off := INTC_EN i, lo := 0, w := 32, acc := .rw, reset := 0, kind := .trip }

/-- `INTC_EN_SET.SOURCE` [8:0] W1S. -/
def INTC_EN_SET_SOURCE : Fld :=
  { off := INTC_EN_SET, lo := 0, w := 9, acc := .w1s, reset := 0 }

/-- `INTC_EN_CLR.SOURCE` [8:0] W1S. -/
def INTC_EN_CLR_SOURCE : Fld :=
  { off := INTC_EN_CLR, lo := 0, w := 9, acc := .w1s, reset := 0 }

/-- `INTC_PEND.PEND` [31:0] RO. -/
def INTC_PEND_PEND (i : Nat) : Fld :=
  { off := INTC_PEND i, lo := 0, w := 32, acc := .ro, reset := 0, kind := .hw }

/-- `INTC_ACT.ACT` [31:0] RO. -/
def INTC_ACT_ACT (i : Nat) : Fld :=
  { off := INTC_ACT i, lo := 0, w := 32, acc := .ro, reset := 0, kind := .hw }

/-- `INTC_SRC.PRIO` [31:28] RW. -/
def INTC_SRC_PRIO (i : Nat) : Fld :=
  { off := INTC_SRC i, lo := 28, w := 4, acc := .rw, reset := 0 }

/-- `INTC_SRC.TARGETS` [27:24] RW. -/
def INTC_SRC_TARGETS (i : Nat) : Fld :=
  { off := INTC_SRC i, lo := 24, w := 4, acc := .rw, reset := 15 }

/-- `INTC_SRC.TYPE` [23:23] RW. -/
def INTC_SRC_TYPE (i : Nat) : Fld :=
  { off := INTC_SRC i, lo := 23, w := 1, acc := .rw, reset := 0 }

/-- `INTC_SRC.ONESHOT` [22:22] RW. -/
def INTC_SRC_ONESHOT (i : Nat) : Fld :=
  { off := INTC_SRC i, lo := 22, w := 1, acc := .rw, reset := 0 }

/-- `INTC_SRC.GROUP` [20:16] RW. -/
def INTC_SRC_GROUP (i : Nat) : Fld :=
  { off := INTC_SRC i, lo := 16, w := 5, acc := .rw, reset := 0 }

/-- `INTC_GRP.TIME` [31:16] RW. -/
def INTC_GRP_TIME (i : Nat) : Fld :=
  { off := INTC_GRP i, lo := 16, w := 16, acc := .rw, reset := 100, fix := .below 1 1 }

/-- `INTC_GRP.PEND_COUNT` [15:8] RO. -/
def INTC_GRP_PEND_COUNT (i : Nat) : Fld :=
  { off := INTC_GRP i, lo := 8, w := 8, acc := .ro, reset := 0, kind := .hw }

/-- `INTC_GRP.COUNT` [7:0] RW. -/
def INTC_GRP_COUNT (i : Nat) : Fld :=
  { off := INTC_GRP i, lo := 0, w := 8, acc := .rw, reset := 1, fix := .below 1 1 }



/-- The fields of the register at offset `o` of the global window; none where no register stands. -/
def globalFields0 (o : Nat) : List Fld :=
  if o == 0x0 then [ GLB_IDENT_PART, GLB_IDENT_VARIANT, GLB_IDENT_STEPPING ] else
  if o == 0x4 then [ GLB_FW_VERSION_MAJOR, GLB_FW_VERSION_MINOR, GLB_FW_VERSION_PATCH, GLB_FW_VERSION_IMAGE ] else
  if o == 0x10 then [ GLB_BOOT_FW_READY, GLB_BOOT_CRANK_READY, GLB_BOOT_SWAP_PEND, GLB_BOOT_FALLBACK, GLB_BOOT_STARTREC_OK, GLB_BOOT_PREF_IMAGE, GLB_BOOT_B_VALID, GLB_BOOT_A_VALID, GLB_BOOT_RESET_CAUSE, GLB_BOOT_BOOT_MS ] else
  if o == 0x14 then [ GLB_ROLLBACK_COUNTER, GLB_ROLLBACK_B_INDEX, GLB_ROLLBACK_A_INDEX ] else
  if o == 0x18 then [ GLB_SERIAL_LO_SERIAL ] else
  if o == 0x1C then [ GLB_SERIAL_HI_SERIAL ] else
  if o == 0x100 then [ SEQ_PACE_OVR_FAULT, SEQ_PACE_WINDOW_COUNT, SEQ_PACE_OVERRUN ] else
  if o == 0x104 then [ SEQ_PACE_COLL_OVERRUN ] else
  if o == 0x108 then [ SEQ_CFG_REVIEW_D, SEQ_CFG_DEF_LATE ] else
  if o == 0x10C then [ SEQ_STATUS_CFG_REJ, SEQ_STATUS_NEAR_FULL, SEQ_STATUS_BACKLOG, SEQ_STATUS_ACTIVE ] else
  if o == 0x110 then [ SEQ_CYCLE_CYCLE ] else
  if o == 0x114 then [ SEQ_OCC_ANGLE_DEEPEST, SEQ_OCC_ANGLE_COUNT ] else
  if o == 0x118 then [ SEQ_OCC_FINE_DEEPEST, SEQ_OCC_FINE_COUNT ] else
  if o == 0x11C then [ SEQ_OCC_COARSE_DEEPEST, SEQ_OCC_COARSE_COUNT ] else
  if o == 0x120 then [ SEQ_DEEP_IDX0_FINE, SEQ_DEEP_IDX0_ANGLE ] else
  if o == 0x124 then [ SEQ_DEEP_IDX1_COARSE ] else
  if o == 0x128 then [ SEQ_NEAR_PAIR3, SEQ_NEAR_PAIR2, SEQ_NEAR_PAIR1, SEQ_NEAR_PAIR0 ] else
  if o == 0x12C then [ SEQ_EVT_CNT0_LATE, SEQ_EVT_CNT0_DROPPED ] else
  if o == 0x130 then [ SEQ_EVT_CNT1_DISPLACED, SEQ_EVT_CNT1_SUPPRESSED ] else
  if o == 0x134 then [ SEQ_EVT_CNT2_CUT, SEQ_EVT_CNT2_BACKLOG ] else
  if o == 0x138 then [ SEQ_COLL0_LATE, SEQ_COLL0_DROPPED, SEQ_COLL0_DISPLACED, SEQ_COLL0_SUPPRESSED ] else
  if o == 0x13C then [ SEQ_COLL1_CUT, SEQ_COLL1_BACKLOG, SEQ_COLL1_CORRECTED, SEQ_COLL1_UNCORRECTED ] else
  if o == 0x140 then [ SEQ_MAX_LATE_MAX ] else
  if o == 0x144 then [ SEQ_ECC_CORRECTED, SEQ_ECC_UNCORRECTED ] else
  []

/-- Part 1 of the global window's map. -/
def globalFields1 (o : Nat) : List Fld :=
  if inArr o 0x180 16 4 then [ PLS_CTRL_RUNNING ((o - 0x180) / 16), PLS_CTRL_OWNER ((o - 0x180) / 16), PLS_CTRL_LOADED ((o - 0x180) / 16), PLS_CTRL_SWITCH_PEND ((o - 0x180) / 16), PLS_CTRL_BANK ((o - 0x180) / 16) ] else
  if inArr o 0x184 16 4 then [ PLS_STATUS_FAULTED ((o - 0x184) / 16), PLS_STATUS_MAX_LAG ((o - 0x184) / 16), PLS_STATUS_CFG_REJ ((o - 0x184) / 16), PLS_STATUS_CUT_STEP ((o - 0x184) / 16) ] else
  if inArr o 0x188 16 4 then [ PLS_COUNT_STK_REFUSED ((o - 0x188) / 16), PLS_COUNT_FORCED_YIELD ((o - 0x188) / 16) ] else
  if inArr o 0x18C 16 4 then [ PLS_COLL_STK_REFUSED ((o - 0x18C) / 16), PLS_COLL_FORCED_YIELD ((o - 0x18C) / 16) ] else
  if o == 0x300 then [ PAIR_CFG_ENABLE, PAIR_CFG_RESIGN_BOOST, PAIR_CFG_BM_ENABLE, PAIR_CFG_TIE_VER_MAX, PAIR_CFG_CHAIN_TOL ] else
  if o == 0x304 then [ PAIR_STATUS_SLOT, PAIR_STATUS_PARTNER_SLOT, PAIR_STATUS_VERSION, PAIR_STATUS_ROLE, PAIR_STATUS_LAST_TRIGGER, PAIR_STATUS_LINK_UP, PAIR_STATUS_ELIGIBLE, PAIR_STATUS_PARTNER_ELIGIBLE, PAIR_STATUS_BM_HOLDER, PAIR_STATUS_DIGEST_OK, PAIR_STATUS_MAP_MIRRORED, PAIR_STATUS_RESIGN_IN, PAIR_STATUS_CFG_REJ, PAIR_STATUS_BM_MISMATCH, PAIR_STATUS_TAKEOVER, PAIR_STATUS_ROLE_CHG ] else
  if o == 0x308 then [ PAIR_COUNT0_TAKEOVERS, PAIR_COUNT0_BAD_FRAMES ] else
  if o == 0x30C then [ PAIR_COUNT1_BM_MISMATCH, PAIR_COUNT1_CHAIN_MISMATCH, PAIR_COUNT1_ORPHANS, PAIR_COUNT1_HOLD_ENTRIES ] else
  if o == 0x310 then [ PAIR_COLL_TAKEOVERS, PAIR_COLL_BAD_FRAMES, PAIR_COLL_BM_MISMATCH, PAIR_COLL_CHAIN_MISMATCH ] else
  if o == 0x314 then [ PAIR_DIFF_TIE_LAT, PAIR_DIFF_MAX_DIFF ] else
  if o == 0x318 then [ PAIR_TAKEOVER_AT ] else
  if o == 0x400 then [ WHL_STATUS_TOOTH_POS, WHL_STATUS_CFG_REJ, WHL_STATUS_LOSS, WHL_STATUS_CHG, WHL_STATUS_CAMB_FAULT, WHL_STATUS_CAMA_FAULT, WHL_STATUS_B_LOST, WHL_STATUS_A_LOST, WHL_STATUS_DIR_VALID, WHL_STATUS_CRANK_SRC, WHL_STATUS_ASTERN, WHL_STATUS_REVERSE, WHL_STATUS_LIMP, WHL_STATUS_STATE ] else
  if o == 0x404 then [ WHL_LOSS_CAUSE, WHL_LOSS_LIMP_DISAGREE, WHL_LOSS_LOSS_COUNT ] else
  if o == 0x408 then [ WHL_NOISE_CRANK_B, WHL_NOISE_CRANK_A ] else
  if o == 0x40C then [ WHL_NOISE_CAM_DIR_INVALID, WHL_NOISE_CAM_CAMB_MISMATCH, WHL_NOISE_CAM_CAMA_MISMATCH ] else
  if o == 0x410 then [ WHL_COLL_CRANK_A, WHL_COLL_CRANK_B, WHL_COLL_LOSS_COUNT, WHL_COLL_LIMP_DISAGREE ] else
  if inArr o 0x420 4 4 then [ WHL_IN_CFG_FILTER_N ((o - 0x420) / 4), WHL_IN_CFG_ARM_FRAC ((o - 0x420) / 4), WHL_IN_CFG_VR_FLOOR ((o - 0x420) / 4), WHL_IN_CFG_EDGE ((o - 0x420) / 4), WHL_IN_CFG_TYPE ((o - 0x420) / 4), WHL_IN_CFG_ENABLE ((o - 0x420) / 4) ] else
  if o == 0x430 then [ WHL_DIR_CFG_REV_MAX, WHL_DIR_CFG_REV_MIN, WHL_DIR_CFG_FWD_MAX, WHL_DIR_CFG_FWD_MIN ] else
  if o == 0x480 then [ ANG_CHAIN_CHAIN, ANG_CHAIN_FRACTION ] else
  if o == 0x484 then [ ANG_TOOTH_TOOTH_REF, ANG_TOOTH_COASTED ] else
  if o == 0x488 then [ ANG_RATE_RATE ] else
  if o == 0x48C then [ ANG_PERIOD_PREDICTED ] else
  if o == 0x490 then [ ANG_MEAN_MEAN ] else
  if o == 0x494 then [ ANG_CFG_FP_ENABLE, ANG_CFG_FP_TC, ANG_CFG_FROZEN_F, ANG_CFG_COAST_K, ANG_CFG_JUMP_FRAC ] else
  []

/-- Part 2 of the global window's map. -/
def globalFields2 (o : Nat) : List Fld :=
  if o == 0x498 then [ ANG_BAND0_LIMIT1, ANG_BAND0_LIMIT0 ] else
  if o == 0x49C then [ ANG_BAND1_LIMIT3, ANG_BAND1_LIMIT2 ] else
  if o == 0x4A0 then [ ANG_BAND2_LIMIT5, ANG_BAND2_LIMIT4 ] else
  if o == 0x4A4 then [ ANG_BAND3_LIMIT6 ] else
  if o == 0x4A8 then [ ANG_STATUS_STEP_EXP, ANG_STATUS_CFG_REJ, ANG_STATUS_JUMP, ANG_STATUS_LEARN_DONE, ANG_STATUS_BAND, ANG_STATUS_FP_LEARNING, ANG_STATUS_CL_LEARNING, ANG_STATUS_QUAL_B, ANG_STATUS_QUAL_A ] else
  if o == 0x4AC then [ ANG_ERR_LAST_ERR ] else
  if o == 0x4B0 then [ ANG_ERR_MAX_MAX_ABS ] else
  if o == 0x4B4 then [ ANG_COUNT_JUMPS, ANG_COUNT_COASTS ] else
  if o == 0x4B8 then [ ANG_WAITS_WAITS ] else
  if o == 0x4BC then [ ANG_COLL_COASTS, ANG_COLL_JUMPS, ANG_COLL_WAITS ] else
  if o == 0x4C0 then [ ANG_LOCKSTEP_MAX_DIFF ] else
  if o == 0x4C4 then [ ANG_FP_CYCLES0_BAND3, ANG_FP_CYCLES0_BAND2, ANG_FP_CYCLES0_BAND1, ANG_FP_CYCLES0_BAND0 ] else
  if o == 0x4C8 then [ ANG_FP_CYCLES1_BAND7, ANG_FP_CYCLES1_BAND6, ANG_FP_CYCLES1_BAND5, ANG_FP_CYCLES1_BAND4 ] else
  if o == 0x600 then [ DRV_CH_EN0_EN ] else
  if o == 0x608 then [ DRV_CH_EN1_EN ] else
  if o == 0x610 then [ DRV_PAIR_PAIR ] else
  if o == 0x614 then [ DRV_BANK_SLIP_BANK1, DRV_BANK_SLIP_BANK0 ] else
  if o == 0x618 then [ DRV_STATUS_CFG_REJ ] else
  if o == 0x61C then [ DRV_PROF_VALID0_VALID ] else
  if o == 0x620 then [ DRV_PROF_VALID1_VALID ] else
  if o == 0x624 then [ DRV_COLL_RETRIG, DRV_COLL_PLAUS, DRV_COLL_TIMEOUT, DRV_COLL_TRUNC ] else
  if inArr o 0x640 16 2 then [ BST_CFG_ENABLE ((o - 0x640) / 16), BST_CFG_ILIM ((o - 0x640) / 16), BST_CFG_CLAMP_MARGIN ((o - 0x640) / 16), BST_CFG_READY ((o - 0x640) / 16), BST_CFG_VSET ((o - 0x640) / 16) ] else
  if inArr o 0x644 16 2 then [ BST_CAP_CBANK ((o - 0x644) / 16) ] else
  if inArr o 0x648 16 2 then [ BST_STATUS_VCAP ((o - 0x648) / 16), BST_STATUS_CFG_REJ ((o - 0x648) / 16), BST_STATUS_CLAMP_SEEN ((o - 0x648) / 16), BST_STATUS_NOT_READY_SEEN ((o - 0x648) / 16), BST_STATUS_FAIL_CAUSE ((o - 0x648) / 16), BST_STATUS_STATE ((o - 0x648) / 16) ] else
  []

/-- Part 3 of the global window's map. -/
def globalFields3 (o : Nat) : List Fld :=
  if inArr o 0x64C 16 2 then [ BST_COUNT_NOT_READY ((o - 0x64C) / 16), BST_COUNT_CLAMPS ((o - 0x64C) / 16) ] else
  if o == 0x660 then [ BST_COLL_NOT_READY_A, BST_COLL_CLAMPS_A, BST_COLL_NOT_READY_B, BST_COLL_CLAMPS_B ] else
  if o == 0x664 then [ PRT_SUB_TRIP_B, PRT_SUB_TRIP_A, PRT_SUB_HOT_B, PRT_SUB_HOT_A, PRT_SUB_TEMP_B, PRT_SUB_TEMP_A ] else
  if o == 0x668 then [ CD_STATUS_BUSY, CD_STATUS_CFG_REJ ] else
  if o == 0x66C then [ CD_COLL_MISSES, CD_COLL_NOT_SAMPLED ] else
  if o == 0x670 then [ AUX_EN_EN ] else
  if o == 0x678 then [ AUX_STATUS_CFG_REJ ] else
  if o == 0x67C then [ AUX_FEED_GROUP3, AUX_FEED_GROUP2, AUX_FEED_GROUP1, AUX_FEED_GROUP0 ] else
  if o == 0x680 then [ AUX_COLL_SHORTS, AUX_COLL_THERMAL, AUX_COLL_I2T_ENDS, AUX_COLL_HOLDS_WAITS ] else
  if inArr o 0x690 16 16 then [ AUX_CFG_INRUSH_EN ((o - 0x690) / 16), AUX_CFG_INRUSH_T ((o - 0x690) / 16), AUX_CFG_INRUSH_LIM ((o - 0x690) / 16), AUX_CFG_I2T ((o - 0x690) / 16), AUX_CFG_LIMIT ((o - 0x690) / 16), AUX_CFG_RETRY_N ((o - 0x690) / 16), AUX_CFG_RETRY_INT ((o - 0x690) / 16) ] else
  if inArr o 0x694 16 16 then [ AUX_OPEN_OPEN_I ((o - 0x694) / 16) ] else
  if inArr o 0x698 16 16 then [ AUX_STAT_TEMP ((o - 0x698) / 16), AUX_STAT_WAITING ((o - 0x698) / 16), AUX_STAT_INRUSH ((o - 0x698) / 16), AUX_STAT_AT_LIMIT ((o - 0x698) / 16), AUX_STAT_BAT ((o - 0x698) / 16), AUX_STAT_OPEN ((o - 0x698) / 16), AUX_STAT_HOT ((o - 0x698) / 16), AUX_STAT_RETRIES_LEFT ((o - 0x698) / 16), AUX_STAT_CAUSE ((o - 0x698) / 16), AUX_STAT_ON ((o - 0x698) / 16), AUX_STAT_LATCH ((o - 0x698) / 16) ] else
  if inArr o 0x69C 16 16 then [ AUX_COUNT_SHORTS ((o - 0x69C) / 16), AUX_COUNT_THERMAL ((o - 0x69C) / 16), AUX_COUNT_I2T_ENDS ((o - 0x69C) / 16), AUX_COUNT_DROOP_HOLDS ((o - 0x69C) / 16), AUX_COUNT_WAITS ((o - 0x69C) / 16) ] else
  if inArr o 0x800 4 256 then [ SEQ_QUOTA_QUOTA ((o - 0x800) / 4) ] else
  if inArr o 0xC00 16 36 then [ DRV_CH_CFG_FALLBACK_PROF ((o - 0xC00) / 16), DRV_CH_CFG_FALLBACK_EN ((o - 0xC00) / 16), DRV_CH_CFG_DUTY_WIN ((o - 0xC00) / 16), DRV_CH_CFG_DUTY_FRAC ((o - 0xC00) / 16), DRV_CH_CFG_RETRIG ((o - 0xC00) / 16) ] else
  if inArr o 0xC04 16 36 then [ DRV_CH_SENSE_L_NOM ((o - 0xC04) / 16), DRV_CH_SENSE_L_LEARNED ((o - 0xC04) / 16) ] else
  if inArr o 0xC08 16 36 then [ DRV_CH_STAT_OFFSET ((o - 0xC08) / 16), DRV_CH_STAT_SENSE_LOST ((o - 0xC08) / 16), DRV_CH_STAT_CLAMPED ((o - 0xC08) / 16), DRV_CH_STAT_CAL_DONE ((o - 0xC08) / 16), DRV_CH_STAT_CAL_PEND ((o - 0xC08) / 16), DRV_CH_STAT_FAILS ((o - 0xC08) / 16), DRV_CH_STAT_PHASE ((o - 0xC08) / 16), DRV_CH_STAT_ENERGISED ((o - 0xC08) / 16), DRV_CH_STAT_PAIRED ((o - 0xC08) / 16) ] else
  if inArr o 0xC0C 16 36 then [ DRV_CH_COUNT_TRUNCATIONS ((o - 0xC0C) / 16), DRV_CH_COUNT_TIMEOUTS ((o - 0xC0C) / 16), DRV_CH_COUNT_PLAUS_FAIL ((o - 0xC0C) / 16), DRV_CH_COUNT_RETRIGGERS ((o - 0xC0C) / 16) ] else
  if inArr o 0xE40 4 36 then [ PRT_CFG_RAMP ((o - 0xE40) / 4), PRT_CFG_DIDT_MAX ((o - 0xE40) / 4), PRT_CFG_VMARGIN ((o - 0xE40) / 4), PRT_CFG_DESAT_V ((o - 0xE40) / 4), PRT_CFG_RETRY_N ((o - 0xE40) / 4), PRT_CFG_RETRY_INT ((o - 0xE40) / 4), PRT_CFG_OPEN_T ((o - 0xE40) / 4), PRT_CFG_OPEN_I ((o - 0xE40) / 4) ] else
  if inArr o 0xED0 4 36 then [ PRT_STAT_TEMP ((o - 0xED0) / 4), PRT_STAT_HOT ((o - 0xED0) / 4), PRT_STAT_OPEN ((o - 0xED0) / 4), PRT_STAT_RETRIES_LEFT ((o - 0xED0) / 4), PRT_STAT_CAUSE ((o - 0xED0) / 4), PRT_STAT_LATCH ((o - 0xED0) / 4) ] else
  if inArr o 0xF60 32 36 then [ CD_CFG_ENABLE ((o - 0xF60) / 32), CD_CFG_TRIM_EN ((o - 0xF60) / 32), CD_CFG_POLARITY ((o - 0xF60) / 32), CD_CFG_HALF_W ((o - 0xF60) / 32), CD_CFG_GAIN ((o - 0xF60) / 32), CD_CFG_TARGET ((o - 0xF60) / 32) ] else
  if inArr o 0xF64 32 36 then [ CD_DET_CD_END ((o - 0xF64) / 32), CD_DET_SETTLE ((o - 0xF64) / 32), CD_DET_THRESH ((o - 0xF64) / 32) ] else
  if inArr o 0xF68 32 36 then [ CD_PLAUS_PL_MAX ((o - 0xF68) / 32), CD_PLAUS_PL_MIN ((o - 0xF68) / 32) ] else
  if inArr o 0xF6C 32 36 then [ CD_TRIMLIM_TRIM_LIM ((o - 0xF6C) / 32) ] else
  []

/-- Part 4 of the global window's map. -/
def globalFields4 (o : Nat) : List Fld :=
  if inArr o 0xF70 32 36 then [ CD_LAST_WORD ((o - 0xF70) / 32) ] else
  if inArr o 0xF74 32 36 then [ CD_TRIM_STATE ((o - 0xF74) / 32), CD_TRIM_MISS_RUN ((o - 0xF74) / 32), CD_TRIM_RETURN_STEP ((o - 0xF74) / 32), CD_TRIM_TRIM ((o - 0xF74) / 32) ] else
  if inArr o 0xF78 32 36 then [ CD_COUNT_NOT_SAMPLED ((o - 0xF78) / 32), CD_COUNT_MISSES ((o - 0xF78) / 32) ] else
  if o == 0x1400 then [ ACQ_REF_CFG_REJ, ACQ_REF_EXT_RANGE, ACQ_REF_SETTLED, ACQ_REF_SEL ] else
  if o == 0x1404 then [ ACQ_RUN_RUNNING ] else
  if o == 0x1408 then [ ACQ_OVF_OVF ] else
  if o == 0x140C then [ ACQ_COLL_LATE, ACQ_COLL_LOST ] else
  if inArr o 0x1410 4 4 then [ ACQ_URG_GO ((o - 0x1410) / 4), ACQ_URG_DONE ((o - 0x1410) / 4), ACQ_URG_ERR ((o - 0x1410) / 4), ACQ_URG_REJ ((o - 0x1410) / 4), ACQ_URG_INPUT ((o - 0x1410) / 4), ACQ_URG_RESULT ((o - 0x1410) / 4) ] else
  if inArr o 0x1600 16 16 then [ MON_THR_HIGH ((o - 0x1600) / 16), MON_THR_LOW ((o - 0x1600) / 16) ] else
  if inArr o 0x1608 16 16 then [ MON_CTL_ENABLE ((o - 0x1608) / 16), MON_CTL_AUTO ((o - 0x1608) / 16), MON_CTL_FILTER ((o - 0x1608) / 16) ] else
  if inArr o 0x160C 16 16 then [ MON_STAT_VIOLATIONS ((o - 0x160C) / 16), MON_STAT_AUTO_SKIPS ((o - 0x160C) / 16), MON_STAT_FAIL_STEP ((o - 0x160C) / 16), MON_STAT_CFG_REJ ((o - 0x160C) / 16), MON_STAT_EXCHANGED ((o - 0x160C) / 16), MON_STAT_TEST_FAIL ((o - 0x160C) / 16), MON_STAT_TESTING ((o - 0x160C) / 16), MON_STAT_HIGH_VIOL ((o - 0x160C) / 16), MON_STAT_LOW_VIOL ((o - 0x160C) / 16) ] else
  if o == 0x1700 then [ MON_COLL_VIOLATIONS, MON_COLL_AUTO_SKIPS ] else
  if inArr o 0x1800 16 32 then [ ACQ_WP_RUNS ((o - 0x1800) / 16), ACQ_WP_WP ((o - 0x1800) / 16) ] else
  if inArr o 0x1804 16 32 then [ ACQ_RP_RP ((o - 0x1804) / 16) ] else
  if inArr o 0x1808 16 32 then [ ACQ_CNT_LOST ((o - 0x1808) / 16), ACQ_CNT_LATE ((o - 0x1808) / 16) ] else
  if inArr o 0x180C 16 32 then [ ACQ_LMAX_MAX_LATE ((o - 0x180C) / 16) ] else
  if o == 0x2000 then [ TMR_CYCLE_LO_LO ] else
  if o == 0x2004 then [ TMR_CYCLE_HI_HI ] else
  if o == 0x2008 then [ TMR_START_START ] else
  if o == 0x200C then [ TMR_STOP_STOP ] else
  if o == 0x2010 then [ TMR_STATUS_CFG_REJ ] else
  if o == 0x2014 then [ TMR_PIN_DIR, TMR_PIN_LEVEL ] else
  if inArr o 0x2040 32 32 then [ TMR_CFG_OUT_ACT ((o - 0x2040) / 32), TMR_CFG_OUT_PIN ((o - 0x2040) / 32), TMR_CFG_AUTO_ADD ((o - 0x2040) / 32), TMR_CFG_CLK ((o - 0x2040) / 32), TMR_CFG_CAP_PRE ((o - 0x2040) / 32), TMR_CFG_CAP_EDGE ((o - 0x2040) / 32), TMR_CFG_CAP_SRC ((o - 0x2040) / 32), TMR_CFG_MATCH_IE ((o - 0x2040) / 32), TMR_CFG_CAP_IE ((o - 0x2040) / 32) ] else
  if inArr o 0x2044 32 32 then [ TMR_CLK_DIV ((o - 0x2044) / 32), TMR_CLK_FILTER_N ((o - 0x2044) / 32) ] else
  []

/-- Part 5 of the global window's map. -/
def globalFields5 (o : Nat) : List Fld :=
  if inArr o 0x2048 32 32 then [ TMR_COUNT_COUNT ((o - 0x2048) / 32) ] else
  if inArr o 0x204C 32 32 then [ TMR_CMP_CMP ((o - 0x204C) / 32) ] else
  if inArr o 0x2050 32 32 then [ TMR_INTERVAL_INTERVAL ((o - 0x2050) / 32) ] else
  if inArr o 0x2054 32 32 then [ TMR_CAP_CAP ((o - 0x2054) / 32) ] else
  if inArr o 0x2058 32 32 then [ TMR_STAT_OVR ((o - 0x2058) / 32), TMR_STAT_CAP ((o - 0x2058) / 32), TMR_STAT_MATCH ((o - 0x2058) / 32) ] else
  if inArr o 0x2800 128 8 then [ PE_CTRL_ENTRY ((o - 0x2800) / 128), PE_CTRL_RUN ((o - 0x2800) / 128) ] else
  if inArr o 0x2804 128 8 then [ PE_CFG_MSB_FIRST ((o - 0x2804) / 128), PE_CFG_DOUT ((o - 0x2804) / 128), PE_CFG_DIN ((o - 0x2804) / 128), PE_CFG_THRESH ((o - 0x2804) / 128), PE_CFG_PRESET ((o - 0x2804) / 128), PE_CFG_LEVEL_RESET ((o - 0x2804) / 128), PE_CFG_DIR_RESET ((o - 0x2804) / 128) ] else
  if inArr o 0x2808 128 8 then [ PE_DIV_DIV ((o - 0x2808) / 128) ] else
  if inArr o 0x280C 128 8 then [ PE_CMP_MASK ((o - 0x280C) / 128), PE_CMP_VALUE ((o - 0x280C) / 128) ] else
  if inArr o 0x2810 128 8 then [ PE_TX_DATA ((o - 0x2810) / 128) ] else
  if inArr o 0x2814 128 8 then [ PE_RX_DATA ((o - 0x2814) / 128) ] else
  if inArr o 0x2818 128 8 then [ PE_STAT_PC ((o - 0x2818) / 128), PE_STAT_RX_LEVEL ((o - 0x2818) / 128), PE_STAT_TX_LEVEL ((o - 0x2818) / 128), PE_STAT_PIN_LEVEL ((o - 0x2818) / 128), PE_STAT_PIN_DIR ((o - 0x2818) / 128), PE_STAT_HOLDING ((o - 0x2818) / 128), PE_STAT_CFG_REJ ((o - 0x2818) / 128), PE_STAT_TX_OVER ((o - 0x2818) / 128), PE_STAT_RX_UNDER ((o - 0x2818) / 128), PE_STAT_FAULT ((o - 0x2818) / 128), PE_STAT_STALLED ((o - 0x2818) / 128) ] else
  if inArr o 0x281C 128 8 then [ PE_CNT_CNT ((o - 0x281C) / 128) ] else
  if inArr o 0x2820 128 8 then [ PE_SR_SR ((o - 0x2820) / 128) ] else
  if inArr o 0x2824 128 8 then [ PE_STALLS_STALLS ((o - 0x2824) / 128) ] else
  if o == 0x2C00 then [ PE_COLL_STALLS ] else
  if o == 0x2C04 then [ POS_COLL_IF0, POS_COLL_IF1, POS_COLL_IF2, POS_COLL_IF3, POS_COLL_IF4, POS_COLL_IF5 ] else
  if inArr o 0x2C40 64 6 then [ POS_CFG_MODE ((o - 0x2C40) / 64), POS_CFG_HYST ((o - 0x2C40) / 64), POS_CFG_INVERT ((o - 0x2C40) / 64), POS_CFG_IDX_QUAL ((o - 0x2C40) / 64), POS_CFG_FILTER_N ((o - 0x2C40) / 64) ] else
  if inArr o 0x2C44 64 6 then [ POS_PROTO_TICK_HALF ((o - 0x2C44) / 64), POS_PROTO_LEN ((o - 0x2C44) / 64), POS_PROTO_CRC_GRAY ((o - 0x2C44) / 64), POS_PROTO_PAUSE ((o - 0x2C44) / 64), POS_PROTO_MONO ((o - 0x2C44) / 64) ] else
  if inArr o 0x2C48 64 6 then [ POS_COUNT_C ((o - 0x2C48) / 64) ] else
  if inArr o 0x2C4C 64 6 then [ POS_RAW_R ((o - 0x2C4C) / 64) ] else
  if inArr o 0x2C50 64 6 then [ POS_IDX_IDX_POS ((o - 0x2C50) / 64) ] else
  if inArr o 0x2C54 64 6 then [ POS_IDX_TIME_IDX_TIME ((o - 0x2C54) / 64) ] else
  if inArr o 0x2C58 64 6 then [ POS_CMP_CMP_POS ((o - 0x2C58) / 64) ] else
  []

/-- Part 6 of the global window's map. -/
def globalFields6 (o : Nat) : List Fld :=
  if inArr o 0x2C5C 64 6 then [ POS_STEP_STEP ((o - 0x2C5C) / 64) ] else
  if inArr o 0x2C60 64 6 then [ POS_CMP_TIME_CMP_TIME ((o - 0x2C60) / 64) ] else
  if inArr o 0x2C64 64 6 then [ POS_STAT_HITS ((o - 0x2C64) / 64), POS_STAT_CFG_REJ ((o - 0x2C64) / 64), POS_STAT_IDX ((o - 0x2C64) / 64), POS_STAT_CMP ((o - 0x2C64) / 64), POS_STAT_MULTI ((o - 0x2C64) / 64), POS_STAT_LOST ((o - 0x2C64) / 64), POS_STAT_ERR ((o - 0x2C64) / 64), POS_STAT_DIR ((o - 0x2C64) / 64), POS_STAT_SENT_STATUS ((o - 0x2C64) / 64) ] else
  if inArr o 0x2C68 64 6 then [ POS_CNT_ERRORS ((o - 0x2C68) / 64), POS_CNT_IDX_COUNT ((o - 0x2C68) / 64) ] else
  if inArr o 0x3000 4 256 then [ HL_CLIENT_LEASE ((o - 0x3000) / 4), HL_CLIENT_LOSS ((o - 0x3000) / 4), HL_CLIENT_CLASS ((o - 0x3000) / 4) ] else
  if inArr o 0x3400 4 52 then [ HL_OWN_VALID ((o - 0x3400) / 4), HL_OWN_OWNER ((o - 0x3400) / 4) ] else
  if o == 0x34D0 then [ HL_STATUS_LEVEL, HL_STATUS_LINK_LOST, HL_STATUS_CFG_REJ ] else
  if o == 0x34D4 then [ HL_LOAD_MAX, HL_LOAD_LOAD ] else
  if o == 0x34D8 then [ HL_SHED_CFG_OBS_SHARE, HL_SHED_CFG_SHED_TIMEOUT ] else
  if inArr o 0x3500 32 4 then [ CAN_CTRL_ENABLE ((o - 0x3500) / 32), CAN_CTRL_AUTO_REC ((o - 0x3500) / 32), CAN_CTRL_RESTART ((o - 0x3500) / 32) ] else
  if inArr o 0x3504 32 4 then [ CAN_NBT_BRP ((o - 0x3504) / 32), CAN_NBT_SEG1 ((o - 0x3504) / 32), CAN_NBT_SEG2 ((o - 0x3504) / 32), CAN_NBT_SJW ((o - 0x3504) / 32) ] else
  if inArr o 0x3508 32 4 then [ CAN_DBT_BRP ((o - 0x3508) / 32), CAN_DBT_SEG1 ((o - 0x3508) / 32), CAN_DBT_SEG2 ((o - 0x3508) / 32), CAN_DBT_SJW ((o - 0x3508) / 32) ] else
  if inArr o 0x350C 32 4 then [ CAN_TDC_TDC_EN ((o - 0x350C) / 32), CAN_TDC_TDCO ((o - 0x350C) / 32), CAN_TDC_TDCF ((o - 0x350C) / 32) ] else
  if inArr o 0x3510 32 4 then [ CAN_TP_BS ((o - 0x3510) / 32), CAN_TP_STMIN ((o - 0x3510) / 32) ] else
  if inArr o 0x3514 32 4 then [ CAN_STAT_TEC ((o - 0x3514) / 32), CAN_STAT_REC ((o - 0x3514) / 32), CAN_STAT_TP_ERRORS ((o - 0x3514) / 32), CAN_STAT_IGNORED ((o - 0x3514) / 32), CAN_STAT_PASSIVE ((o - 0x3514) / 32), CAN_STAT_BUS_OFF ((o - 0x3514) / 32) ] else
  if inArr o 0x3600 8 16 then [ CAN_BIND_EN ((o - 0x3600) / 8), CAN_BIND_CTRL ((o - 0x3600) / 8), CAN_BIND_REQ_ID ((o - 0x3600) / 8) ] else
  if inArr o 0x3604 8 16 then [ CAN_BINDR_IDE ((o - 0x3604) / 8), CAN_BINDR_BRS ((o - 0x3604) / 8), CAN_BINDR_RSP_ID ((o - 0x3604) / 8) ] else
  if inArr o 0x3800 4 256 then [ PE_PROG_WORD ((o - 0x3800) / 4) ] else
  if inArr o 0x4000 4 12 then [ DMA_GRANT_VALID ((o - 0x4000) / 4), DMA_GRANT_OWNER ((o - 0x4000) / 4) ] else
  if o == 0x4040 then [ DMA_GSTAT_ACTIVE, DMA_GSTAT_CFG_REJ ] else
  if o == 0x5000 then [ PWR_CTRL_GO, PWR_CTRL_TARGET ] else
  if o == 0x5004 then [ PWR_STATUS_STATE, PWR_STATUS_CHANGING, PWR_STATUS_REJ_CAUSE, PWR_STATUS_REQ_REJ, PWR_STATUS_CANCELLED, PWR_STATUS_RET_LOST, PWR_STATUS_CFG_REJ ] else
  if o == 0x5008 then [ PWR_BASE_BASE ] else
  if o == 0x500C then [ PWR_ON_ON ] else
  []

/-- Part 7 of the global window's map. -/
def globalFields7 (o : Nat) : List Fld :=
  if o == 0x5010 then [ PWR_HELD_HELD ] else
  if o == 0x5014 then [ PWR_WAKE_CFG_I2C_ADDR, PWR_WAKE_CFG_EN ] else
  if o == 0x5018 then [ PWR_ISL_LAST_WAKE, PWR_ISL_PMBUS_TO, PWR_ISL_EDGE_LOST, PWR_ISL_REWAKES ] else
  if o == 0x501C then [ PWR_COLL_EDGE_LOST, PWR_COLL_REWAKES ] else
  if o == 0x5100 then [ RTC_TIME_WEEKDAY, RTC_TIME_HOUR, RTC_TIME_MINUTE, RTC_TIME_SECOND ] else
  if o == 0x5104 then [ RTC_DATE_KEEP, RTC_DATE_YEAR, RTC_DATE_MONTH, RTC_DATE_DAY ] else
  if o == 0x5108 then [ RTC_SUB_SUB ] else
  if o == 0x510C then [ RTC_STATUS_SRC, RTC_STATUS_STAGED, RTC_STATUS_WRITE_ERR, RTC_STATUS_TIME_LOST ] else
  if o == 0x5200 then [ FB_STATUS_READY, FB_STATUS_COPY_B_BAD, FB_STATUS_COPY_A_BAD, FB_STATUS_QUEUED ] else
  if o == 0x5204 then [ FB_NEWEST_SEQ_LO ] else
  if o == 0x5208 then [ FB_LOST_LOST ] else
  if o == 0x5300 then [ FLT_LAST_CODE, FLT_LAST_CLASS, FLT_LAST_SOURCE ] else
  if o == 0x5304 then [ FLT_LAST_SEQ_SEQ_LO ] else
  if o == 0x5308 then [ FLT_COUNT_INTEGRITY, FLT_COUNT_TOTAL ] else
  if o == 0x530C then [ FLT_COLL_TOTAL, FLT_COLL_INTEGRITY ] else
  if o == 0x5310 then [ FLT_STATUS_TRIP_SEEN, FLT_STATUS_INTEGRITY_SEEN ] else
  if o == 0x5400 then [ MOD_STATUS_SERIAL_TIE, MOD_STATUS_LEAVING, MOD_STATUS_LEAVE, MOD_STATUS_SEATED ] else
  []

/-- The fields at offset `o` of the global window, over the whole map. -/
def globalFields (o : Nat) : List Fld :=
  globalFields0 o ++ globalFields1 o ++ globalFields2 o ++ globalFields3 o ++ globalFields4 o ++ globalFields5 o ++ globalFields6 o ++ globalFields7 o


/-- The fields of the register at offset `o` of the client window; none where no register stands. -/
def clientFields0 (n : Nat) (o : Nat) : List Fld :=
  if o == 0x48 then [ CLI_SEQ_USE_USED n ] else
  if o == 0x4C then [ CLI_BANK_INHIBIT n, CLI_BANK_ASTERN_PEND n, CLI_BANK_AHEAD_PEND n, CLI_BANK_ASTERN_ACTIVE n, CLI_BANK_AHEAD_ACTIVE n ] else
  if o == 0x50 then [ CLI_SWITCH_AHEAD_CYCLE n ] else
  if o == 0x54 then [ CLI_SWITCH_ASTERN_CYCLE n ] else
  if o == 0x74 then [ CLI_PWR_VOTE_VOTE n ] else
  if o == 0x7C then [ CLI_REG_STATUS_PW_REJECTS n, CLI_REG_STATUS_PW_PEND n, CLI_REG_STATUS_PARTIAL n, CLI_REG_STATUS_UNMAPPED n, CLI_REG_STATUS_PW_REJ n ] else
  if o == 0x80 then [ CLI_PW_LAST_CAUSE n, CLI_PW_LAST_OFFSET n ] else
  if o == 0x84 then [ CLI_REG_COLL_PW_REJECTS n ] else
  if o == 0x100 then [ CLI_REQ_BASE_LO_ADDR n ] else
  if o == 0x104 then [ CLI_REQ_BASE_HI_ADDR n ] else
  if o == 0x108 then [ CLI_RSP_BASE_LO_ADDR n ] else
  if o == 0x10C then [ CLI_RSP_BASE_HI_ADDR n ] else
  if o == 0x110 then [ CLI_FLT_BASE_LO_ADDR n ] else
  if o == 0x114 then [ CLI_FLT_BASE_HI_ADDR n ] else
  if o == 0x118 then [ CLI_SHADOW_LO_ADDR n ] else
  if o == 0x11C then [ CLI_SHADOW_HI_ADDR n ] else
  if o == 0x120 then [ CLI_RING_CFG_ENABLE n, CLI_RING_CFG_SHADOW_EN n, CLI_RING_CFG_FLT_EN n, CLI_RING_CFG_FLT_LOG2 n, CLI_RING_CFG_RSP_LOG2 n, CLI_RING_CFG_REQ_LOG2 n ] else
  if o == 0x124 then [ CLI_REQ_TAIL_TAIL n ] else
  if o == 0x128 then [ CLI_REQ_HEAD_HEAD n ] else
  if o == 0x12C then [ CLI_REQ_RESUME_INDEX n ] else
  if o == 0x130 then [ CLI_RSP_TAIL_PHASE n, CLI_RSP_TAIL_TAIL n ] else
  if o == 0x134 then [ CLI_RSP_HEAD_HEAD n ] else
  if o == 0x138 then [ CLI_FLT_TAIL_PHASE n, CLI_FLT_TAIL_TAIL n ] else
  if o == 0x13C then [ CLI_FLT_HEAD_HEAD n ] else
  []

/-- Part 1 of the client window's map. -/
def clientFields1 (n : Nat) (o : Nat) : List Fld :=
  if o == 0x140 then [ CLI_HL_STATUS_VERSION n, CLI_HL_STATUS_SESSION n, CLI_HL_STATUS_REQ_HALT n, CLI_HL_STATUS_MP_SAT n, CLI_HL_STATUS_CAN_BOUND n, CLI_HL_STATUS_NOTICE_OVF n, CLI_HL_STATUS_RING_ERR n, CLI_HL_STATUS_CFG_REJ n, CLI_HL_STATUS_SESSION_LOST n ] else
  if o == 0x144 then [ CLI_HL_COUNT_REFUSED n, CLI_HL_COUNT_LOST n ] else
  if o == 0x148 then [ CLI_KEEPALIVE_KICK n ] else
  if o == 0x14C then [ CLI_HL_COLL_REFUSED n, CLI_HL_COLL_LOST n ] else
  if inArr o 0x180 4 8 then [ CLI_MSIX_COAL_TIME n ((o - 0x180) / 4), CLI_MSIX_COAL_COUNT n ((o - 0x180) / 4) ] else
  if inArr o 0x3000 16 8 then [ CLI_MSIX_LO_ADDR n ((o - 0x3000) / 16) ] else
  if inArr o 0x3004 16 8 then [ CLI_MSIX_HI_ADDR n ((o - 0x3004) / 16) ] else
  if inArr o 0x3008 16 8 then [ CLI_MSIX_DATA_DATA n ((o - 0x3008) / 16) ] else
  if inArr o 0x300C 16 8 then [ CLI_MSIX_CTRL_MASK n ((o - 0x300C) / 16) ] else
  if o == 0x3080 then [ CLI_MSIX_PBA_PEND n ] else
  if o == 0x3084 then [ CLI_MSIX_PBAH_PEND n ] else
  []

/-- The fields at offset `o` of the client window, over the whole map. -/
def clientFields (n : Nat) (o : Nat) : List Fld :=
  clientFields0 n o ++ clientFields1 n o


/-- The fields of the register at offset `o` of the dma window; none where no register stands. -/
def dmaFields0 (o : Nat) : List Fld :=
  if inArr o 0x0 64 12 then [ DMA_SRC_SRC_MODE ((o - 0x0) / 64), DMA_SRC_LIST ((o - 0x0) / 64), DMA_SRC_SRC_OFF ((o - 0x0) / 64) ] else
  if inArr o 0x4 64 12 then [ DMA_DST_LO_DST ((o - 0x4) / 64) ] else
  if inArr o 0x8 64 12 then [ DMA_DST_HI_DST ((o - 0x8) / 64) ] else
  if inArr o 0xC 64 12 then [ DMA_LEN_LEN ((o - 0xC) / 64) ] else
  if inArr o 0x10 64 12 then [ DMA_SHUF_SHUF_EN ((o - 0x10) / 64), DMA_SHUF_WAYS ((o - 0x10) / 64), DMA_SHUF_ELEM ((o - 0x10) / 64), DMA_SHUF_STRIDE ((o - 0x10) / 64) ] else
  if inArr o 0x14 64 12 then [ DMA_STAT_LO_STAT_ADDR ((o - 0x14) / 64) ] else
  if inArr o 0x18 64 12 then [ DMA_STAT_HI_STAT_ADDR ((o - 0x18) / 64) ] else
  if inArr o 0x1C 64 12 then [ DMA_CTRL_START ((o - 0x1C) / 64), DMA_CTRL_ABORT ((o - 0x1C) / 64), DMA_CTRL_IE ((o - 0x1C) / 64), DMA_CTRL_RETRY_N ((o - 0x1C) / 64), DMA_CTRL_TAG ((o - 0x1C) / 64) ] else
  if inArr o 0x20 64 12 then [ DMA_STATUS_STATE ((o - 0x20) / 64), DMA_STATUS_END ((o - 0x20) / 64), DMA_STATUS_CFG_REJ ((o - 0x20) / 64), DMA_STATUS_RETRIES ((o - 0x20) / 64) ] else
  if inArr o 0x24 64 12 then [ DMA_RESIDUE_RESIDUE ((o - 0x24) / 64) ] else
  if inArr o 0x28 64 12 then [ DMA_RUNS_RUNS ((o - 0x28) / 64) ] else
  []

/-- The fields at offset `o` of the dma window, over the whole map. -/
def dmaFields (o : Nat) : List Fld :=
  dmaFields0 o


/-- The fields of the register at offset `o` of the intc window; none where no register stands. -/
def intcFields0 (o : Nat) : List Fld :=
  if o == 0x0 then [ INTC_CTRL_RAW ] else
  if o == 0x4 then [ INTC_HOLD_HOLD ] else
  if o == 0x8 then [ INTC_HOLD_SET_SET ] else
  if o == 0xC then [ INTC_HOLD_CLR_CLR ] else
  if o == 0x10 then [ INTC_IGNORED_COUNT ] else
  if o == 0x14 then [ INTC_COLL_IGNORED ] else
  if inArr o 0x20 4 4 then [ INTC_CLAIM_SOURCE ((o - 0x20) / 4) ] else
  if inArr o 0x30 4 4 then [ INTC_COMPLETE_SOURCE ((o - 0x30) / 4) ] else
  if inArr o 0x40 4 4 then [ INTC_CUR_CUR ((o - 0x40) / 4) ] else
  if inArr o 0x50 4 4 then [ INTC_THRESH_THRESH ((o - 0x50) / 4) ] else
  if inArr o 0x80 4 16 then [ INTC_EN_EN ((o - 0x80) / 4) ] else
  if o == 0xC0 then [ INTC_EN_SET_SOURCE ] else
  if o == 0xC4 then [ INTC_EN_CLR_SOURCE ] else
  if inArr o 0x100 4 16 then [ INTC_PEND_PEND ((o - 0x100) / 4) ] else
  if inArr o 0x140 4 16 then [ INTC_ACT_ACT ((o - 0x140) / 4) ] else
  if inArr o 0x400 4 512 then [ INTC_SRC_PRIO ((o - 0x400) / 4), INTC_SRC_TARGETS ((o - 0x400) / 4), INTC_SRC_TYPE ((o - 0x400) / 4), INTC_SRC_ONESHOT ((o - 0x400) / 4), INTC_SRC_GROUP ((o - 0x400) / 4) ] else
  if inArr o 0xC00 4 32 then [ INTC_GRP_TIME ((o - 0xC00) / 4), INTC_GRP_PEND_COUNT ((o - 0xC00) / 4), INTC_GRP_COUNT ((o - 0xC00) / 4) ] else
  []

/-- The fields at offset `o` of the intc window, over the whole map. -/
def intcFields (o : Nat) : List Fld :=
  intcFields0 o


end Sys2Proof.Machine
end

