-- ==== Sys2Proof/Machine/State.lean ====
section
/-! DEFINITION. The state of the block: plain data, holding every register, buffer, counter, mode and queue that the
spec gives it, the queue of waiting commands, and the record of what left the module. -/
namespace Sys2Proof.Machine

/-- The reasons a step can stop the machine. The spec answers every command with an effect or a named refusal of its
own, so no meaning raises one. Safe: nothing is hidden behind it. (log entry 95, DESIGN CHOICE) -/
inductive Fault where
  deriving DecidableEq, Repr

/-- The reasons a command can have no meaning in this model. (log entry 95, DESIGN CHOICE) -/
inductive Refusal where
  /-- Raised by `exec` alone, for a command whose meaning is not written. Safe: the machine stops. -/
  | notModelled (mnemonic : String)
  deriving DecidableEq, Repr

/-- The state of the KY3628-A. -/
structure State where
  /-- The 64-bit cycle counter, as a number (architecture R16); reset 0. -/
  cyc : Nat := 0
  /-- Commands that wait, first in, first out; reset empty. -/
  pending : List Instr := []
  /-- What has left the module, newest first (the model's record); reset empty. -/
  out : List Out := []
  /-- Every register field of the register tables, by field key, listed where it differs from its reset value. -/
  regs : Tbl Nat := []
  /-- Fields changed in the present cycle, with their value at its start (register reference R530). -/
  was : Tbl Nat := []
  /-- Fields that hardware updated in the present cycle, with the increment or value added (scope R13, R14). -/
  hw : Tbl Nat := []
  /-- Offsets of the registers that software wrote in the present cycle (scope R13). -/
  sw : List Nat := []
  /-- Offsets that firmware committed in the present cycle, and 2^24 + function for a function reset in it: software writes to
  them in this cycle are discarded (register reference R538). -/
  barred : List Nat := []
  /-- PF0's pending slots, by the offset of the PW register (register reference R534); reset empty. -/
  slots : Tbl PwSlot := []
  /-- How many free values have been drawn (the model's own counter; no statement rests on it). -/
  fresh : Nat := 0
  /-- Faults detected and not yet formed into records, oldest first (faults R479); reset empty. -/
  faults : List FaultEv := []
  boot : Boot := {}
  power : Power := {}
  rtc : Rtc := {}
  book : FieldBook := {}
  host : HostLink := {}
  can : Can := {}
  intc : Intc := {}
  acq : Acq := {}
  angle : Angle := {}
  seq : Seq := {}
  drive : Drive := {}
  periph : Periph := {}
  pulse : Pulse := {}
  tie : Tie := {}
  dma : Dma := {}
  deriving DecidableEq, Repr

/-- The machine at the end of reset: every register at the value of its table, nothing stored, the queue empty.
(log entries 3, DESIGN CHOICE, 4, DESIGN CHOICE) -/
def State.reset : State := {}

end Sys2Proof.Machine
end

