-- ==== Sys2Proof/Machine/Ops.lean ====
section
/-! DEFINITION. The operations every command is written with: reading and updating register fields under the same-cycle
rules, time, interrupt requests, MSI-X vectors, messages to clients, and the detection of faults. -/
namespace Sys2Proof.Machine

/-- One second in core cycles. -/
def secondCycles : Nat := 400000000

/-- Bit `i` of a number. -/
def bitOf (x i : Nat) : Bool := x / 2 ^ i % 2 == 1

/-- `x` with bit `i` set to `b`. -/
def setBit (x i : Nat) (b : Bool) : Nat :=
  if bitOf x i == b then x else if b then x + 2 ^ i else x - 2 ^ i

/-- The bits [hi:lo] of a word, as a number. -/
def bits (x : Word) (hi lo : Nat) : Nat := x.toNat / 2 ^ lo % 2 ^ (hi + 1 - lo)

/-- The low `w` bits of a number, read as two's complement. -/
def signed (w x : Nat) : Int := if x % 2 ^ w < 2 ^ (w - 1) then (x % 2 ^ w : Nat) else ((x % 2 ^ w : Nat) : Int) - 2 ^ w

/-- A signed number as `w` bits of two's complement. -/
def ofSigned (w : Nat) (x : Int) : Nat := (x % 2 ^ w).toNat

/-- A quotient rounded to the nearest integer, a half away from zero (scope R6). -/
def roundDiv (n : Int) (d : Nat) : Int :=
  if n < 0 then -((2 * (-n) + d) / (2 * d)) else (2 * n + d) / (2 * d)

/-- Keep `x` between `lo` and `hi`. -/
def clampInt (lo hi x : Int) : Int := if x < lo then lo else if hi < x then hi else x

/-! ### Register fields -/

/-- The present value of a field. -/
def rd (s : State) (f : Fld) : Nat := Tbl.get f.reset s.regs f.key

/-- The field reads 1. -/
def isSet (s : State) (f : Fld) : Bool := rd s f == 1

/-- The value a software read returns: the field as it stood at the start of the cycle (R530). (log entry 10, DEDUCED) -/
def rdStart (s : State) (f : Fld) : Nat := (Tbl.find s.was f.key).getD (rd s f)

/-- The field takes the low bits of `v`; its value at the start of the cycle is kept for reads of this cycle. (log entry 10, DEDUCED) -/
def wr (f : Fld) (v : Nat) (s : State) : State :=
  { s with
    regs := Tbl.set f.reset s.regs f.key (v % 2 ^ f.w)
    was := match Tbl.find s.was f.key with
      | none => Tbl.insert s.was f.key (rd s f)
      | some _ => s.was }

/-- Hardware sets or clears a one-bit field. -/
def wrB (f : Fld) (b : Bool) (s : State) : State := wr f (if b then 1 else 0) s

/-- Hardware sets a status flag; the set is remembered for this cycle, so a software clear in it loses (R13). -/
def flag (f : Fld) (s : State) : State :=
  let s := wr f 1 s
  { s with hw := Tbl.insert s.hw f.key 1 }

/-- Hardware sets bit `i` of a status field that has a flag per bit; the set is remembered for this cycle (R13). -/
def flagBit (f : Fld) (i : Nat) (s : State) : State :=
  let s := wr f (setBit (rd s f) i true) s
  { s with hw := Tbl.insert s.hw f.key (setBit (Tbl.get 0 s.hw f.key) i true) }

/-- A collision count field from its key and width. -/
def collFld (k : Nat × Nat) : Fld :=
  { off := k.1 / 32, lo := k.1 % 32, w := k.2, acc := .rc, reset := 0, kind := .rc }

/-- Hardware adds `n` to a saturating count and remembers the increment for this cycle. -/
def bump (f : Fld) (n : Nat) (s : State) : State :=
  let s := wr f (min f.max (rd s f + n)) s
  { s with hw := Tbl.insert s.hw f.key (Tbl.get 0 s.hw f.key + n) }

/-- An increment displaced by a software write goes to the field's collision count, where it has one (R13, R537). -/
def lose (f : Fld) (n : Nat) (s : State) : State :=
  match f.coll with
  | none => s
  | some k => bump (collFld k) n s

/-- Hardware counts `n`: a counter that software wrote in this cycle keeps the written value and loses the increment
(R13); any other saturates at its maximum. -/
def count (f : Fld) (n : Nat) (s : State) : State :=
  if f.kind = .counter ∧ f.off ∈ s.sw then lose f n s else bump f n s

/-- Hardware raises a read-clear maximum to `v`, saturating (R14). -/
def maxTo (f : Fld) (v : Nat) (s : State) : State :=
  let v := min f.max v
  let s := if rd s f < v then wr f v s else s
  { s with hw := Tbl.insert s.hw f.key (max v (Tbl.get 0 s.hw f.key)) }

/-- Software writes `v`, the field's own bits, to one field, under its access type and same-cycle rule (R13, Tables 0-5
and 20-5). The substitution of the field acts on the written value. -/
def swField (f : Fld) (v : Nat) (s : State) : State :=
  match f.acc with
  | .ro | .rc | .w1s | .pw => s
  | .w1c =>
    let clears := v ^^^ (v &&& Tbl.get 0 s.hw f.key)
    wr f (rd s f ^^^ (rd s f &&& clears)) s
  | .rw =>
    match f.kind with
    | .counter =>
      let s := wr f (f.fix.apply v) s
      let n := Tbl.get 0 s.hw f.key
      let s := { s with hw := Tbl.erase s.hw f.key }
      if n = 0 then s else lose f n s
    | .trip => if Tbl.find s.hw f.key = none then wr f (f.fix.apply v) s else s
    | _ => wr f (f.fix.apply v) s

/-- Software writes the word `x` to the register whose fields are `fs`, at offset `off`. -/
def swWrite (off : Nat) (fs : List Fld) (x : Word) (s : State) : State :=
  let s := fs.foldl (fun s f => swField f (f.ofWord x) s) s
  { s with sw := off :: s.sw }

/-- Firmware commits the registers at `offs` in this cycle: its values stand against PF0's (register reference R538). -/
def commits (offs : List Nat) (s : State) : State := { s with barred := offs ++ s.barred }

/-- Function `fn` is reset in this cycle: its writes of the cycle are discarded (register reference R538). -/
def resetsFn (fn : Nat) (s : State) : State := { s with barred := (2 ^ 24 + fn) :: s.barred }

/-- The power domain in which the register at `off` stands: timer groups, pin engines, position interfaces, CAN FD controllers and
their bindings (timers R342, register reference R531). Every other register keeps its value whatever the state of its block. -/
def regDomain (s : State) (off : Nat) : Option Nat :=
  if 0x2040 ≤ off ∧ off < 0x2440 then some (54 + (off - 0x2040) / 128)
  else if 0x2800 ≤ off ∧ off < 0x2C00 then some (46 + (off - 0x2800) / 128)
  else if 0x3800 ≤ off ∧ off < 0x3C00 then some (46 + (off - 0x3800) / 128)
  else if 0x2C40 ≤ off ∧ off < 0x2DC0 then some (62 + (off - 0x2C40) / 64)
  else if 0x3500 ≤ off ∧ off < 0x3580 then some (74 + (off - 0x3500) / 32)
  else if 0x3600 ≤ off ∧ off < 0x3680 then some (74 + rd s (CAN_BIND_CTRL ((off - 0x3600) / 8)))
  else none

/-- The state of the domain in which the register at `off` stands; on where it stands in none. (log entry 81, DEDUCED) -/
def regPower (s : State) (off : Nat) : Domain :=
  match regDomain s off with
  | some d => Tbl.get Domain.on s.power.domains d
  | none => .on

/-- The windows of function `fn` answer: PF0's always, a virtual function's while VF Enable is 1 (host link R369, R399). (log entry 120, DESIGN CHOICE) -/
def fnAnswers (s : State) (fn : Nat) : Bool := fn == 0 || s.host.vfEnable

/-- Function `fn` writes the register at `off` by `f`, unless it does not answer, or a firmware commit or its reset in this cycle bars it (R538). A domain
that is off discards the write, and one that powers up or down flags it (timers R342, power R449). -/
def writes (fn off : Nat) (f : State → State) (s : State) : State :=
  if !fnAnswers s fn || s.barred.contains off || s.barred.contains (2 ^ 24 + fn) then s
  else match regPower s off with
    | .on => f s
    | .off => s
    | _ => flag PWR_STATUS_CFG_REJ s

/-- A software read of a read-clear field empties it but for what this cycle added (R14). -/
def clearRead (f : Fld) (s : State) : State :=
  match f.acc with
  | .rc => wr f (min f.max (Tbl.get 0 s.hw f.key)) s
  | _ => s

/-- The word that the fields make, each as it stood at the start of the cycle. -/
def wordOf (s : State) (fs : List Fld) : Word :=
  BitVec.ofNat 32 (fs.foldl (fun a f => a + rdStart s f * 2 ^ f.lo) 0)

/-- The word of present field values, as firmware and commands read it. -/
def wordNow (s : State) (fs : List Fld) : Word :=
  BitVec.ofNat 32 (fs.foldl (fun a f => a + rd s f * 2 ^ f.lo) 0)

/-- Every listed field back at its reset value. -/
def resetFields (fs : List Fld) (s : State) : State := fs.foldl (fun s f => wr f f.reset s) s

/-! ### Free values -/

/-- Draw a free value: nothing constrains it. (log entry 9, DEDUCED) -/
def draw (s : State) : Nat × State := (Config.free s.fresh, { s with fresh := s.fresh + 1 })

/-! ### Clients -/

/-- What the module holds of client `c`. -/
def client (s : State) (c : Nat) : Client := Tbl.get {} s.host.clients c

/-- Client `c` changed by `f`. -/
def onClient (c : Nat) (f : Client → Client) (s : State) : State :=
  { s with host := { s.host with clients := Tbl.set {} s.host.clients c (f (client s c)) } }

/-- Priority class of client `c`: 0 SAFETY, 1 CONTROL, 2 OBSERVER (host link R391). -/
def classOf (s : State) (c : Nat) : Nat := rd s (HL_CLIENT_CLASS c)

/-- Client `c` is of class SAFETY. -/
def isSafety (s : State) (c : Nat) : Bool := classOf s c == 0

/-- The SAFETY client, if there is one. -/
def safetyClient (s : State) : Option Nat := (List.range 256).find? (fun c => isSafety s c)

/-- The session of client `c` is open. -/
def sessionOpen (s : State) (c : Nat) : Bool := isSet s (CLI_HL_STATUS_SESSION c)

/-- The CAN FD binding that serves client `c`, if it is enabled (host link R370, R401). -/
def canBindingOf (s : State) (c : Nat) : Option Nat :=
  if 240 ≤ c ∧ c < 256 ∧ isSet s (CAN_BIND_EN (c - 240)) then some (c - 240) else none

/-- The even member of the pair that output `c` belongs to, where `DRV_PAIR` parallels it (drive R187). -/
def evenMember (s : State) (c : Nat) : Nat :=
  if c < 28 ∧ bitOf (rd s DRV_PAIR_PAIR) (c / 2) then c / 2 * 2 else c

/-- `c` is the odd member of a paralleled pair. -/
def oddMember (s : State) (c : Nat) : Bool :=
  decide (c < 28) && c % 2 == 1 && bitOf (rd s DRV_PAIR_PAIR) (c / 2)

/-- The client granted output `o` (0 to 35 solenoid channels, 36 to 51 auxiliary outputs); the odd member of a
paralleled pair follows its even member (host link R392). -/
def ownerOf (s : State) (o : Nat) : Option Nat :=
  let e := evenMember s o
  if isSet s (HL_OWN_VALID e) then some (rd s (HL_OWN_OWNER e)) else none

/-- Client `c` owns output `o`. -/
def owns (s : State) (c o : Nat) : Bool := ownerOf s o == some c

/-! ### Interrupt sources of the management cores -/

/-- Interrupt source `k` of the interrupt controller. -/
def intSrc (s : State) (k : Nat) : IntSrc := Tbl.get {} s.intc.src k

/-- Source `k` takes the state `x`. -/
def setSrc (k : Nat) (x : IntSrc) (s : State) : State :=
  { s with intc := { s.intc with src := Tbl.set {} s.intc.src k x } }

/-- The coalescing rule of R424 at one event: the count rises, the first event starts the timer, and the coalescer opens
when the count reaches `limit`. -/
def Coal.event (x : Coal) (limit cyc : Nat) : Coal :=
  if x.isOpen then x
  else
    { count := min 255 (x.count + 1)
      start := some (x.start.getD cyc)
      isOpen := decide (limit ≤ x.count + 1) }

/-- An event of an enabled source counts in its group (R424). -/
def groupEvent (k : Nat) (s : State) : State :=
  let g := rd s (INTC_SRC_GROUP k)
  let x := (Tbl.get {} s.intc.grp g : Coal).event (rd s (INTC_GRP_COUNT g)) s.cyc
  wr (INTC_GRP_PEND_COUNT g) x.count { s with intc := { s.intc with grp := Tbl.set {} s.intc.grp g x } }

/-- A group none of whose sources is pending closes, its count and timer cleared (R424). -/
def closeGroup (g : Nat) (s : State) : State :=
  if s.intc.src.any (fun x => x.2.pend && rd s (INTC_SRC_GROUP x.1) == g) then s
  else wr (INTC_GRP_PEND_COUNT g) 0 { s with intc := { s.intc with grp := Tbl.set {} s.intc.grp g {} } }

/-- Core `k`'s current priority: the higher of its threshold and the highest active source it claimed (R420). -/
def currentPriority (s : State) (k : Nat) : Nat :=
  s.intc.src.foldl (fun p x => if x.2.act == some k then max p (rd s (INTC_SRC_PRIO x.1)) else p) (rd s (INTC_THRESH_THRESH k))

/-- The hold bits in force: hold writes act from the cycle after theirs (DMA, Masking). -/
def holdNow (s : State) : Nat := if s.intc.holdAt = s.cyc then s.intc.heldBefore else rd s INTC_HOLD_HOLD

/-- Delivery to core `k` is held (R420). -/
def coreHeld (s : State) (k : Nat) : Bool := bitOf (holdNow s) k || bitOf (holdNow s) 4

/-- The group of source `i` is open (R424). -/
def groupOpen (s : State) (i : Nat) : Bool := (Tbl.get ({} : Coal) s.intc.grp (rd s (INTC_SRC_GROUP i))).isOpen

/-- Source `i`, in state `x`, is deliverable to core `k` (R420). -/
def deliverable (s : State) (i : Nat) (x : IntSrc) (k : Nat) : Bool :=
  x.pend && x.en && groupOpen s i && bitOf (rd s (INTC_SRC_TARGETS i)) k && !coreHeld s k &&
    decide (currentPriority s k < rd s (INTC_SRC_PRIO i))

/-- The core a source is offered to: lowest current priority, then the one that has gone longest without accepting (R420). -/
def coreFor (s : State) (i : Nat) (x : IntSrc) : Option Nat :=
  (List.range 4).foldl (fun b k =>
    if !deliverable s i x k then b
    else match b with
      | none => some k
      | some j =>
        let pj := currentPriority s j
        let pk := currentPriority s k
        if pk < pj ∨ (pk = pj ∧ Tbl.get 0 s.intc.accepted k < Tbl.get 0 s.intc.accepted j) then some k else some j) none

/-- In DOZE, the first doorbell, deliverable interrupt, crank edge or PF0 request returns the module to RUN (power R452). (log entry 25, DEDUCED) -/
def leaveDoze (s : State) : State := if rd s PWR_STATUS_STATE = 1 then wr PWR_STATUS_STATE 0 s else s

/-- A core to which any source is deliverable leaves DOZE (power R452). -/
def wakeDoze (s : State) : State := if s.intc.src.any (fun x => (coreFor s x.1 x.2).isSome) then leaveDoze s else s

/-- The request of source `k` rises, or pulses for an edge source (R419); a level that rises on an active source leaves its group closed
when nothing of it is pending (R424). -/
def requestRises (k : Nat) (s : State) : State :=
  let x := intSrc s k
  if rd s (INTC_SRC_TYPE k) = 1 then
    if x.en then groupEvent k (setSrc k { x with req := true, pend := true } s) else setSrc k { x with req := true } s
  else
    let p := x.en && x.act.isNone
    let s' := setSrc k { x with req := true, pend := p } s
    if x.en && !x.req then closeGroup (rd s (INTC_SRC_GROUP k)) (groupEvent k s') else s'

/-- A block raises interrupt source `k`; a deliverable interrupt ends DOZE (power R452). -/
def intRaise (k : Nat) (s : State) : State :=
  let s := requestRises k s
  if (coreFor s k (intSrc s k)).isSome then leaveDoze s else s

/-- The request of source `k` falls: a level request leaves nothing pending, and its group may close (R419, R424). -/
def intFall (k : Nat) (s : State) : State :=
  let x := intSrc s k
  closeGroup (rd s (INTC_SRC_GROUP k))
    (setSrc k (if rd s (INTC_SRC_TYPE k) = 1 then { x with req := false } else { x with req := false, pend := false }) s)

/-! ### MSI-X vectors (host link R395, DMA R425) -/

/-- MSI-X Enable of function `c` is 1. -/
def msixOn (s : State) (c : Nat) : Bool := (Tbl.get ({} : PcieFn) s.host.pcie c).msix

/-- Send the message of vector `v` of function `c`, or set its pending bit while it is masked or MSI-X is not enabled. (log entry 120, DESIGN CHOICE) -/
def msixSend (c v : Nat) (s : State) : State :=
  if isSet s (CLI_MSIX_CTRL_MASK c v) || !msixOn s c then
    wr (CLI_MSIX_PBA_PEND c) (setBit (rd s (CLI_MSIX_PBA_PEND c)) v true) s
  else { s with out := .msix c v :: s.out }

/-- A pending message of vector `v` of function `c` goes out once nothing keeps it back. -/
def msixRelease (c v : Nat) (s : State) : State :=
  let p := rd s (CLI_MSIX_PBA_PEND c)
  if bitOf p v && !isSet s (CLI_MSIX_CTRL_MASK c v) && msixOn s c then
    { wr (CLI_MSIX_PBA_PEND c) (setBit p v false) s with out := .msix c v :: s.out }
  else s

/-- A cause of vector `v` of function `c`: it counts in the vector's coalescer, and a release sends one message. -/
def vector (c v : Nat) (s : State) : State :=
  let k := 8 * c + v
  let x := (Tbl.get {} s.host.msix k : Coal).event (rd s (CLI_MSIX_COAL_COUNT c v)) s.cyc
  if x.isOpen then
    msixSend c v { s with host := { s.host with msix := Tbl.set {} s.host.msix k {} } }
  else { s with host := { s.host with msix := Tbl.set {} s.host.msix k x } }

/-- A cause that every function raises. (log entry 79, DESIGN CHOICE) -/
def vectorAll (v : Nat) (s : State) : State := (List.range 256).foldl (fun s c => vector c v s) s

/-! ### Rings (host link R374, R378, R385) -/

/-- Ring entries that a message with `n` payload words occupies inline (R378). -/
def entries (n : Nat) : Nat := (16 + 4 * n + 63) / 64

/-- Size of the response ring of client `c`. -/
def rspSize (s : State) (c : Nat) : Nat := 2 ^ rd s (CLI_RING_CFG_RSP_LOG2 c)

/-- Size of the request ring of client `c`. -/
def reqSize (s : State) (c : Nat) : Nat := 2 ^ rd s (CLI_RING_CFG_REQ_LOG2 c)

/-- Size of the fault ring of client `c`. -/
def fltSize (s : State) (c : Nat) : Nat := 2 ^ rd s (CLI_RING_CFG_FLT_LOG2 c)

/-- Entries free in a ring of `size` with producer `tail` and consumer `head`: one always stays empty. -/
def ringFree (size tail head : Nat) : Nat := size - 1 - (tail + size - head) % size

/-- Entries free in the response ring of client `c`. -/
def rspFree (s : State) (c : Nat) : Nat :=
  ringFree (rspSize s c) (rd s (CLI_RSP_TAIL_TAIL c)) (rd s (CLI_RSP_HEAD_HEAD c))

/-- The set bits of `x` among its low 36. -/
def onesOf (x : Nat) : Nat := ((List.range 36).filter (bitOf x)).length

/-- Words of the longest response that a request of `opcode` with value words `ws` can get, where they are more than the 12 that one
entry holds (command reference Tables 19-3 to 19-10). -/
def rspWords (s : State) (opcode : Nat) (ws : List Word) : Nat :=
  let w := fun i => ws.getD i 0
  match opcode with
  | 0x0141 => match s.angle.wheel with
    | none => 2
    | some d => 2 + (d.positions + 1) / 2
  | 0x0155 => 2 * bits (w 0) 12 8
  | 0x0157 => 1 + bits (w 0) 20 16
  | 0x0161 => 57
  | 0x0163 | 0x0169 => 18
  | 0x0166 => 20
  | 0x0167 => 68
  | 0x016A => 3 * onesOf ((w 0).toNat + bits (w 1) 3 0 * 2 ^ 32)
  | 0x0181 => 13
  | 0x0195 => 26
  | 0x0196 => 19 + 4 * onesOf (w 0).toNat
  | 0x0300 => ws.length
  | 0x0310 => 2 + 8 * bits (w 2) 11 0
  | 0x0411 => 141
  | _ => 0

/-- A message of `n` words travels inline on client `c`'s rings (R378). (log entry 17, DEDUCED) -/
def inlineFits (s : State) (c n : Nat) : Bool := decide (entries n ≤ 16) && decide (2 * entries n ≤ reqSize s c)

/-- The response to a request of client `c` can travel inline: by its rings, or as one message of its CAN FD binding (R378, R402). -/
def answerFits (s : State) (c n : Nat) : Bool :=
  if (canBindingOf s c).isSome then decide (entries n ≤ 16) else inlineFits s c n

/-- Entries kept for the response to a request of client `c`: its inline size, or one where it cannot travel inline (R385). -/
def rspEntries (s : State) (c opcode : Nat) (ws : List Word) : Nat :=
  let n := rspWords s opcode ws
  if inlineFits s c n then entries n else 1

/-- Entries kept for the responses of requests read and not yet answered (R385), and for those answered whose responses wait for entries.
The values of a request whose buffer is still on its way are taken at their largest. (log entry 17, DEDUCED) -/
def rspReserved (s : State) (c : Nat) : Nat :=
  (client s c).requests.foldl (fun a r =>
    if r.dead then a
    else a + rspEntries s c r.opcode (if r.fetched then r.msg.words else List.replicate 16 0xFFFFFFFF))
    ((client s c).owed.foldl (fun a x => a + x.1) 0)

/-- With `SHADOW_EN`, the module writes its shadow of `CLI_REQ_HEAD` and `CLI_RSP_TAIL` (R375). -/
def shadowWrite (c : Nat) (s : State) : State :=
  if isSet s (CLI_RING_CFG_SHADOW_EN c) then
    { s with out := .shadow c (rd s (CLI_REQ_HEAD_HEAD c)) (rd s (CLI_RSP_TAIL_TAIL c)) :: s.out }
  else s

/-- Shedding stands at level 1 or more: messages carry `MP_SAT` (R396). -/
def mpSat (s : State) : Bool := decide (1 ≤ rd s HL_STATUS_LEVEL)

/-- Write a message of `n` entries into the response ring: the producer moves on, its phase inverts at the wrap, and
vector 0 is raised (R374, R395). -/
def rspWrite (c n : Nat) (indirect : Bool) (m : ModMsg) (s : State) : State :=
  let t := rd s (CLI_RSP_TAIL_TAIL c)
  let p := isSet s (CLI_RSP_TAIL_PHASE c)
  let size := rspSize s c
  let s := { s with out := .ring c .response t p (mpSat s) indirect m :: s.out }
  let s := wr (CLI_RSP_TAIL_TAIL c) ((t + n) % size) s
  let s := if t + n < size then s else wrB (CLI_RSP_TAIL_PHASE c) (!p) s
  vector c 0 (shadowWrite c s)

/-- Write a response of `n` entries, or keep it until the host has returned the entries it needs and those before it have been written
(R374, R385). (log entry 121, DEDUCED) -/
def rspSend (c n : Nat) (indirect : Bool) (m : ModMsg) (s : State) : State :=
  if (client s c).owed.isEmpty && decide (n ≤ rspFree s c) then rspWrite c n indirect m s
  else onClient c (fun x => { x with owed := x.owed ++ [(n, indirect, m)] }) s

/-- The responses `l` that have waited are written in order, as far as returned entries go. (log entry 121, DEDUCED) -/
def rspFlush (c : Nat) : List (Nat × Bool × ModMsg) → State → State
  | [], s => onClient c (fun x => { x with owed := [] }) s
  | (n, i, m) :: l, s =>
    if n ≤ rspFree s c then rspFlush c l (rspWrite c n i m s)
    else onClient c (fun x => { x with owed := (n, i, m) :: l }) s

/-- Write a one-entry message into the fault ring and raise vector 1 (R394, R479). -/
def fltWrite (c : Nat) (m : ModMsg) (s : State) : State :=
  let t := rd s (CLI_FLT_TAIL_TAIL c)
  let p := isSet s (CLI_FLT_TAIL_PHASE c)
  let size := fltSize s c
  let s := { s with out := .ring c .fault t p (mpSat s) false m :: s.out }
  let s := wr (CLI_FLT_TAIL_TAIL c) ((t + 1) % size) s
  let s := if t + 1 < size then s else wrB (CLI_FLT_TAIL_PHASE c) (!p) s
  vector c 1 s

/-! ### Faults (faults R475 to R479) -/

/-- A fault is detected: the detecting block captures the cycle counter; the record is formed later (R479). -/
def raise (code source : Nat) (detail : Word) (action : Nat) (s : State) : State :=
  let swapping := match s.boot.swap with
    | some w => w.coresReset
    | none => false
  let e : FaultEv := { code, source, detail, action, cyc := s.cyc, excess := swapping && decide (64 ≤ s.faults.length) }
  { s with faults := s.faults ++ [e] }

/-- Action bits of Table 17-4. -/
def actEvent : Nat := 1
def actOff : Nat := 2
def actLatch : Nat := 4
def actSync : Nat := 8
def actRole : Nat := 16
def actHalt : Nat := 32
def actReduced : Nat := 64
def actRestart : Nat := 128

/-- `DETAIL` that names a client in [31:24] (Table 17-5). -/
def detailClient (c : Nat) : Word := BitVec.ofNat 32 (c * 2 ^ 24)

/-- At most once per second: the event at `now` counts when none was noted within the second before it. (log entry 17, DEDUCED) -/
def oncePerSecond (last : Option Nat) (now : Nat) : Bool :=
  match last with
  | none => true
  | some t => decide (t + secondCycles ≤ now)

/-! ### Notices (host link R393) -/

/-- A notice or fault record of client `c` is lost: counted, flagged, and `F_0804` at most once per second. (log entry 14, DEDUCED) -/
def loseNotice (c : Nat) (s : State) : State :=
  let s := flag (CLI_HL_STATUS_NOTICE_OVF c) (count (CLI_HL_COUNT_LOST c) 1 s)
  if oncePerSecond (client s c).f0804At s.cyc then
    onClient c (fun x => { x with f0804At := some s.cyc }) (raise 0x0804 0xE0 (detailClient c) 0 s)
  else s

/-- The `NOTICES_LOST` bookkeeping: one more notice lost at the present `SEQ_CYCLE`. -/
def noteLost (c : Nat) (s : State) : State :=
  let n := rd s SEQ_CYCLE_CYCLE
  onClient c (fun x => { x with lost := x.lost + 1, lostFirst := if x.lost = 0 then n else x.lostFirst, lostLast := n }) s

/-- Send a notice to its client: discarded and counted without a session; written into response ring space left over by
R385 when nothing older is held; held up to 64; lost beyond (R393, R399). A client on CAN FD is held the same way. (log entry 14, DEDUCED) -/
def notice (m : ModMsg) (s : State) : State :=
  let c := m.client
  if !sessionOpen s c && !((client s c).ringLeft && isSet s (CLI_RING_CFG_ENABLE c)) then
    count (CLI_HL_COUNT_LOST c) 1 s
  else if (client s c).held = [] ∧ canBindingOf s c = none ∧ isSet s (CLI_RING_CFG_ENABLE c)
      ∧ entries m.words.length + rspReserved s c ≤ rspFree s c then
    rspWrite c (entries m.words.length) false m s
  else if (client s c).held.length < 64 then onClient c (fun x => { x with held := x.held ++ [m] }) s
  else loseNotice c (noteLost c s)

/-! ### Responses (host link R386, R517) -/

/-- The request that a response answers, among those outstanding of its client. -/
def isAnswered (opcode : Nat) (m : Msg) (r : Request) : Bool := r.opcode == opcode && r.msg.seq == m.seq

/-- The oldest outstanding request that `m` answers is gone. (log entry 11, DEDUCED) -/
def dropRequest (opcode : Nat) (m : Msg) : List Request → List Request
  | [] => []
  | r :: rs => if isAnswered opcode m r then rs else r :: dropRequest opcode m rs

/-- Firmware runs opcode `code`; the admission path runs 0x0200 to 0x02FF (architecture R32). -/
def isFirmware (code : Nat) : Bool := code / 256 != 2

/-- Dispatch in ring order (R383, R384): a request goes to its executor when its payload is there, no earlier one of its
path waits, a `FENCE` has no earlier request before it, and fewer than 16 firmware requests are out. `ahead` tells whether
anything is outstanding, `fw` and `adm` whether an earlier request of the path waits, `out` how many firmware requests are
dispatched; `now` dates a dispatch. (log entry 12, DEDUCED) -/
def dispatchPass (now : Nat) (ahead fw adm : Bool) (out : Nat) : List Request → List Request
  | [] => []
  | r :: rs =>
    let f := isFirmware r.opcode
    let go := r.dispatched || (r.fetched && !(r.fence && ahead) && !(if f then fw || decide (16 ≤ out) else adm))
    let r' := if r.dispatched then r else { r with dispatched := go, since := if go then now else r.since }
    r' :: dispatchPass now true (fw || (f && !go)) (adm || (!f && !go)) (if f && go then out + 1 else out) rs

/-- Firmware-path messages are read and dispatched: not during a swap, nor once entry to a sleep state was accepted (start-up
R441, power R453). -/
def readsFirmware (s : State) : Bool := s.boot.swap.isNone && !isSet s PWR_STATUS_CHANGING

/-- Hand on every request of client `c` that may go. (log entry 12, DEDUCED) -/
def dispatch (c : Nat) (s : State) : State :=
  onClient c (fun x =>
    { x with requests := dispatchPass s.cyc false (!readsFirmware s) false 0 x.requests }) s

/-- Hand on the requests of every client. -/
def dispatchAll (s : State) : State := s.host.clients.foldl (fun s x => dispatch x.1 s) s

/-- Hand a response to its transport. (log entry 124, DESIGN CHOICE) -/
def sendResponse (m : Msg) (r : ModMsg) (s : State) : State :=
  let c := m.client
  match canBindingOf s c with
  | some k =>
    let b : CanBinding := Tbl.get {} s.can.bindings k
    { s with can := { s.can with bindings := Tbl.set {} s.can.bindings k { b with responses := b.responses ++ [r] } } }
  | none =>
    if !isSet s (CLI_RING_CFG_ENABLE c) then s
    else if inlineFits s c r.words.length then
      rspSend c (entries r.words.length) false r s
    else if 4 * r.words.length ≤ m.rspLen then rspSend c 1 true r s
    else rspSend c 1 false { r with status := 0x15, detail := 0, words := [] } s

/-- Answer the request `m` of `opcode`: only `OK` carries a payload; any other status counts in `REFUSED`. A request
whose session ended while it was outstanding gets no response (R386, R517). (log entry 11, DEDUCED) -/
def respond (opcode : Nat) (m : Msg) (status detail : Nat) (words : List Word) (s : State) : State :=
  let c := m.client
  let dead := match (client s c).requests.find? (isAnswered opcode m) with
    | none => false
    | some r => r.dead
  let s := dispatch c (onClient c (fun x => { x with requests := dropRequest opcode m x.requests }) s)
  let s := if isFirmware opcode then { s with host := { s.host with served := Tbl.insert s.host.served (classOf s c) c } } else s
  if dead then s
  else
    let s := if status = 0 then s else count (CLI_HL_COUNT_REFUSED c) 1 s
    sendResponse m { client := c, opcode, seq := m.seq, status, detail, unsol := false,
                     words := if status = 0 then words else [] } s

/-- Answer `OK` without payload. -/
def ok (opcode : Nat) (m : Msg) (s : State) : State := respond opcode m 0 0 [] s

/-- Refuse a request. -/
def refuse (opcode : Nat) (m : Msg) (status : Nat) (s : State) : State := respond opcode m status 0 [] s

/-! ### Time -/

/-- The state as time moves on by `dt` core cycles: the counter advances, and a new cycle forgets what happened in the
last one. (log entries 2, DESIGN CHOICE, 94, DESIGN CHOICE) -/
def tick (dt : Nat) (s : State) : State :=
  if dt = 0 then s else { s with cyc := s.cyc + dt, was := [], hw := [], sw := [], barred := [] }

/-- The core clock runs: not held in reset, not in STANDBY or SENTINEL. (log entry 2, DESIGN CHOICE) -/
def awake (s : State) : Bool :=
  !s.boot.held && match s.power.phase with
    | .window _ | .offWait _ | .asleep _ | .onWait _ => false
    | _ => true

end Sys2Proof.Machine
end

