-- ==== Sys2Proof/Machine/Commands.lean ====
section
/-! DEFINITION. Yilvex opcodes: their codes, who may send them, the version that brings each, the length of its payload
(command reference Table 19-2 and the layout tables), and the checks every command passes first. -/
namespace Sys2Proof.Machine

/-- One row of Table 19-2: the classes it is open to, the version that brings it (16 × major + minor), whether firmware
runs it, and the number of its value words where that is fixed (R511). -/
structure OpRow where
  any : Bool
  control : Bool
  since : Nat
  firmware : Bool
  words : Option Nat
  deriving DecidableEq, Repr

/-- Open to every class. -/
def opAny (since : Nat) (words : Option Nat) : OpRow := ⟨true, true, since, true, words⟩
/-- Open to SAFETY and CONTROL. -/
def opCtl (since : Nat) (words : Option Nat) : OpRow := ⟨false, true, since, true, words⟩
/-- Open to SAFETY alone. -/
def opSafe (since : Nat) (words : Option Nat) : OpRow := ⟨false, false, since, true, words⟩

/-- Table 19-2, opcodes below 0x0180. -/
def opRowLow (code : Nat) : Option OpRow :=
  match code with
  | 0x0001 => some (opAny 0x10 (some 3))
  | 0x0002 => some (opAny 0x10 (some 0))
  | 0x0130 => some (opCtl 0x10 (some 37))
  | 0x0131 => some (opCtl 0x10 (some 0))
  | 0x0132 => some (opCtl 0x10 none)
  | 0x0140 => some (opCtl 0x10 (some 1))
  | 0x0141 => some (opAny 0x10 (some 1))
  | 0x0142 => some (opCtl 0x10 none)
  | 0x0143 => some (opCtl 0x10 (some 0))
  | 0x0150 => some (opCtl 0x20 none)
  | 0x0151 => some (opCtl 0x20 (some 1))
  | 0x0152 => some (opCtl 0x20 (some 1))
  | 0x0153 => some (opCtl 0x20 (some 1))
  | 0x0154 => some (opCtl 0x20 none)
  | 0x0155 => some (opAny 0x20 (some 1))
  | 0x0156 => some (opCtl 0x20 none)
  | 0x0157 => some (opAny 0x20 (some 1))
  | 0x0160 => some (opCtl 0x10 (some 28))
  | 0x0161 => some (opAny 0x10 (some 1))
  | 0x0162 => some (opCtl 0x10 (some 3))
  | 0x0163 => some (opCtl 0x10 (some 2))
  | 0x0164 => some (opCtl 0x10 (some 3))
  | 0x0165 => some (opCtl 0x10 (some 2))
  | 0x0166 => some (opAny 0x10 (some 2))
  | 0x0167 => some (opAny 0x10 (some 1))
  | 0x0168 => some (opCtl 0x22 (some 5))
  | 0x0169 => some (opCtl 0x22 (some 2))
  | 0x016A => some (opAny 0x22 (some 2))
  | 0x0170 => some (opCtl 0x10 (some 3))
  | 0x0171 => some (opAny 0x10 (some 1))
  | 0x0172 => some (opAny 0x10 (some 1))
  | _ => none

/-- Table 19-2, opcodes from 0x0180. -/
def opRowHigh (code : Nat) : Option OpRow :=
  match code with
  | 0x0180 => some (opSafe 0x30 (some 1))
  | 0x0181 => some (opAny 0x30 (some 0))
  | 0x0182 => some (opSafe 0x30 (some 1))
  | 0x0190 => some (opCtl 0x21 (some 10))
  | 0x0191 => some (opAny 0x21 (some 2))
  | 0x0192 => some (opCtl 0x21 (some 1))
  | 0x0193 => some (opCtl 0x21 (some 1))
  | 0x0194 => some (opSafe 0x30 (some 3))
  | 0x0195 => some (opCtl 0x31 (some 3))
  | 0x0196 => some (opAny 0x21 (some 1))
  | 0x0210 => some ⟨false, true, 0x10, false, none⟩
  | 0x0211 => some ⟨false, true, 0x10, false, some 1⟩
  | 0x0212 => some ⟨false, true, 0x10, false, some 4⟩
  | 0x0220 => some ⟨false, true, 0x20, false, some 2⟩
  | 0x0221 => some ⟨false, true, 0x20, false, some 1⟩
  | 0x0230 => some ⟨false, false, 0x30, false, some 2⟩
  | 0x0231 => some ⟨false, false, 0x30, false, some 2⟩
  | 0x0240 => some ⟨true, true, 0x10, false, some 1⟩
  | 0x0300 => some (opAny 0x10 none)
  | 0x0310 => some (opAny 0x10 (some 3))
  | 0x0320 => some (opAny 0x10 (some 3))
  | 0x0410 => some (opSafe 0x31 (some 1))
  | 0x0411 => some (opAny 0x31 (some 0))
  | 0x0412 => some (opAny 0x31 (some 1))
  | 0x0420 => some (opCtl 0x31 (some 2))
  | 0x0421 => some (opAny 0x10 (some 0))
  | 0x0500 => some (opSafe 0x30 none)
  | 0x0501 => some (opSafe 0x30 (some 0))
  | 0x0502 => some (opSafe 0x30 (some 0))
  | 0x0503 => some (opAny 0x10 (some 0))
  | 0x0505 => some (opSafe 0x30 (some 4))
  | _ => none

/-- Table 19-2: the row of an opcode that a client may send. -/
def opRow (code : Nat) : Option OpRow := if code < 0x0180 then opRowLow code else opRowHigh code

/-- The version negotiated with client `c`, as 16 × major + minor (R387). -/
def versionOf (s : State) (c : Nat) : Nat := rd s (CLI_HL_STATUS_VERSION c)

/-- The class of client `c` may send an opcode of row `r` (R514). -/
def classAllows (r : OpRow) (cls : Nat) : Bool := r.any || (r.control && cls == 1) || cls == 0

/-- The checks that every command meets before its own, in the order of Table 13-4, then the length of R511: the first
that fails gives the status and detail. -/
def commonCheck (code : Nat) (m : Msg) (s : State) : Option (Nat × Nat) :=
  match opRow code with
  | none => some (0x16, 0)
  | some r =>
    if code ≠ 1 ∧ !sessionOpen s m.client then some (0x17, 0)
    else if code ≠ 1 ∧ versionOf s m.client < r.since then some (0x1A, 0)
    else if m.urgent ∧ versionOf s m.client < 0x30 then some (0x1A, 0)
    else if m.rspLen = 0 ∧ !answerFits s m.client (rspWords s code m.words) then some (0x15, 0)
    else if !classAllows r (classOf s m.client) then some (0x02, 0)
    else match r.words with
      | none => none
      | some n => if m.words.length = n then none else some (0x0B, 0xFF)

/-- Firmware runs and takes commands: ready, and not in the restart of a swap. -/
def firmwareRuns (s : State) : Bool :=
  isSet s GLB_BOOT_FW_READY && match s.boot.swap with
    | none => true
    | some w => !w.coresReset

/-- The executor of `code` is there to run it. (log entry 12, DEDUCED) -/
def serves (code : Nat) (s : State) : Bool :=
  awake s && match opRow code with
    | some r => !r.firmware || firmwareRuns s
    | none => firmwareRuns s

/-! ### Whose turn it is (architecture R33, host link R397) -/

/-- The command that waits for a flash program. -/
def FlashJob.cmd : FlashJob → Msg
  | .chunk cmd _ _ | .commit cmd _ _ | .startRec cmd _ _ | .map cmd => cmd

/-- The messages whose commands have begun and are answered later. (log entry 101, DEDUCED) -/
def begun (s : State) : List Msg :=
  s.drive.storing.map (fun x => x.2.1) ++ s.drive.cals.map (fun x => x.1) ++ s.acq.tests.map (fun x => x.1) ++
  (s.angle.learn.map (fun l => l.cmd)).toList ++ s.angle.mapNext.filterMap (fun w => w.cmd) ++
  s.acq.urgent.filterMap (fun x => x.2.bind (fun u => u.cmd)) ++
  s.pulse.pairs.filterMap (fun x => x.2.switch.map (fun w => w.1)) ++ s.pulse.pairs.flatMap (fun x => x.2.puts) ++
  (s.tie.handover.map (fun h => h.cmd)).toList ++ s.rtc.cmds ++ (s.boot.swap.map (fun w => w.cmd)).toList ++
  s.boot.jobs.map FlashJob.cmd ++ s.host.restarting.flatMap (fun x => x.2.map (fun r => r.msg))

/-- What the command `m` has under way in the angle tracker, the pairing and the clock is gone. (log entry 126, DEDUCED) -/
def dropWaits (m : Msg) (s : State) : State :=
  let s := if s.angle.learn.any (fun l => l.cmd == m) then
      wrB ANG_STATUS_CL_LEARNING false { s with angle := { s.angle with learn := none } }
    else s
  let s := { s with angle := { s.angle with mapNext := s.angle.mapNext.filter (fun w => w.cmd != some m) } }
  let s := if s.tie.handover.any (fun h => h.cmd == m) then { s with tie := { s.tie with handover := none } } else s
  if s.rtc.cmds.contains m then
    wrB RTC_STATUS_STAGED false { s with rtc := { s.rtc with time := none, date := none, ready := false, cmds := [] } }
  else s

/-- The pulse exchange and the parameter writes of the command `m` are gone. (log entry 126, DEDUCED) -/
def dropPulse (m : Msg) (s : State) : State :=
  s.pulse.pairs.foldl (fun s x =>
    let mine := x.2.switch.any (fun w => w.1 == m)
    let y := { x.2 with switch := if mine then none else x.2.switch, puts := x.2.puts.filter (fun n => n != m) }
    let s := { s with pulse := { s.pulse with pairs := Tbl.set {} s.pulse.pairs x.1 y } }
    if mine then wrB (PLS_CTRL_SWITCH_PEND x.1) false s else s) s

/-- The command `m`, begun and cut short by a restart of its core, is not applied: it is in no queue any more (host link R398, start-up
Table 15-5). A conversion, a calibration or a test that it asked for goes on for nobody. (log entry 126, DEDUCED) -/
def cutShort (m : Msg) (s : State) : State :=
  let s := dropPulse m (dropWaits m s)
  { s with
    drive := { s.drive with storing := s.drive.storing.filter (fun x => x.2.1 != m), cals := s.drive.cals.filter (fun x => x.1 != m) }
    boot := { s.boot with jobs := s.boot.jobs.filter (fun j => j.cmd != m) }
    acq := { s.acq with tests := s.acq.tests.filter (fun x => x.1 != m), urgent := s.acq.urgent.map (fun (k, u) =>
      (k, u.map (fun u => { u with cmd := if u.cmd = some m then none else u.cmd }))) } }

/-- The requests that their executor has still to take. (log entry 101, DEDUCED) -/
def waiting (s : State) : List Request :=
  s.host.clients.flatMap (fun x => x.2.requests.filter (fun r => r.dispatched && !r.dead && !(begun s).contains r.msg))

/-- The place of a request among those that its executor has before it, lowest first: the admission path takes SAFETY before all
others (R33); firmware takes class by class, the clients of a class in turn, and from shedding level 2 on a diagnostic request without
`URGENT` after every other (R397). (log entry 101, DEDUCED) -/
def servingRank (s : State) (code : Nat) (m : Msg) : Nat :=
  let cls := classOf s m.client
  if isFirmware code then
    let late := decide (2 ≤ rd s HL_STATUS_LEVEL) && code / 256 == 3 && !m.urgent && cls != 0
    let turn := match Tbl.find s.host.served cls with
      | some c => (m.client + 255 - c) % 256
      | none => m.client
    (if late then 1024 else 0) + cls * 256 + turn
  else if cls = 0 then 0 else 1

/-- The command `m` was cut by the reset of the core that ran it (host link R398). -/
def interrupted (code : Nat) (m : Msg) (s : State) : Bool :=
  s.host.restarting.any (fun x => x.2.any (fun r => r.opcode == code && r.msg == m))

/-- No request that its executor takes before `m` waits, and `m` was not cut by a restart. (log entry 101, DEDUCED) -/
def itsTurn (code : Nat) (m : Msg) (s : State) : Bool :=
  !interrupted code m s && (waiting s).all (fun r =>
    isFirmware r.opcode != isFirmware code || decide (servingRank s code m ≤ servingRank s r.opcode r.msg))

/-- Run a command: nothing happens while its executor is not there or takes another first; a failed common check is its answer;
otherwise `f`. (log entries 11, DEDUCED, 101, DEDUCED) -/
def command (code : Nat) (m : Msg) (f : State → State) (s : State) : Host.Outcome State Fault Refusal :=
  .next (if serves code s && itsTurn code m s then
    match commonCheck code m s with
    | some (st, d) => respond code m st d [] s
    | none => f s
  else s)

/-- Value word `i` of a payload, 0 beyond its end. -/
def word (m : Msg) (i : Nat) : Word := m.words.getD i 0

/-- The index of the first word that has a bit outside its mask (R512). -/
def badWord : List Word → List Word → Nat → Option Nat
  | w :: ws, k :: ks, i => if w &&& ~~~k = 0 then badWord ws ks (i + 1) else some i
  | _, _, _ => none

/-- The reserved-field check of R512 over the payload. -/
def reservedBad (m : Msg) (masks : List Word) : Option Nat := badWord m.words masks 0

/-- A 36-channel mask from its two words (V0 channels 0 to 31, V1 [3:0] channels 32 to 35). -/
def chanMask (v0 v1 : Word) : Nat := v0.toNat + v1.toNat % 16 * 2 ^ 32

/-- 16-bit item statuses packed into words, padded with 0xFFFF to a multiple of 8 bytes (R516). -/
def packItems : List Nat → List Word
  | [] => []
  | a :: [] => [BitVec.ofNat 32 (a + 0xFFFF0000), 0xFFFFFFFF]
  | a :: b :: [] => [BitVec.ofNat 32 (a + b * 65536), 0xFFFFFFFF]
  | a :: b :: c :: [] => [BitVec.ofNat 32 (a + b * 65536), BitVec.ofNat 32 (c + 0xFFFF0000)]
  | a :: b :: c :: d :: r =>
    BitVec.ofNat 32 (a + b * 65536) :: BitVec.ofNat 32 (c + d * 65536) :: packItems r

end Sys2Proof.Machine
end

