-- ==== Sys2Proof/Machine/Predict.lean ====
section
/-! DEFINITION. The chain and the prediction: tooth positions and their angles, the course of the chain, predicted periods and
times (wheel R42, angle R82 to R94, R99, scheduling R124). -/
namespace Sys2Proof.Machine

/-- Links in one cycle. -/
def turn : Nat := 16777216

/-- Accumulator units in one link: 19 fraction bits (R83). -/
def unit : Nat := 524288

/-! ### States and positions -/

/-- Sync state (wheel Table 2-5). -/
def syncState (s : State) : Nat := rd s WHL_STATUS_STATE

/-- LOCKED or PHASED. -/
def synced (s : State) : Bool := decide (2 ≤ syncState s)

/-- PHASED. -/
def phased (s : State) : Bool := syncState s == 3

/-- The engine turns: LOCKED or higher, or a crank tooth seen within the last second (architecture R36). (log entry 25, DEDUCED) -/
def rotating (s : State) : Bool :=
  synced s || match s.angle.lastTooth with
    | some t => decide (s.cyc < t + secondCycles)
    | none => false

/-- Direction REVERSE. -/
def reversed (s : State) : Bool := isSet s WHL_STATUS_REVERSE

/-- Cam limp. -/
def limping (s : State) : Bool := isSet s WHL_STATUS_LIMP

/-- `ANG_CFG` in effect (R113). -/
def angCfg (s : State) (f : Fld) : Nat :=
  match s.angle.cfg with
  | some x => f.ofWord x
  | none => f.reset

/-- Position `j` is one of the missing positions. -/
def isMissing (w : Wheel) (j : Nat) : Bool := decide (w.positions - w.missing ≤ j % w.positions)

/-- The next position in forward order that ends an interval. -/
def nextTooth (w : Wheel) (j : Nat) : Nat :=
  if isMissing w (j + 1) then (j + 1 + w.missing) % w.cycle else (j + 1) % w.cycle

/-- The position before `j` in forward order. -/
def prevTooth (w : Wheel) (j : Nat) : Nat :=
  let p := (j + w.cycle - 1) % w.cycle
  if isMissing w p then (p + w.cycle - w.missing) % w.cycle else p

/-- The position that follows `j` in the direction of rotation. -/
def followTooth (w : Wheel) (back : Bool) (j : Nat) : Nat := if back then prevTooth w j else nextTooth w j

/-- Pitches in the interval that ends at `j`, going forward (angle, "Tooth angles"). -/
def weight (w : Wheel) (j : Nat) : Nat := if j % w.positions = 0 then w.missing + 1 else 1

/-- One pitch in links. -/
def pitch (w : Wheel) : Frac := Frac.make turn w.cycle

/-- The crank input whose map and offset apply: 0 A, 1 B. -/
def crankInUse (s : State) : Nat := if rd s WHL_STATUS_CRANK_SRC = 1 then 1 else 0

/-- The closure map of crank input `k`. -/
def mapOf (s : State) (k : Nat) : ClosureMap := if k = 1 then s.angle.mapB else s.angle.mapA

/-- The factor C of revolution position `r` (R100). -/
def mapFactor (m : ClosureMap) (r : Nat) : Frac := Frac.make (65536 + Tbl.get 0 m.entries r) 65536

/-- Sum of w × c over the positions from 1 to `j` that end an interval (R85). -/
def mapSum (w : Wheel) (m : ClosureMap) (j : Nat) : Int :=
  m.entries.foldl (fun a (r, c) =>
    let n := if r = 0 then j / w.positions else (j + w.positions - r) / w.positions
    a + (if r = 0 then w.missing + 1 else 1) * c * n) 0

/-- `CRANK_B_OFFSET` for crank B (wheel R65, R66). -/
def crankOffset (w : Wheel) (k : Nat) : Int := if k = 1 then w.bOffset else 0

/-- A(j) for crank input `k` (R85); with an empty map the nominal angle of R42. (log entry 23, DEDUCED) -/
def toothAngle (w : Wheel) (m : ClosureMap) (k j : Nat) : Nat :=
  ofSigned 24 (w.tooth0 + crankOffset w k +
    roundDiv (turn * (65536 * j + mapSum w m j)) (65536 * w.cycle))

/-- δ of R86 for crank input `k`, mirrored in REVERSE (R94). (log entry 23, DEDUCED) -/
def filterLag (s : State) (w : Wheel) (k : Nat) : Int :=
  let d := (Frac.div ((pitch w).mul (Frac.int (rd s (WHL_IN_CFG_FILTER_N k)))) s.angle.mean).round
  if reversed s then -d else d

/-- A′(j) for crank input `k` (R86). (log entry 23, DEDUCED) -/
def trueAngle (s : State) (w : Wheel) (k j : Nat) : Nat :=
  ofSigned 24 (toothAngle w (mapOf s k) k j + filterLag s w k)

/-! ### The chain -/

/-- The value of a course at cycle `x` (R83, R92, R93). -/
def Course.value (c : Course) (x : Nat) : Int :=
  let d : Int := (x - c.at_ : Nat) * c.step
  let base := c.hold.getD c.start
  if c.back then
    let run := c.start - d
    min base (match c.stake with | some t => max run t | none => run)
  else
    let run := c.start + d
    max base (match c.stake with | some t => min run t | none => run)

/-- The accumulator at cycle `x`, not wrapped. -/
def chainAt (s : State) (x : Nat) : Int :=
  match s.angle.courses.find? (fun c => decide (c.at_ ≤ x)) with
  | some c => c.value x
  | none => 0

/-- The accumulator now. -/
def chainNow (s : State) : Int := chainAt s s.cyc

/-- The chain: whole links of the accumulator, wrapped. -/
def chain (s : State) : Nat := ofSigned 24 (chainNow s / unit)

/-- The shadow accumulator at cycle `x`: it never waits (R90). -/
def shadowAt (s : State) (x : Nat) : Int :=
  let c := s.angle.shadow
  let d : Int := (x - c.at_ : Nat) * c.step
  if c.back then c.start - d else c.start + d

/-- The rate in use, accumulator units per cycle. -/
def rateNow (s : State) : Nat :=
  match s.angle.courses.find? (fun c => decide (c.at_ ≤ s.cyc)) with
  | some c => c.step
  | none => 0

/-- Links from `a` to `b` in the direction of rotation. -/
def ahead (back : Bool) (a b : Nat) : Nat := if back then (a + turn - b) % turn else (b + turn - a) % turn

/-- The chain has reached angle `a`: it lies within the half cycle behind the chain, or equals it (R130). -/
def reached (s : State) (a : Nat) : Bool := decide (ahead (reversed s) a (chain s) ≤ turn / 2)

/-! ### Predicted periods (R87) -/

/-- Speed of the last revolution in rpm: 60 / (P × T̄) (wheel R551). -/
def speedRpm (s : State) (w : Wheel) : Frac :=
  Frac.div (Frac.int (60 * secondCycles)) (s.angle.mean.mul (Frac.int w.positions))

/-- The factor F of band `b` and cycle position `j`. -/
def firingFactor (s : State) (b j : Nat) : Frac :=
  if reversed s || angCfg s ANG_CFG_FP_ENABLE == 0 then Frac.int 1
  else Frac.make (16777216 + Tbl.get 0 s.angle.firing (b * 2048 + j)) 16777216

/-- T̂(j): the predicted period of the interval that ends at `j`. -/
def period (s : State) (w : Wheel) (j : Nat) : Frac :=
  (s.angle.mean.mul (Frac.int (weight w j))).mul
    ((mapFactor (mapOf s (crankInUse s)) (j % w.positions)).mul (firingFactor s (rd s ANG_STATUS_BAND) j))

/-- The exact length in links of the interval that ends at `j` (R89). -/
def span (s : State) (w : Wheel) (j : Nat) : Frac :=
  ((pitch w).mul (Frac.int (weight w j))).mul (mapFactor (mapOf s (crankInUse s)) (j % w.positions))

/-- A′(j) for the crank input in use. -/
def angleOf (s : State) (w : Wheel) (j : Nat) : Nat := trueAngle s w (crankInUse s) j

/-! ### Finding the interval of an angle -/

/-- Links of A′(j) beyond A′(0). -/
def relAngle (s : State) (w : Wheel) (j : Nat) : Nat := ahead false (angleOf s w 0) (angleOf s w j)

/-- From position `j`, the highest position at or below `j` whose angle is not beyond `rel`. -/
def seekDown (s : State) (w : Wheel) (rel : Nat) : Nat → Nat → Nat
  | 0, j => j
  | n + 1, j => if j = 0 ∨ relAngle s w j ≤ rel then j else seekDown s w rel n (j - 1)

/-- From position `j`, the last position above it whose angle is not beyond `rel`. -/
def seekUp (s : State) (w : Wheel) (rel : Nat) : Nat → Nat → Nat
  | 0, j => j
  | n + 1, j => if j + 1 < w.cycle ∧ relAngle s w (j + 1) ≤ rel then seekUp s w rel n (j + 1) else j

/-- The position that begins, going forward, the interval in which angle `a` lies. -/
def lowerTooth (s : State) (w : Wheel) (a : Nat) : Nat :=
  let rel := ahead false (angleOf s w 0) a
  let j := seekUp s w rel w.cycle (seekDown s w rel w.cycle (rel * w.cycle / turn))
  if isMissing w j then prevTooth w (j + 1) else j

/-! ### Times of angles (R89) -/

/-- The time from the start of the interval of `a` to `a`, in the direction of rotation. -/
def partTime (s : State) (w : Wheel) (back : Bool) (a : Nat) : Frac :=
  let lo := lowerTooth s w a
  let hi := nextTooth w lo
  let d := if back then ahead true (angleOf s w hi) a else ahead false (angleOf s w lo) a
  (Frac.div (Frac.int d) (span s w hi)).mul (period s w hi)

/-- The position at which the interval of `a` starts in the direction of rotation. -/
def entryTooth (s : State) (w : Wheel) (back : Bool) (a : Nat) : Nat :=
  let lo := lowerTooth s w a
  if back then nextTooth w lo else lo

/-- The interval that the chain crosses when it leaves `j` in the direction of rotation, named by its forward end. -/
def leaving (w : Wheel) (back : Bool) (j : Nat) : Nat := if back then j else nextTooth w j

/-- Sum of T̂ of the whole intervals from position `j` on to position `to`, in the direction of rotation. -/
def sumPeriods (s : State) (w : Wheel) (back : Bool) (dest : Nat) : Nat → Nat → Frac → Frac
  | 0, _, t => t
  | n + 1, j, t =>
    if j = dest then t
    else sumPeriods s w back dest n (followTooth w back j) (t.add (period s w (leaving w back j)))

/-- The predicted time at which the chain reaches angle `a`; for an angle already passed, when it was reached (R89). -/
def timeOf (s : State) (w : Wheel) (a : Nat) : Frac :=
  let back := reversed s
  if limping s then
    let d := ahead back s.angle.limpNext a
    let links : Int := if d ≤ turn / 2 then d else (d : Int) - turn
    s.angle.limpAt.add (Frac.div (Frac.int links) s.angle.limpSpeed)
  else
    let j := rd s WHL_STATUS_TOOTH_POS
    let e := entryTooth s w back a
    if angleOf s w j = a then s.angle.toothAt
    else if ahead back (angleOf s w j) a < turn / 2 then
      (sumPeriods s w back e (2 * w.cycle) j s.angle.toothAt).add (partTime s w back a)
    else
      (s.angle.toothAt.sub (sumPeriods s w back j (2 * w.cycle) e {})).add (partTime s w back a)

/-- Walk against the direction of rotation from a position for the time `d`: links passed, or `none` beyond one cycle. -/
def walkBack (s : State) (w : Wheel) (back : Bool) : Nat → Nat → Frac → Frac → Option Frac
  | 0, _, _, _ => none
  | n + 1, j, d, x =>
    let i := if back then nextTooth w j else j
    let t := period s w i
    if t.num ≤ 0 then none
    else if d.le t then some (x.add ((Frac.div d t).mul (span s w i)))
    else walkBack s w back n (followTooth w (!back) j) (d.sub t) (x.add (span s w i))

/-- Whole links from a start angle `x` links ahead of an end angle to that end: the start angle is rounded to the nearest link, a half
link up, so that on the forward set, where it lies below the end, half a link of offset falls away (wheel R42, scheduling R124). -/
def roundOffset (astern : Bool) (x : Frac) : Nat :=
  if astern then (x.add (Frac.make 1 2)).floor.toNat else (-((Frac.make 1 2).sub x).floor).toNat

/-- Links between the start and the end of an event: t̂(E) − t̂(S) = D (scheduling R124); `none` beyond one cycle. -/
def startOffset (s : State) (w : Wheel) (astern : Bool) (e d : Nat) : Option Nat :=
  if limping s then some (roundOffset astern ((Frac.int d).mul s.angle.limpSpeed))
  else
    let first := partTime s w astern e
    let j := entryTooth s w astern e
    let here := ahead astern (angleOf s w j) e
    let x := if (Frac.int d).le first then
        some ((Frac.div (Frac.int d) first).mul (Frac.int here))
      else walkBack s w astern (2 * w.cycle) j ((Frac.int d).sub first) (Frac.int here)
    x.map (roundOffset astern)

/-- An angle `x` links before `a` in the direction of the set. -/
def before (astern : Bool) (a x : Nat) : Nat := if astern then (a + x) % turn else (a + turn - x % turn) % turn

/-- An angle `x` links after `a` in the direction of the set. -/
def after (astern : Bool) (a x : Nat) : Nat := before (!astern) a x

end Sys2Proof.Machine
end

