-- ==== Sys2Proof/Machine/Chan.lean ====
section
/-! DEFINITION. What the drive die and the Sequencer share: channels and their pairs and banks, profiles, faults limited to
one per engine cycle, descriptors by serial (drive R186 to R199). -/
namespace Sys2Proof.Machine

/-- A whole number as a word. -/
def wd (n : Nat) : Word := BitVec.ofNat 32 n

/-! ### Faults at most once per engine cycle -/

/-- Raise a fault at most once per engine cycle, as `SEQ_CYCLE` counts them; `inst` tells instances apart. -/
def raisePerCycle (code inst source : Nat) (detail : Word) (action : Nat) (s : State) : State :=
  let k := code * 64 + inst
  let now := rd s SEQ_CYCLE_CYCLE + 1
  if Tbl.get 0 s.seq.marks k = now then s
  else raise code source detail action { s with seq := { s.seq with marks := Tbl.insert s.seq.marks k now } }

/-! ### Channels, pairs and banks (drive Table 6-1) -/

/-- Channel `c` of the drive die. -/
def chan (s : State) (c : Nat) : Chan := Tbl.get {} s.drive.chans c

/-- Channel `c` changed by `f`. -/
def onChan (c : Nat) (f : Chan → Chan) (s : State) : State :=
  { s with drive := { s.drive with chans := Tbl.set {} s.drive.chans c (f (chan s c)) } }

/-- Bits of `DRV_PAIR`: channel `c` is a member of a paralleled pair (drive R187). -/
def paired (s : State) (c : Nat) : Bool := decide (c < 28) && bitOf (rd s DRV_PAIR_PAIR) (c / 2)

/-- The channels that the lane of channel `c` switches: both members of a paralleled pair, or `c` alone (drive R187). -/
def members (s : State) (c : Nat) : List Nat := if paired s c then [c / 2 * 2, c / 2 * 2 + 1] else [c]

/-- The channels of the bank of banked channel `c`; `c` alone for a full channel. -/
def bankOf (c : Nat) : List Nat :=
  if c < 28 then [c] else if c < 32 then [28, 29, 30, 31] else [32, 33, 34, 35]

/-- The other channels of the bank. -/
def bankMates (c : Nat) : List Nat := (bankOf c).filter (fun d => d != c)

/-- The boost controller of channel `c` (drive Table 6-1). -/
def boostOf (c : Nat) : Nat := if c < 14 ∨ (28 ≤ c ∧ c < 32) then 0 else 1

/-- The zone of channel `c`: that of its boost controller (protection R250). -/
def zoneOf (c : Nat) : Nat := boostOf c

/-- The tally pair that serves output `o` (architecture Table 1-7). -/
def pairOf (o : Nat) : Nat :=
  if o < 20 then o / 2 % 4
  else if o < 24 then 2 + o / 2 % 2
  else if o < 28 then (o - 24) / 2
  else if o < 32 then 2
  else if o < 36 then 3
  else (o - 36) / 4

/-- The closing-detection converter of channel `c` (closing Table 8-1). -/
def converterOf (c : Nat) : Nat := if c < 28 then c / 4 else 7

/-- The channel energises its coil: lane ON and started (`DRV_CH_STAT_c.ENERGISED`). -/
def energised (s : State) (c : Nat) : Bool := isSet s (DRV_CH_STAT_ENERGISED c)

/-- The module drives its outputs: role SOLO or DUTY (pairing R291, R292). -/
def driving (s : State) : Bool := decide (rd s PAIR_STATUS_ROLE < 2)

/-- The drive die energises outputs: a driving role, and not in DOZE (power R452). -/
def energises (s : State) : Bool := driving s && rd s PWR_STATUS_STATE == 0

/-- A STANDBY is eligible to take over: pairing in effect, the tie link trained since reset, not resigned for a cause that leaves
it not eligible, no tracker or tally pair fault (pairing R305). -/
def pairEligible (s : State) : Bool :=
  rd s PAIR_STATUS_ROLE == 2 && s.tie.enable && s.tie.ever && !s.tie.resigned && !s.angle.trackerFault &&
    s.seq.pairs.all (fun p => !p.2.halted)

/-- `PAIR_STATUS.ELIGIBLE` follows R305. -/
def pairRefresh (s : State) : State := wrB PAIR_STATUS_ELIGIBLE (pairEligible s) s

/-- The source number of output `o` in a fault record: a channel or an auxiliary output (faults Table 17-3). -/
def outSource (o : Nat) : Nat := if o < 36 then o else 0x40 + (o - 36)

/-- The enable bit of solenoid channel `c`; the even member governs a pair (drive R187, R189). (log entry 84, DEDUCED) -/
def channelEnabled (s : State) (c : Nat) : Bool :=
  let e := evenMember s c
  if e < 32 then bitOf (rd s DRV_CH_EN0_EN) e else bitOf (rd s DRV_CH_EN1_EN) (e - 32)

/-- The power domain of output `o` is on: domains 81 to 116 are the channels, 117 to 132 the auxiliary outputs
(architecture Table 1-8). -/
def outputPowered (s : State) (o : Nat) : Bool := Tbl.get Domain.on s.power.domains (81 + o) == .on

/-! ### Profiles (drive Tables 6-2 to 6-4) -/

/-- Word `i` of a profile. -/
def profWord (p : List Word) (i : Nat) : Word := p.getD i 0

/-- Number of phases. -/
def phases (p : List Word) : Nat := bits (profWord p 0) 31 28
/-- Switch-off at lane OFF: 1 SLOW, 2 MEDIUM, 3 FAST. -/
def finalOff (p : List Word) : Nat := bits (profWord p 0) 27 26
/-- 0 WAIT, 1 BATTERY, 2 SKIP. -/
def boostPolicy (p : List Word) : Nat := bits (profWord p 0) 25 24
/-- Phases use on and off times. -/
def timeOnly (p : List Word) : Bool := bits (profWord p 0) 23 23 == 1
/-- Index of the hold phase. -/
def holdPhase (p : List Word) : Nat := bits (profWord p 0) 15 12
/-- MEDIUM clamp voltage. -/
def medClamp (p : List Word) : Nat := bits (profWord p 0) 7 0
/-- `BOOST_WAIT` in cycles. -/
def boostWait (p : List Word) : Nat := bits (profWord p 1) 19 0
/-- Word A of phase `k`. -/
def phaseA (p : List Word) (k : Nat) : Word := profWord p (4 + 2 * k)
/-- `TIME` of phase `k`; 0xFFFF_FFFF is "until lane OFF". -/
def phaseTime (p : List Word) (k : Nat) : Nat := (profWord p (5 + 2 * k)).toNat
/-- 0 NONE, 1 BATTERY, 2 BOOST. -/
def phaseSource (p : List Word) (k : Nat) : Nat := bits (phaseA p k) 31 30
/-- 0 TIME, 1 CURRENT, 2 CLOSED. -/
def phaseExit (p : List Word) (k : Nat) : Nat := bits (phaseA p k) 29 28
/-- Switch-off at phase exit, 0 NONE. -/
def phaseEndOff (p : List Word) (k : Nat) : Nat := bits (phaseA p k) 27 26
/-- Off state while regulating: 1 SLOW, 2 MEDIUM, 3 FAST. -/
def phaseRegOff (p : List Word) (k : Nat) : Nat := bits (phaseA p k) 25 24
/-- High threshold in 10 mA, or `T_ON` in 0.1 µs. -/
def phaseHigh (p : List Word) (k : Nat) : Nat := bits (phaseA p k) 23 12
/-- Low threshold in 10 mA, or `T_OFF` in 0.1 µs. -/
def phaseLow (p : List Word) (k : Nat) : Nat := bits (phaseA p k) 11 0

/-- No phase ends on time. -/
def untilOff : Nat := 0xFFFFFFFF

/-- Maximum times of the phases up to and including the last one for which `f` holds (scheduling R141, closing R263). -/
def windowUpTo (p : List Word) (f : Nat → Bool) : Nat :=
  match ((List.range (phases p)).filter f).getLast? with
  | none => 0
  | some k => (List.range (k + 1)).foldl (fun a i => a + phaseTime p i) 0

/-- The boost window of a profile: 0 when no phase is boost-fed (scheduling, "Priority and conflicts"). -/
def boostWindow (p : List Word) : Nat := windowUpTo p (fun k => phaseSource p k == 2)

/-- The CLOSED-exit window of a profile, with `BOOST_WAIT` under policy WAIT (closing R263). -/
def exitWindow (p : List Word) : Nat :=
  let t := windowUpTo p (fun k => phaseExit p k == 2)
  if t = 0 then 0 else if boostPolicy p = 0 then t + boostWait p else t

/-- The stored profile of slot `n`, if it holds one. -/
def profileOf (s : State) (n : Nat) : Option Profile := Tbl.find s.drive.profiles n

/-- The value words of slot `n`. -/
def profileWords (s : State) (n : Nat) : List Word :=
  match profileOf s n with
  | some p => p.words
  | none => []

/-! ### Descriptors by serial -/

/-- The stored descriptor that has serial `x`. -/
def bySerial (s : State) (x : Nat) : Option (Nat × Desc) := s.seq.descs.find? (fun p => p.2.serial == x)

/-- Descriptor `i`, if allocated. -/
def desc (s : State) (i : Nat) : Option Desc := Tbl.find s.seq.descs i

/-- Descriptor `i` becomes `d`. -/
def setDesc (i : Nat) (d : Desc) (s : State) : State :=
  { s with seq := { s.seq with descs := Tbl.insert s.seq.descs i d } }

/-- Descriptor `i`, if allocated, changed by `f`. -/
def onDesc (i : Nat) (f : Desc → Desc) (s : State) : State :=
  match desc s i with
  | some d => setDesc i (f d) s
  | none => s

/-- `DETAIL` of a failed check at `hop` for the event of serial `x` (faults Table 17-5). (log entry 48, DEDUCED) -/
def hopDetail (s : State) (x hop : Nat) : Word :=
  match bySerial s x with
  | some (i, d) => wd (i * 2 ^ 16 + d.client * 2 ^ 8 + hop)
  | none => wd (0xFFFF * 2 ^ 16 + hop)

/-- Set bit `b` of the notice flags of the event of serial `x` (scheduling Table 4-10). -/
def noteBit (x b : Nat) (s : State) : State :=
  match bySerial s x with
  | some (i, d) => setDesc i { d with note := setBit d.note b true } s
  | none => s

/-- Bit `b` of the notice flags of the event of serial `x` is clear. -/
def clearNote (x b : Nat) (s : State) : State :=
  match bySerial s x with
  | some (i, d) => setDesc i { d with note := setBit d.note b false } s
  | none => s

/-- Notice flags of Table 4-10. -/
def flDegraded : Nat := 0
def flHold : Nat := 1
def flTrimmed : Nat := 2
def flSlipped : Nat := 3
def flLate : Nat := 4
def flTruncated : Nat := 5
def flFallback : Nat := 6
def flFreed : Nat := 7

/-- The drive die puts a report on the status return link. -/
def report (r : Report) (s : State) : State := { s with seq := { s.seq with reports := s.seq.reports ++ [r] } }

end Sys2Proof.Machine
end

