-- ==== Sys2Proof/Machine/EventOps.lean ====
section
/-! DEFINITION. Descriptors between the stages of Table 4-1: placing them in the angle wheel, their notices, their end, and
freeing them (scheduling R121, R124, R125, R146, R152). -/
namespace Sys2Proof.Machine

/-! ### Flags of a descriptor (scheduling Table 4-4) -/

/-- Re-armed every cycle until cancelled. -/
def Desc.recurring (d : Desc) : Bool := bitOf d.flags 0
/-- Tooth-locked. -/
def Desc.toothLocked (d : Desc) : Bool := bitOf d.flags 1
/-- A one-shot whose start has passed waits for the next cycle. -/
def Desc.nextOk (d : Desc) : Bool := bitOf d.flags 2
/-- Auto-trim not applied. -/
def Desc.noTrim (d : Desc) : Bool := bitOf d.flags 3
/-- An ARMED notice is sent. -/
def Desc.notifyArm (d : Desc) : Bool := bitOf d.flags 4

/-- Output number 0 to 51 of the encoding of D0 `CHANNEL`. -/
def outOf (channel : Nat) : Nat := if channel < 36 then channel else channel - 0x40 + 36

/-- The output of a descriptor. -/
def Desc.output (d : Desc) : Nat := outOf d.channel

/-- The tally pair of a descriptor. -/
def Desc.pair (d : Desc) : Nat := pairOf d.output

/-- The number of a stage in D5. -/
def Stage.code : Stage → Nat
  | .waiting => 0
  | .near => 1
  | .armed => 2
  | .running => 3

/-- The value half D0 to D7 of Table 4-2. -/
def Desc.words (d : Desc) : List Word :=
  [ wd (d.channel * 2 ^ 24 + d.profile * 2 ^ 18 + d.astern.toNat * 2 ^ 17 + d.bank * 2 ^ 16 + d.flags * 2 ^ 8 + d.lateLim),
    wd (d.endAngle * 2 ^ 8 + d.cls * 2 ^ 6), wd d.duration, wd (d.armLead * 2 ^ 8),
    wd (d.sequence * 2 ^ 16 + d.client * 2 ^ 8), wd (d.tooth * 2 ^ 16 + d.stage.code), wd d.serial,
    wd (if 2 ≤ d.stage.code then d.startTime else 0) ]

/-! ### Pairs -/

/-- Tally pair `p`. -/
def pairAt (s : State) (p : Nat) : Pair := Tbl.get {} s.seq.pairs p

/-- Tally pair `p` changed by `f`. -/
def onPair (p : Nat) (f : Pair → Pair) (s : State) : State :=
  { s with seq := { s.seq with pairs := Tbl.set {} s.seq.pairs p (f (pairAt s p)) } }

/-! ### Placing a descriptor in the angle wheel -/

/-- The review distance V in links (R125). -/
def reviewDistance (s : State) (w : Wheel) : Nat := ((pitch w).mul (Frac.int (s.seq.reviewD + 1))).round.toNat

/-- Start angle and arm angle of `d` at the present prediction (R124, R137); `none` when the offset reaches 2^23 links. -/
def anglesOf (s : State) (w : Wheel) (d : Desc) : Option (Nat × Nat) :=
  if d.toothLocked then
    let a := angleOf s w d.tooth
    some (a, before d.astern a d.armLead)
  else
    match startOffset s w d.astern d.endAngle d.duration with
    | none => none
    | some x =>
      if turn / 2 ≤ x then none
      else
        let a := before d.astern d.endAngle x
        some (a, before d.astern a d.armLead)

/-- The review angle of `d` (R125). -/
def reviewAngle (s : State) (d : Desc) : Nat :=
  match s.angle.wheel with
  | none => 0
  | some w =>
    match anglesOf s w d with
    | some (_, arm) => before d.astern arm (reviewDistance s w)
    | none => before d.astern (before d.astern d.endAngle (turn / 2 - 1)) (d.armLead + reviewDistance s w)

/-- The place in the angle wheel of review angle `a` (R121). -/
def wheelPlace (a : Nat) : Place := .angle (a / 1024) a

/-- The place in the angle wheel of `d`'s review angle. -/
def reviewPlace (s : State) (d : Desc) : Place := wheelPlace (reviewAngle s d)

/-- `d` with the values of an update that waited for this occurrence's end (R147). -/
def Desc.updated (d : Desc) : Desc :=
  match d.update with
  | some (e, n, x) => { d with endAngle := e, duration := n, armLead := x, update := none }
  | none => d

/-- `d` as it waits for an occurrence, in place `k` of the angle wheel. -/
def Desc.asWaiting (d : Desc) (k : Place) : Desc :=
  { d with
    stage := .waiting, place := k, late := 0, slip := 0, trim := 0, note := 0, onAt := none
    merged := false, lostConv := 0 }

/-- A recurring descriptor returns to Waiting at the review angle of its next occurrence (R146). -/
def requeue (i : Nat) (s : State) : State :=
  match desc s i with
  | some d => setDesc i (d.updated.asWaiting (reviewPlace s d.updated)) s
  | none => s

/-! ### Freeing (R118, R146) -/

/-- Remove `i` from every list of its pair. -/
def Pair.forget (p : Pair) (i : Nat) : Pair :=
  { p with
    stakes := p.stakes.filter (fun x => x.2.desc != i)
    tooth := p.tooth.filter (fun x => x.2 != i)
    reviews := p.reviews.filter (fun j => j != i)
    recompute := p.recompute.filter (fun j => j != i) }

/-- Withdraw every stake and pending review of descriptor `i`, the frame it sent, and its converter reservation. -/
def withdraw (i : Nat) (s : State) : State :=
  match desc s i with
  | none => s
  | some d =>
    let s := onPair d.pair (fun p => { p.forget i with link := p.link.filter (fun f => f.serial != d.serial) }) s
    let s := if d.output < 36 then
        onChan d.output (fun c => { c with frames := c.frames.filter (fun f => f.serial != d.serial) }) s
      else
        { s with drive := { s.drive with aux := s.drive.aux.map (fun x =>
          (x.1, { x.2 with frames := x.2.frames.filter (fun f => f.serial != d.serial) })) } }
    { s with
      drive := { s.drive with reserves := s.drive.reserves.map (fun x => (x.1, x.2.filter (fun r => r.desc != i))) } }

/-- The tally pair of `d` is halted: its descriptors keep their stage and send nothing (architecture R30). -/
def Desc.frozen (s : State) (d : Desc) : Bool := (pairAt s d.pair).halted

/-- Descriptor `i` is freed and its quota unit returned; on a halted pair only reset frees it. -/
def freeDesc (i : Nat) (s : State) : State :=
  match desc s i with
  | none => s
  | some d =>
    if d.frozen s then s else
    let s := withdraw i s
    let s := { s with seq := { s.seq with descs := Tbl.erase s.seq.descs i } }
    wr (CLI_SEQ_USE_USED d.client) (rd s (CLI_SEQ_USE_USED d.client) - 1) s

/-- The occurrence in hand is the descriptor's last (R146, R148, R151). -/
def Desc.endsHere (d : Desc) : Bool := !d.recurring || d.lastOne

/-! ### Configuration in effect (closing R274) -/

/-- A field of `CD_CFG`, `CD_DET`, `CD_PLAUS` or `CD_TRIMLIM` of channel `c`, as taken at its last lane ON. -/
def cdField (s : State) (c : Nat) (f : Fld) : Nat :=
  match (chan s c).cd with
  | none => rd s f
  | some (a, b, p, l) =>
    if f.off = CD_CFG c then f.ofWord a
    else if f.off = CD_DET c then f.ofWord b
    else if f.off = CD_PLAUS c then f.ofWord p
    else f.ofWord l

/-! ### Notices (R152) -/

/-- Notice types of Table 4-9. -/
def ntArmed : Nat := 1
def ntCompleted : Nat := 2
def ntLate : Nat := 3
def ntDropped : Nat := 4
def ntDisplaced : Nat := 5
def ntSuppressed : Nat := 6
def ntCutSync : Nat := 7
def ntCutReverse : Nat := 8
def ntCutSafety : Nat := 9
def ntTruncated : Nat := 10
def ntMissedTooth : Nat := 11
def ntTripped : Nat := 12
def ntBoost : Nat := 13

/-- Outcomes of N1. -/
def ocNone : Nat := 0
def ocSlipped : Nat := 1
def ocDegraded : Nat := 2
def ocSkipped : Nat := 3

/-- `CLOSING` of an event that was not measured because detection is off (closing Table 8-2). -/
def closingOff : Word := 0x40300000

/-- What one notice says beyond the descriptor's own record. -/
structure NoteArgs where
  type : Nat
  reason : Nat := 0
  outcome : Nat := 0
  energised : Nat := 0
  endErr : Int := 0
  delay : Nat := 0
  closing : Word := closingOff
  freed : Bool := false
  deriving DecidableEq, Repr

/-- The `EVENT_NOTICE (0x0280)` of descriptor `i` (Table 4-10). -/
def noteOf (s : State) (i : Nat) (d : Desc) (a : NoteArgs) : ModMsg :=
  { client := d.client, opcode := 0x0280, seq := 0, status := 0, detail := 0, unsol := true
    words :=
      [ wd (i * 2 ^ 16 + a.type * 2 ^ 8 + a.reason),
        wd (d.sequence * 2 ^ 16 + a.outcome * 2 ^ 8 + setBit d.note flFreed a.freed),
        wd (d.onAt.getD 0), wd a.energised, wd (ofSigned 24 a.endErr * 2 ^ 8), wd a.delay,
        wd (rd s SEQ_CYCLE_CYCLE), a.closing, wd (ofSigned 32 d.trim), 0, 0, 0 ] }

/-- The counter that a notice type counts in (Table 4-12). -/
def noteCounter (type : Nat) : Option Fld :=
  if type = ntLate then some SEQ_EVT_CNT0_LATE
  else if type = ntDropped then some SEQ_EVT_CNT0_DROPPED
  else if type = ntDisplaced then some SEQ_EVT_CNT1_DISPLACED
  else if type = ntSuppressed then some SEQ_EVT_CNT1_SUPPRESSED
  else if type = ntCutSync ∨ type = ntCutReverse ∨ type = ntCutSafety then some SEQ_EVT_CNT2_CUT
  else none

/-- Count a notice of `type`. -/
def countNote (type : Nat) (s : State) : State :=
  match noteCounter type with
  | some f => count f 1 s
  | none => s

/-- Send a notice of descriptor `i`. -/
def sendNote (i : Nat) (a : NoteArgs) (s : State) : State :=
  match desc s i with
  | some d => if d.frozen s then s else notice (noteOf s i d a) (countNote a.type s)
  | none => s

/-- `CD_LAST_c` shows the measurement word of an event that ran on channel `c` with closing detection on (closing R262). -/
def noteClosing (c : Nat) (closing : Word) (s : State) : State :=
  if cdField s c (CD_CFG_ENABLE c) = 1 then wr (CD_LAST_WORD c) closing.toNat s else s

/-- The occurrence of descriptor `i` ends with the notice `a`: a recurring descriptor returns to Waiting, any other is
freed (R146). -/
def endWith (i : Nat) (a : NoteArgs) (s : State) : State :=
  match desc s i with
  | none => s
  | some d =>
    if d.frozen s then s
    else
    let s := if d.stage = .running ∧ d.output < 36 then
        noteClosing d.output a.closing
          { s with angle := { s.angle with lastInjection := some (rd s SEQ_CYCLE_CYCLE, chain s) } }
      else s
    if d.endsHere then freeDesc i (sendNote i { a with freed := true } s)
    else requeue i (withdraw i (sendNote i a s))

end Sys2Proof.Machine
end

