-- ==== Sys2Proof/Machine/CloseOps.lean ====
section
/-! DEFINITION. Closing detection without its commands: configuration in effect, the detector, converter windows and
reservations, the closing measurement and the trim loop (closing R256 to R273). -/
namespace Sys2Proof.Machine

/-! ### Trims and windows -/

/-- The trim loop's own record of channel `c`. -/
def trimOf (s : State) (c : Nat) : Trim := Tbl.get {} s.drive.trims c

/-- Trim record of channel `c` changed by `f`. -/
def onTrim (c : Nat) (f : Trim → Trim) (s : State) : State :=
  { s with drive := { s.drive with trims := Tbl.set {} s.drive.trims c (f (trimOf s c)) } }

/-- The window that converter `k` serves. -/
def windowOf (s : State) (k : Nat) : Option Window := Tbl.get none s.drive.windows k

/-- Converter `k` serves `x`; `CD_STATUS.BUSY` shows it. -/
def setWindow (k : Nat) (x : Option Window) (s : State) : State :=
  wr CD_STATUS_BUSY (setBit (rd s CD_STATUS_BUSY) k x.isSome)
    { s with drive := { s.drive with windows := Tbl.set none s.drive.windows k x } }

/-- Reservations of converter `k`. -/
def reservesOf (s : State) (k : Nat) : List Reserve := Tbl.get [] s.drive.reserves k

/-- Reservation table of converter `k` becomes `l`. -/
def setReserves (k : Nat) (l : List Reserve) (s : State) : State :=
  { s with drive := { s.drive with reserves := Tbl.set [] s.drive.reserves k l } }

/-- The reservation of the event of serial `x` on converter `k`. -/
def reserveFor (s : State) (k x : Nat) : Option Reserve := (reservesOf s k).find? (fun r => r.serial == x)

/-- The reservation of serial `x` is gone. -/
def dropReserve (k x : Nat) (s : State) : State :=
  setReserves k ((reservesOf s k).filter (fun r => r.serial != x)) s

/-! ### The detector (R258, R259) -/

/-- The window sum S(n) over the `w` samples that end at `n`. -/
def winSum (v : List (BitVec 12)) (w n : Nat) : Int :=
  ((v.drop (n + 1 - w)).take w).foldl (fun a x => a + (x.toNat : Int)) 0

/-- K(n): the windowed second difference, with its polarity. (log entry 61, DESIGN CHOICE) -/
def kink (v : List (BitVec 12)) (w : Nat) (rise : Bool) (n : Nat) : Int :=
  let d := winSum v w n - 2 * winSum v w (n - w) + winSum v w (n - 2 * w)
  if rise then d else -d

/-- The first of `m` samples from `n` on whose K crosses the threshold. -/
def firstCrossing (v : List (BitVec 12)) (w : Nat) (rise : Bool) (thresh : Nat) : Nat → Nat → Option Nat
  | 0, _ => none
  | m + 1, n =>
    if 3 * w * w * thresh ≤ 64 * kink v w rise n then some n else firstCrossing v w rise thresh m (n + 1)

/-- The earliest sample of largest K among the `m` samples after `best`. -/
def peakFrom (v : List (BitVec 12)) (w : Nat) (rise : Bool) : Nat → Nat → Nat → Nat
  | 0, _, best => best
  | m + 1, n, best =>
    peakFrom v w rise m (n + 1) (if kink v w rise best < kink v w rise n then n else best)

/-- The detector over samples `v`, evaluated from `start` on within `limit` samples: n_p and the kink's sample k. The
crossing counts only when n_c + 1.5 × W lies before the limit. -/
def detect (v : List (BitVec 12)) (half thresh : Nat) (rise : Bool) (start limit : Nat) : Option (Nat × Nat) :=
  let w := 2 * (half + 1)
  let from_ := start + 3 * w - 1
  match firstCrossing v w rise thresh (min v.length limit - from_) from_ with
  | none => none
  | some n =>
    if n + 3 * w / 2 < limit ∧ n + 3 * w / 2 < v.length then
      let p := peakFrom v w rise (3 * w / 2) (n + 1) n
      some (p, p - (3 * w / 2 - 1))
    else none

/-! ### The measurement word and the trim (R262, R267 to R271) -/

/-- Trim T of channel `c`, signed. -/
def trimNow (s : State) (c : Nat) : Int := signed 17 (rd s (CD_TRIM_TRIM c))

/-- Trim T of channel `c` becomes `t`, stored as a paired word (R267). -/
def setTrim (c : Nat) (t : Int) (s : State) : State :=
  wr (CD_TRIM_TRIM c) (ofSigned 17 t) (onTrim c (fun x => { x with compl := 131071 - ofSigned 17 t }) s)

/-- The two halves of T of channel `c` agree (R267, architecture Table 1-6 hop 4). -/
def trimSound (s : State) (c : Nat) : Bool := rd s (CD_TRIM_TRIM c) + (trimOf s c).compl == 131071

/-- The measurement word of Table 8-2 for channel `c`. -/
def closingWord (s : State) (c status cause delay : Nat) : Word :=
  wd (status * 2 ^ 28 + cause * 2 ^ 24 + (trimOf s c).exits * 2 ^ 22 + rd s (CD_TRIM_STATE c) * 2 ^ 20 + delay)

/-- An eligible MEASURED result of delay `m` sets the trim (R268, R270). -/
def trimSet (c m : Nat) (s : State) : State :=
  let t := roundDiv ((cdField s c (CD_CFG_GAIN c) : Int) * 20 * ((cdField s c (CD_CFG_TARGET c) : Int) - m)) 256
  let lim : Int := cdField s c (CD_TRIMLIM_TRIM_LIM c)
  let u := clampInt (-lim) lim t
  let s := wr (CD_TRIM_STATE c) 0 (wr (CD_TRIM_MISS_RUN c) 0 (setTrim c u s))
  let s := wr (CD_TRIM_RETURN_STEP c) 0 s
  if u = t then s else raisePerCycle 0x0531 c c 0 0 s

/-- An eligible miss in state ACTIVE; the eighth in a row starts the return (R270). -/
def trimMiss (c : Nat) (s : State) : State :=
  if rd s (CD_TRIM_STATE c) ≠ 0 then s
  else
    let n := rd s (CD_TRIM_MISS_RUN c) + 1
    let s := wr (CD_TRIM_MISS_RUN c) n (count (CD_COUNT_MISSES c) 1 s)
    if n < 8 then s
    else
      let s := onTrim c (fun x => { x with base := trimNow s c }) s
      raise 0x0530 c 0 actReduced (wr (CD_TRIM_RETURN_STEP c) 0 (wr (CD_TRIM_STATE c) 1 s))

/-- The trim loop's answer to a measurement (R268 to R270). -/
def trimFrom (c status m : Nat) (s : State) : State :=
  if !(trimOf s c).eligible || rd s (CD_TRIM_STATE c) == 3 then s
  else if status = 0 then trimSet c m s
  else if status = 2 ∨ status = 3 then trimMiss c s
  else s

/-- The trim and the miss count are reset (R273). -/
def trimReset (c : Nat) (s : State) : State :=
  let on := isSet s (CD_CFG_TRIM_EN c) && isSet s (CD_CFG_ENABLE c)
  wr (CD_TRIM_STATE c) (if on then 0 else 3)
    (wr (CD_TRIM_RETURN_STEP c) 0 (wr (CD_TRIM_MISS_RUN c) 0 (setTrim c 0 s)))

/-- The trim that an arming on channel `c` uses; in RETURNING it first steps towards 0 (R271, R272). -/
def trimForArming (c : Nat) (s : State) : Int × State :=
  match rd s (CD_TRIM_STATE c) with
  | 0 => (trimNow s c, s)
  | 1 =>
    let k := rd s (CD_TRIM_RETURN_STEP c) + 1
    let t := Int.tdiv ((trimOf s c).base * (64 - k : Int)) 64
    let s := wr (CD_TRIM_RETURN_STEP c) k (setTrim c t s)
    (t, if k = 64 then wr (CD_TRIM_STATE c) 2 s else s)
  | _ => (0, s)

/-! ### Results -/

/-- Send the notices that waited for the measurement of serial `x` on channel `c`, and free their descriptors. -/
def releaseWaiting (c x : Nat) (word : Word) (s : State) : State :=
  let mine := s.seq.waiting.filter (fun n => n.channel == c && n.serial == x)
  let s := { s with seq := { s.seq with waiting := s.seq.waiting.filter (fun n => !(n.channel == c && n.serial == x)) } }
  mine.foldl (fun s n =>
    let s := notice { n.notice with words := n.notice.words.set 7 word } s
    match n.free with
    | some i => freeDesc i s
    | none => s) s

/-- Channel `c` has a closing measurement for the event of serial `x`; a module that does not drive reads OFF (R262, R264, R268 to
R270, pairing R292). (log entry 49, DEDUCED) -/
def measured (c x status cause delay : Nat) (s : State) : State :=
  let (status, cause, delay) := if driving s then (status, cause, delay) else (4, 0, 0)
  let s := if status = 1 then count (CD_COUNT_NOT_SAMPLED c) 1 s else s
  let s := trimFrom c status delay s
  let word := closingWord s c status cause delay
  releaseWaiting c x word (wr (CD_LAST_WORD c) word.toNat s)

/-- End the window of channel `c`, if its converter serves one, with NOT_SAMPLED and `cause` (R193, Table 8-5). -/
def cutWindow (c cause : Nat) (s : State) : State :=
  let k := converterOf c
  match windowOf s k with
  | some x =>
    if x.channel = c ∧ x.closing then
      measured c x.serial 1 cause 0 (dropReserve k x.serial (setWindow k none s))
    else s
  | none => s

/-! ### Windows (R257, R261, R266) -/

/-- A measurement in progress without a reservation gives way to a reserved window (R266). -/
def preempt (k : Nat) (s : State) : State :=
  match windowOf s k with
  | some x =>
    if (reserveFor s k x.serial).isNone then measured x.channel x.serial 1 5 0 (setWindow k none s) else s
  | none => s

/-- Whether channel `c` will report a measurement of serial `x` later: its converter serves its closing window. -/
def awaits (s : State) (c x : Nat) : Bool :=
  match windowOf s (converterOf c) with
  | some y => y.channel == c && y.serial == x && y.closing
  | none => false

/-- Length in cycles of the closing window of channel `c`. -/
def closeCycles (s : State) (c : Nat) : Nat := cdField s c (CD_DET_CD_END c) * 400

/-- At lane OFF of channel `c`, which ran the event of serial `x`, its converter opens the closing window, if it serves the
event; `eligible` is R269's test (R257, R264, R266, R269). -/
def openClosing (c x : Nat) (eligible : Bool) (s : State) : State :=
  let k := converterOf c
  let s := onTrim c (fun t => { t with eligible := eligible }) s
  if cdField s c (CD_CFG_ENABLE c) = 0 ∨ !driving s then s
  else if x = 0 then
    if reservesOf s k = [] ∧ windowOf s k = none then
      setWindow k (some ⟨c, 0, true, s.cyc, closeCycles s c⟩) s
    else measured c 0 1 1 0 s
  else match reserveFor s k x with
    | none => s
    | some r =>
      let s := preempt k s
      setWindow k (some ⟨c, x, true, s.cyc, r.closeTo - r.closeFrom⟩) s

/-- A reserved CLOSED-exit window of the event of serial `x` begins with its start on channel `c`: a measurement without a reservation
gives way (R263, R266). -/
def beginReserved (c x : Nat) (s : State) : State :=
  match reserveFor s (converterOf c) x with
  | some r => if r.exitTo.isSome then preempt (converterOf c) s else s
  | none => s

/-- A phase with exit CLOSED begins on channel `c`: its converter serves it when the event holds the reservation; the closing input of
the even member serves a pair (R261, drive R187). -/
def openExit (c x len : Nat) (s : State) : State :=
  let k := converterOf c
  if c ≠ evenMember s c then s
  else match reserveFor s k x with
  | some _ => setWindow k (some ⟨c, x, false, s.cyc, len⟩) (preempt k s)
  | none => onTrim c (fun t => { t with exits := 3 }) s

/-- The phase in progress on channel `c` ends; when its exit is CLOSED, its converter's window ends with it, and `taken` tells
whether the exit was taken (R261, Table 8-2). -/
def endExit (c : Nat) (taken : Bool) (s : State) : State :=
  let k := converterOf c
  let x := chan s c
  let running := match x.mode with
    | .run | .handover _ => true
    | _ => false
  if !running ∨ phaseExit x.words (rd s (DRV_CH_STAT_PHASE c)) ≠ 2 then s
  else
  let s := match windowOf s k with
    | some x => if x.channel = c ∧ !x.closing then setWindow k none s else s
    | none => s
  onTrim c (fun t => { t with exits :=
    if t.exits = 3 then 3 else if taken then (if t.exits = 2 then 2 else 1) else 2 }) s

/-! ### Reservations (R263 to R265) -/

/-- The better rank: class, then serial (scheduling R141). -/
def outranks (cls serial cls' serial' : Nat) : Bool := decide (cls < cls' ∨ (cls = cls' ∧ serial < serial'))

/-- Two spans of cycles overlap. -/
def spansMeet (a b c d : Nat) : Bool := decide (a < d ∧ c < b)

/-- Two reservations overlap in any of their windows. -/
def reservesMeet (x y : Reserve) : Bool :=
  let xs := (x.closeFrom, x.closeTo) :: x.exitTo.toList
  let ys := (y.closeFrom, y.closeTo) :: y.exitTo.toList
  xs.any (fun p => ys.any (fun q => spansMeet p.1 p.2 q.1 q.2))

/-- A window of the reservation has begun at cycle `now`. -/
def Reserve.begun (r : Reserve) (now : Nat) : Bool :=
  decide (r.closeFrom ≤ now) || match r.exitTo with
    | some (a, _) => decide (a ≤ now)
    | none => false

/-- The event of reservation `r` loses it with `cause`; it will read NOT_SAMPLED. -/
def loseReserve (k : Nat) (r : Reserve) (cause : Nat) (s : State) : State :=
  let c := match desc s r.desc with
    | some d => d.output
    | none => 0
  let s := dropReserve k r.serial (onDesc r.desc (fun d => { d with lostConv := cause }) s)
  count (CD_COUNT_NOT_SAMPLED c) 1 s

/-- The lowest-ranked of the unbegun reservations and the new one (R265). -/
def lowestOf (now : Nat) (x : Reserve) (l : List Reserve) : Reserve :=
  l.foldl (fun a r => if !r.begun now && outranks a.cls a.serial r.cls r.serial then r else a) x

/-- Put the new reservation `x` into the table of converter `k` (R264, R265). -/
def reserve (k : Nat) (x : Reserve) (s : State) : State :=
  let rivals := (reservesOf s k).filter (reservesMeet x)
  if rivals.any (fun r => r.begun s.cyc || outranks r.cls r.serial x.cls x.serial) then loseReserve k x 1 s
  else
    let s := rivals.foldl (fun s r => loseReserve k r 1 s) s
    if (reservesOf s k).length < 8 then setReserves k (reservesOf s k ++ [x]) s
    else
      let low := lowestOf s.cyc x (reservesOf s k)
      let s := loseReserve k low 2 s
      if low = x then s else setReserves k (reservesOf s k ++ [x]) s

/-- At arming, the tally pair reserves the converter for descriptor `i`, when the channel's detection is on (R263). -/
def reserveConverter (i : Nat) (d : Desc) (s : State) : State :=
  let c := d.output
  if c < 36 ∧ isSet s (CD_CFG_ENABLE c) then
    let p := profileWords s d.profile
    let e := exitWindow p
    reserve (converterOf c)
      { desc := i, serial := d.serial, cls := d.cls
        closeFrom := d.te, closeTo := d.te + rd s (CD_DET_CD_END c) * 400
        exitTo := if e = 0 then none else some (d.ts, d.ts + e) } s
  else s

/-- The measurement word of an event that ends now without a window: OFF, ABORTED, or NOT_SAMPLED for a lost reservation
(Tables 8-3 and 8-5). (log entry 49, DEDUCED) -/
def closingWithout (s : State) (c : Nat) (d : Desc) (aborted : Bool) : Word :=
  if 36 ≤ c ∨ cdField s c (CD_CFG_ENABLE c) = 0 then wd (4 * 2 ^ 28 + 3 * 2 ^ 20)
  else if !driving s then closingWord s c 4 0 0
  else if aborted then closingWord s c 5 0 0
  else if d.lostConv ≠ 0 then closingWord s c 1 d.lostConv 0
  else closingWord s c 4 0 0

end Sys2Proof.Machine
end

