-- ==== Sys2Proof/Machine/ChanOps.lean ====
section
/-! DEFINITION. A solenoid channel running a profile: the start and its refusals, the boost test, phases, regulation,
plausibility, the duty limit, lane OFF and protection trips (drive R189 to R220, protection R234 to R252). -/
namespace Sys2Proof.Machine

/-! ### The boost controller as a channel sees it (protection R234, R235) -/

/-- The state of boost controller `b` (protection Table 7-1). -/
def boostState (s : State) (b : Nat) : Nat := rd s (BST_STATUS_STATE b)

/-- Controller `b` is READY. -/
def boostReady (s : State) (b : Nat) : Bool := boostState s b == 3

/-- The thresholds of phase `k` on channel `c`: on a banked channel held to 20 A in a BOOST phase and 10 A in a BATTERY
phase (drive R199). -/
def limitThreshold (c : Nat) (p : List Word) (k x : Nat) : Nat :=
  if c < 28 then x else if phaseSource p k = 2 then min x 2000 else if phaseSource p k = 1 then min x 1000 else x

/-- `I_HIGH` of phase `k` as it applies on channel `c`. -/
def highOf (c : Nat) (p : List Word) (k : Nat) : Nat := limitThreshold c p k (phaseHigh p k)

/-- `I_LOW` of phase `k` as it applies on channel `c`. -/
def lowOf (c : Nat) (p : List Word) (k : Nat) : Nat := limitThreshold c p k (phaseLow p k)

/-- R199 reduces a threshold of the profile on channel `c`. -/
def clampsProfile (c : Nat) (p : List Word) : Bool :=
  !timeOnly p && (List.range (phases p)).any (fun k => highOf c p k != phaseHigh p k || lowOf c p k != phaseLow p k)

/-- The source voltage of the phase in progress on channel `c`, in 0.1 V (drive R216). -/
def sourceVolts (s : State) (c k : Nat) : Nat :=
  let x := chan s c
  if phaseSource x.words k = 2 ∧ !x.battery ∧ !x.fromBattery then rd s (BST_STATUS_VCAP (boostOf c)) else s.drive.vbat

/-- 4 × t_exp, and t_exp, of a rise share this: t_exp in cycles is 4 × L × ΔI / (V_src − 2 V), L in 0.1 µH, ΔI in 10 mA, V in
0.1 V (drive R216). -/
def expected (s : State) (c : Nat) (r : Rise) : Frac :=
  Frac.make (4 * rd s (DRV_CH_SENSE_L_LEARNED c) * r.delta : Nat) (r.source - 20)

/-- A rise begins now on channel `c`, unless the source is too low to compare or the sense is lost (drive R216). -/
def beginRise (c delta : Nat) (s : State) : State :=
  let x := chan s c
  let v := sourceVolts s c (rd s (DRV_CH_STAT_PHASE c))
  if timeOnly x.words ∨ x.blind ∨ v < 60 ∨ delta = 0 then onChan c (fun x => { x with rise := none }) s
  else onChan c (fun x => { x with rise := some ⟨s.cyc, delta, v⟩ }) s

/-! ### The power switches (drive R191, R204, R207, Table 6-6) -/

/-- The node of the bank of channel `c` is held at battery: two or more of its channels are energised (drive R191). (log entry 112, DEDUCED) -/
def nodeHeld (s : State) (c : Nat) : Bool :=
  decide (28 ≤ c) && decide (2 ≤ ((bankOf c).filter (energised s)).length)

/-- The switch-off mode that channel `c` is in for `mode`: FAST becomes MEDIUM while its controller is FAILED by overvoltage
(protection R240), and MEDIUM becomes FAST on a held node whose clamp lies less than 5 V above VBAT (drive R207). -/
def offMode (s : State) (c mode : Nat) : Nat :=
  let b := boostOf c
  let mode := if mode = 3 ∧ boostState s b = 4 ∧ rd s (BST_STATUS_FAIL_CAUSE b) = 2 then 2 else mode
  if mode = 2 ∧ nodeHeld s c ∧ medClamp (chan s c).words * 10 < s.drive.vbat + 50 then 3 else mode

/-- The BOOST phases of channel `c` run from the boost high side. -/
def Chan.fromBoost (x : Chan) (k : Nat) : Bool := phaseSource x.words k == 2 && !x.battery && !x.fromBattery

/-- The low-side and recirculation switches of a channel in switch-off mode `mode` (Table 6-6); a FAST decay into a bank at its clamp
level (`full`) is held by the low side too (protection R239). -/
def offSwitches (mode : Nat) (held full : Bool) : Switches :=
  match mode with
  | 1 => if held then { recirc := true } else { low := true }
  | 2 => { clamp := true }
  | _ => { clamp := full }

/-- The switch-off mode of Table 6-6 that channel `c` stands in, if its source is off and it carries a command or a decaying current:
`REG_OFF` while it regulates or waits for the boost, the mode of a phase exit, of the last phase, or of lane OFF (R204, R208 to R210,
protection Table 7-3). -/
def offState (s : State) (c : Nat) : Option Nat :=
  let x := chan s c
  let reg := phaseRegOff x.words (rd s (DRV_CH_STAT_PHASE c))
  match x.mode with
  | .idle => none
  | .run => if x.source then none else some (offMode s c reg)
  | .boostWait _ => some (offMode s c reg)
  | .handover m | .ended m | .decay m => some (offMode s c m)

/-- The source of channel `c` is on: its boost or battery high side feeds the coil through the low side. -/
def feeding (s : State) (c : Nat) : Bool := (chan s c).mode == .run && (chan s c).source

/-- Channel `c` draws on the boost high side now. -/
def onBoostSide (s : State) (c : Nat) : Bool := feeding s c && (chan s c).fromBoost (rd s (DRV_CH_STAT_PHASE c))

/-- The switches of channel `c` (R191, Table 6-6): the high sides of a bank are shared, and its battery high side stays on while two or
more of its channels are energised. (log entry 112, DEDUCED) -/
def switches (s : State) (c : Nat) : Switches :=
  let held := nodeHeld s c
  let x := match offState s c with
    | some m => offSwitches m held (Tbl.get ({} : Boost) s.drive.boosts (boostOf c)).clamped
    | none => { low := feeding s c }
  { x with
    boost := (bankOf c).any (onBoostSide s)
    battery := held || (bankOf c).any (fun d => feeding s d && !onBoostSide s d) }

/-! ### Switching the source -/

/-- Other channels of the bank that are energised. -/
def bankBusy (s : State) (c : Nat) : Bool := (bankMates c).any (fun d => energised s d)

/-- The boost high side of a bank turns on only with no other channel of the bank energised: otherwise the phase in progress on channel
`c` goes on from the battery, DEGRADED, with `F_0512` (R192). -/
def feedCheck (c : Nat) (s : State) : State :=
  let x := chan s c
  if x.fromBoost (rd s (DRV_CH_STAT_PHASE c)) ∧ bankBusy s c then
    raise 0x0512 c 0 actReduced (onChan c (fun x => { x with fromBattery := true }) (noteBit x.serial flDegraded s))
  else s

/-- The source of channel `c` switches off now. -/
def sourceOff (c : Nat) (s : State) : State :=
  onChan c (fun x => { x with source := false, changedAt := s.cyc, want := none, rise := none }) s

/-- The source of channel `c` switches on now; a low side that was off turns on with it (R192, protection R242). -/
def sourceOn (c : Nat) (s : State) : State :=
  let was := (switches s c).low
  let s := feedCheck c s
  onChan c (fun x =>
    { x with
      source := true, changedAt := s.cyc, want := none, sourceAt := s.cyc
      lowAt := if was then x.lowAt else s.cyc }) s

/-- The source of channel `c` switches on or off now. -/
def switchSource (c : Nat) (on : Bool) (s : State) : State := if on then sourceOn c s else sourceOff c s

/-- When a comparator may change the source of `x` next: each state lasts 1 µs, and an on-interval begins 10 µs after the
previous one (drive R205). -/
def changeFrom (x : Chan) (on : Bool) : Nat :=
  if on then max (x.changedAt + 400) (x.sourceAt + 4000) else x.changedAt + 400

/-- The source of channel `c` changes under regulation; an on-switching starts a rise from `I_LOW` to `I_HIGH` (R204, R216). -/
def regulate (c : Nat) (on : Bool) (s : State) : State :=
  let x := chan s c
  let k := rd s (DRV_CH_STAT_PHASE c)
  let s := switchSource c on s
  if on then beginRise c (highOf c x.words k - lowOf c x.words k) s else s

/-- A comparator calls for the source state `on`: at once, or at the end of the minimum time (drive R204, R205). -/
def callFor (c : Nat) (on : Bool) (s : State) : State :=
  let x := chan s c
  if x.source = on then onChan c (fun x => { x with want := none }) s
  else if changeFrom x on ≤ s.cyc then regulate c on s
  else onChan c (fun x => { x with want := some on }) s

/-! ### The duty limit (drive R213 to R215) -/

/-- Windows of Table 6-8 in units of 5 ms. -/
def dutyWindows : List Nat := [2, 4, 6, 10, 15, 20, 30, 40, 60, 100, 150, 200, 300, 400, 600, 800]

/-- The window in effect, in cycles. -/
def dutyWindow (x : Chan) : Nat := dutyWindows.getD x.dutyWin 20 * 2000000

/-- Energised cycles in the current bin and the 63 before it; `open_` counts the interval in progress. -/
def dutySum (x : Chan) (open_ : Option Nat) (now : Nat) : Nat :=
  let bin := dutyWindow x / 64
  let from_ := (now / bin - 63) * bin
  let all := match open_ with
    | some t => (t, now) :: x.duty
    | none => x.duty
  all.foldl (fun a p => a + (min now p.2 - max from_ p.1)) 0

/-- The allowance in cycles; 0 is no limit. -/
def dutyAllowance (x : Chan) : Nat := x.dutyFrac * dutyWindow x / 256

/-- The sum stands at or above the allowance. -/
def dutyReached (x : Chan) (open_ : Option Nat) (now : Nat) : Bool :=
  x.dutyFrac != 0 && decide (dutyAllowance x ≤ dutySum x open_ now)

/-- The interval that ended now joins the bins; what no window can reach any more is dropped. -/
def dutyAdd (x : Chan) (now : Nat) : Chan :=
  { x with duty := (x.onAt, now) :: x.duty.filter (fun p => decide (now < p.2 + 1600000000)) }

/-! ### Ending (drive R210, R214, protection R244) -/

/-- A field of `PRT_CFG` of channel `c` in effect: as taken over at its last lane ON (protection R254). (log entry 58, DEDUCED) -/
def prtField (s : State) (c : Nat) (f : Fld) : Nat :=
  match (chan s c).prt with
  | some x => f.ofWord x
  | none => f.reset

/-- Channel `c` stops energising in switch-off `mode`; `clean` counts the event as one that ended without a trip
(protection R252). -/
def quench (c mode : Nat) (clean : Bool) (s : State) : State :=
  if !energised s c then s
  else
    let n := (chan s c).cleanRun + 1
    let s := endExit c false s
    let s := onChan c (fun x =>
      { dutyAdd x s.cyc with
        mode := .decay mode, source := false, changedAt := s.cyc, want := none, rise := none, offAt := s.cyc
        cleanRun := if clean then (if 64 ≤ n then 0 else n) else 0 }) s
    let s := wr (DRV_CH_STAT_PHASE c) 15 (wrB (DRV_CH_STAT_ENERGISED c) false s)
    if clean ∧ 64 ≤ n ∧ !isSet s (PRT_STAT_LATCH c) then
      wr (PRT_STAT_RETRIES_LEFT c) (prtField s c (PRT_CFG_RETRY_N c)) s
    else s

/-- On and off times in cycles of phase `k` on channel `c`, where its source is chopped by time: a time-only profile (drive
R206), or the fallback profile of a channel whose sense was lost in this event (drive R218). -/
def chopTimes (s : State) (c k : Nat) : Option (Nat × Nat) :=
  let x := chan s c
  if timeOnly x.words then some (40 * phaseHigh x.words k, 40 * phaseLow x.words k)
  else if x.blind then
    let e := evenMember s c
    let p := profileWords s (rd s (DRV_CH_CFG_FALLBACK_PROF e))
    if isSet s (DRV_CH_CFG_FALLBACK_EN e) ∧ timeOnly p ∧ k < phases p then some (40 * phaseHigh p k, 40 * phaseLow p k)
    else none
  else none

/-! ### Sense lost (drive R218) -/

/-- A phase runs on the channel, or a switch-off of R208 that counts towards it. -/
def Chan.inPhase (x : Chan) : Bool :=
  match x.mode with
  | .run | .handover _ => true
  | _ => false

/-- The sense of channel `c` is lost, and with it that of its pair (drive R187, R218). (log entry 56, DEDUCED) -/
def senseLost (c : Nat) (s : State) : State :=
  let s := raise 0x0510 c 0 actReduced s
  (members s c).foldl (fun s m =>
    let x := chan s m
    let s := noteBit x.serial flFallback (onChan m (fun x => { x with blind := true, rise := none, want := none }) s)
    let s := wrB (DRV_CH_STAT_SENSE_LOST m) true s
    let k := rd s (DRV_CH_STAT_PHASE m)
    if x.inPhase then
      let s := onChan m (fun x => { x with mode := .run }) s
      if phaseSource x.words k ≠ 0 then switchSource m (chopTimes s m k).isSome s else s
    else s) s

/-- A plausibility comparison fails (drive R217, R218). -/
def plausFail (c : Nat) (s : State) : State :=
  let n := rd s (DRV_CH_STAT_FAILS c) + 1
  let s := wr (DRV_CH_STAT_FAILS c) (min 3 n) (count (DRV_CH_COUNT_PLAUS_FAIL c) 1 s)
  let s := onChan c (fun x => { x with rise := none }) s
  if 3 ≤ n ∧ !isSet s (DRV_CH_STAT_SENSE_LOST c) then senseLost c s else s

/-- A comparison passes: L moves a sixteenth towards what the rise implies, within 0.5 to 2 times `L_NOM` (drive R217). -/
def plausPass (c t : Nat) (r : Rise) (s : State) : State :=
  let l : Frac := Frac.int (rd s (DRV_CH_SENSE_L_LEARNED c))
  let seen := Frac.make (t * (r.source - 20) : Nat) (4 * r.delta)
  let nom : Int := rd s (DRV_CH_SENSE_L_NOM (evenMember s c))
  let v := (l.add (Frac.div (seen.sub l) (Frac.int 16))).round
  let s := wr (DRV_CH_SENSE_L_LEARNED c) (min 65535 (clampInt ((nom + 1) / 2) (2 * nom) v).toNat) s
  wr (DRV_CH_STAT_FAILS c) 0 (onChan c (fun x => { x with rise := none }) s)

/-- The rise of channel `c`, if one is compared, ends at its crossing now (drive R217). -/
def endRise (c : Nat) (s : State) : State :=
  match (chan s c).rise with
  | none => s
  | some r =>
    let t := s.cyc - r.from_
    let e := expected s c r
    if e.le (Frac.int (2 * t)) ∧ (Frac.int t).le (e.mul (Frac.int 2)) then plausPass c t r s else plausFail c s

/-! ### Entering a phase (drive R202, R208, protection R235) -/

/-- A boost phase on a banked channel ends the closing measurement of a mate that still decays (drive R193). -/
def disturbMates (c : Nat) (s : State) : State :=
  (bankMates c).foldl (fun s d =>
    match (chan s d).mode with
    | .decay _ => cutWindow d 4 s
    | _ => s) s

/-- The source of the phase in progress comes on or stays as it stands; `idle` starts a rise from rest (drive R202, R216). -/
def startSource (c k : Nat) (idle : Bool) (s : State) : State :=
  let x := chan s c
  let p := x.words
  if phaseSource p k = 0 then switchSource c false s
  else if idle then beginRise c (highOf c p k) (switchSource c true s)
  else if timeOnly p ∨ x.blind then switchSource c (chopTimes s c k).isSome s
  else s

/-- The phase `k` of channel `c` runs from now on, from rest, from the present current or in a switch-off; a rise that the last
phase left and a change that it deferred are over (R202, R205, R208, R216). (log entry 56, DEDUCED) -/
def runPhase (c k endOff : Nat) (idle : Bool) (s : State) : State :=
  let x := chan s c
  let p := x.words
  let s := wr (DRV_CH_STAT_PHASE c) k s
  let s := if x.fromBoost k then disturbMates c s else s
  let s := onChan c (fun x =>
    { x with phaseAt := s.cyc, boosted := x.boosted || x.fromBoost k, want := none, rise := none }) s
  let s := if phaseExit p k = 2 then openExit c x.serial (phaseTime p k) s else s
  if endOff ≠ 0 ∧ !timeOnly p ∧ !x.blind then
    onChan c (fun x => { x with mode := .handover endOff }) (switchSource c false s)
  else startSource c k idle (onChan c (fun x => { x with mode := .run }) s)

/-- The rest of the event is not run: the channel ends in `FINAL_OFF`, and the notice follows; its last phase ended in cycle `last`
(protection Table 7-3). (log entry 48, DEDUCED) -/
def skipEvent (c delay last : Nat) (s : State) : State :=
  let x := chan s c
  let s := quench c (finalOff x.words) true s
  let s := onChan c (fun x => { x with ended := true }) s
  if c = evenMember s c then report (.boost c x.serial ocSkipped delay last true) s else s

/-- The boost was not READY at the test: counted, flagged, and told (protection R235); `act` is what the policy does. -/
def notReady (c act : Nat) (s : State) : State :=
  let b := boostOf c
  if c ≠ evenMember s c then s
  else
    raisePerCycle 0x0520 b (0x58 + b) (wd (boostState s b)) act
      (flag (BST_STATUS_NOT_READY_SEEN b) (count (BST_COUNT_NOT_READY b) 1 s))

/-- The boost test of R235 on entering phase `k`, with the policy's action (protection Table 7-3). -/
def boostTest (c k endOff : Nat) (idle : Bool) (s : State) : State :=
  let x := chan s c
  let b := boostOf c
  let s := onChan c (fun x => { x with tested := true }) s
  if boostReady s b then runPhase c k endOff idle s
  else
    let policy := boostPolicy x.words
    let waits := decide (policy = 0) && (boostState s b == 1 || boostState s b == 2)
    let s := notReady c (if policy = 1 then actReduced else if waits then 0 else actEvent) s
    if policy = 1 then
      let s := onChan c (fun x => { x with battery := true }) (noteBit x.serial flDegraded s)
      let s := if c = evenMember s c then report (.boost c x.serial ocDegraded 0 s.cyc false) s else s
      runPhase c k endOff idle s
    else if waits then
      let s := wr (DRV_CH_STAT_PHASE c) k (switchSource c false s)
      onChan c (fun x => { x with mode := .boostWait s.cyc }) s
    else skipEvent c 0 s.cyc s

/-- The two halves of slot `n` agree in the drive die's store; a slot never stored holds nothing to run (R195). -/
def slotSound (s : State) (n : Nat) : Bool :=
  match profileOf s n with
  | some p => p.compl == p.words.map (fun w => ~~~w)
  | none => false

/-- The slot of the event that runs on channel `c` fails its check as a phase is loaded: FAST off, and the event is suppressed (R195,
architecture Table 1-6 hop 7). -/
def storeFailed (c : Nat) (s : State) : State :=
  let x := chan s c
  let s := onChan c (fun x => { x with ended := true }) (quench c 3 false s)
  if c ≠ evenMember s c then s
  else report (.noFrame c x.serial s.cyc true) (raise 0x0207 (outSource c) (hopDetail s x.serial 7) (actEvent + actOff) s)

/-- Channel `c` enters phase `k` after a switch-off `endOff` (0 none); `idle` from rest. The slot is checked as the phase is loaded. After
a takeover's entry at hold a boost phase runs from the battery (R192, R193, R195, R202, R235, pairing R306). -/
def enterPhase (c k endOff : Nat) (idle : Bool) (s : State) : State :=
  let x := chan s c
  if !slotSound s x.slot then storeFailed c s
  else if phaseSource x.words k ≠ 2 ∨ x.battery then runPhase c k endOff idle s
  else if x.atHold then
    runPhase c k endOff idle (onChan c (fun x => { x with fromBattery := true }) (noteBit x.serial flDegraded s))
  else if bankBusy s c then
    let s := onChan c (fun x => { x with fromBattery := true }) (noteBit x.serial flDegraded s)
    runPhase c k endOff idle (raise 0x0512 c 0 actReduced s)
  else
    let s := onChan c (fun x => { x with fromBattery := false }) s
    if x.tested then runPhase c k endOff idle s else boostTest c k endOff idle s

/-- The phase in progress on channel `c` exits; `taken` tells that a CLOSED exit was taken (drive R203, R208, R209). -/
def exitPhase (c : Nat) (taken : Bool) (s : State) : State :=
  let s := endExit c taken s
  let x := chan s c
  let p := x.words
  let k := rd s (DRV_CH_STAT_PHASE c)
  let m := phaseEndOff p k
  if k + 1 < phases p then enterPhase c (k + 1) m false s
  else
    let m := if m = 0 then 1 else m
    let s := wr (DRV_CH_STAT_PHASE c) 15 (switchSource c false s)
    onChan c (fun x => { x with mode := .ended m, rise := none }) s

/-- The lane of channel `c` falls in this cycle: an end stake of its event, or a pulse OFF, is loaded for it (R210). (log entry 110, DEDUCED) -/
def laneFalls (s : State) (c : Nat) : Bool :=
  let e := evenMember s c
  let hs := (Tbl.get ({} : Lane) s.seq.lanes e).holders
  let q : Pair := Tbl.get {} s.seq.pairs (pairOf e)
  let p : PPair := Tbl.get {} s.pulse.pairs (pairOf e)
  q.stakes.any (fun x => !x.2.start && x.2.cycle == s.cyc && decide (x.2.desc ∈ hs)) ||
    (hs.isEmpty && p.stakes.any (fun x => x.2.target == e && x.2.cycle == s.cyc && x.2.action != 1))

/-- Exits still apply: the channel is not held by an extension in its hold phase (drive R212). -/
def exitsApply (s : State) (c : Nat) : Bool :=
  let x := chan s c
  !(x.held && rd s (DRV_CH_STAT_PHASE c) == holdPhase x.words)

/-! ### Starting (R15, drive R189, R199, R202, R214, R219, protection R249 to R251) -/

/-- The checked frame of serial `x` among `l`, and the others. -/
def takeFrame (x : Nat) : List Frame → Option (Frame × List Frame)
  | [] => none
  | f :: fs =>
    if f.serial = x then some (f, fs)
    else match takeFrame x fs with
      | some (g, gs) => some (g, f :: gs)
      | none => none

/-- Channel `c` is latched off at the start of this cycle or now: a release does not help a start of its own cycle
(protection R252). -/
def latchedAtStart (s : State) (c : Nat) : Bool :=
  rdStart s (PRT_STAT_LATCH c) == 1 || isSet s (PRT_STAT_LATCH c) || (Tbl.get ({} : Lane) s.seq.lanes c).fault

/-- The zone of channel `c` refuses starts (protection R250). -/
def zoneTripped (s : State) (c : Nat) : Bool :=
  if zoneOf c = 0 then isSet s PRT_SUB_TRIP_A else isSet s PRT_SUB_TRIP_B

/-- The sense of channel `c`, or of its pair, is lost (R187, R218). -/
def senseGone (s : State) (c : Nat) : Bool := (members s c).any (fun m => isSet s (DRV_CH_STAT_SENSE_LOST m))

/-- The frame that a start on channel `c` runs: its fallback profile in place of `f`'s own where the sense was lost after the frame was
sent (R219). -/
def frameInForce (s : State) (c : Nat) (f : Frame) : Frame :=
  let e := evenMember s c
  if senseGone s c && !f.fallback && isSet s (DRV_CH_CFG_FALLBACK_EN e) then
    let n := rd s (DRV_CH_CFG_FALLBACK_PROF e)
    { f with profile := n, fallback := true, battery := false, startPhase := 0, gen := match profileOf s n with
      | some p => p.gen
      | none => 0 }
  else f

/-- The TRIPPED reason that refuses a start on channel `c`, if any: disabled, latched, too hot, zone too hot, sense lost
without a fallback. -/
def startRefusal (s : State) (c : Nat) : Option Nat :=
  let ms := members s c
  if !channelEnabled s c || !outputPowered s c then some 0x22
  else if ms.any (latchedAtStart s) then some 0x2C
  else if ms.any (fun m => (chan s m).tooHot) then some 0x2A
  else if zoneTripped s c then some 0x2B
  else if senseGone s c && !isSet s (DRV_CH_CFG_FALLBACK_EN (evenMember s c)) then some 0x21
  else none

/-- The lane of member `m` turns ON: the configuration written since its last lane ON takes effect, whether or not the channel is driven
(R215, protection R254, closing R274). -/
def takeConfig (m : Nat) (s : State) : State :=
  let e := evenMember s m
  let win := rd s (DRV_CH_CFG_DUTY_WIN e)
  onChan m (fun x =>
    { x with
      duty := if x.dutyWin = win then x.duty else []
      dutyWin := win, dutyFrac := rd s (DRV_CH_CFG_DUTY_FRAC e)
      prt := some (wordNow s (globalFields (PRT_CFG e)))
      cd := some (wordNow s (globalFields (CD_CFG e)), wordNow s (globalFields (CD_DET e)),
        wordNow s (globalFields (CD_PLAUS e)), wordNow s (globalFields (CD_TRIMLIM e))) }) s

/-- What a start abandons on channel `m`: a calibration, an off-state test, a comparator self-test (drive R224, protection
R247, acquisition R337). -/
def prepare (m : Nat) (s : State) : State :=
  let s := onChan m (fun x =>
    { x with
      test := none, selfTest := false, restSince := none
      cal := match x.cal with
        | .running since _ => .pending since
        | other => other }) s
  match (chan s m).cal with
  | .pending _ => wrB (DRV_CH_STAT_CAL_PEND m) true s
  | _ => s

/-- Member `m` starts the profile `p` of frame `f` at phase `k`, from rest or from the present current; at a takeover the
comparators alone decide from the current that remains (drive R199, R202, R212, pairing R306). -/
def startMember (m : Nat) (f : Frame) (p : List Word) (k : Nat) (hold : Bool) (s : State) : State :=
  let idle := (chan s m).mode == .idle
  let s := onChan m (fun x =>
    { x with
      serial := f.serial, slot := f.profile, words := p, battery := f.battery, fallback := f.fallback, held := false, tested := f.battery
      boosted := false, fromBattery := false, blind := false, ended := false, source := if idle then false else x.source
      onAt := s.cyc, want := none, rise := none, atHold := hold }) s
  let s := onTrim m (fun t => { t with exits := 0 }) s
  let s := wrB (DRV_CH_STAT_ENERGISED m) true s
  let s := if clampsProfile m p then flag (DRV_CH_STAT_CLAMPED m) s else s
  if hold then enterPhase m k 0 false s
  else if idle then enterPhase m k 0 true s
  else
    let s := enterPhase m k 0 false s
    if (chan s m).mode = .run ∧ phaseSource p k ≠ 0 then switchSource m true s else s

/-- The profile of a frame passes its check: every hop-7 test of the stored slot at its load (drive R195, R200). -/
def frameProfile (s : State) (f : Frame) : Option (List Word) :=
  match profileOf s f.profile with
  | some p => if p.gen = f.gen ∧ p.compl = p.words.map (fun w => ~~~w) then some p.words else none
  | none => none

/-- The notice flags that a start with frame `f` sets on the event of serial `x` (R219, protection R235). -/
def startNotes (x : Nat) (f : Frame) (hold : Bool) (s : State) : State :=
  let s := if x ≠ 0 ∧ f.fallback then noteBit x flFallback s else s
  if f.battery ∧ !hold then noteBit x flDegraded s else s

/-- The drive die starts the profile `p` of frame `f` for the event of serial `x` on channel `c` at phase `k`, or refuses it;
`hold` tells that a takeover enters it in its hold phase (R15, drive R189, R214, protection R251, pairing R306, R307). (log entry 116, DEDUCED) -/
def chanStart (c x : Nat) (f : Frame) (p : List Word) (k : Nat) (hold : Bool) (s : State) : State :=
  match startRefusal s c with
  | some reason => onChan c (fun y => { y with ended := true, serial := x }) (report (.tripped c x reason s.cyc false) s)
  | none =>
    let s := (members s c).foldl (fun s m => prepare m s) s
    if dutyReached (chan s c) none s.cyc then
      let s := raisePerCycle 0x0513 c c 0 (actEvent + actOff) (count (DRV_CH_COUNT_TRUNCATIONS c) 1 s)
      onChan c (fun y => { y with ended := true, serial := x }) (report (.truncated c x s.cyc false) s)
    else
      let s := startNotes x f hold s
      let s := if hold then noteBit x flHold (clearNote x flDegraded (count PAIR_COUNT1_HOLD_ENTRIES 1 s)) else s
      let s := cutWindow c 3 s
      (members s c).foldl (fun s m => startMember m f p k hold s) s

/-- The lane of channel `c` turns ON for the event of serial `x` (0 for a pulse): the drive die starts it or refuses it.
In STANDBY and in DOZE it only tracks the lane (R15, pairing R292, power R452). -/
def chanOn (c x : Nat) (s : State) : State :=
  let s := (members s c).foldl (fun s m => takeConfig m (onChan m (fun y => { y with lane := true, ended := false }) s)) s
  match takeFrame x (chan s c).frames with
  | none =>
    if !driving s then onChan c (fun y => { y with words := [], serial := x }) s
    else
      onChan c (fun y => { y with ended := true })
        (report (.noFrame c x s.cyc false) (raise 0x0207 (outSource c) (hopDetail s x 7) (actEvent + actOff) s))
  | some (f, rest) =>
    let s := onChan c (fun y => { y with frames := rest }) s
    let f := frameInForce s c f
    match frameProfile s f with
    | none =>
      onChan c (fun y => { y with ended := true, words := [], serial := x })
        (report (.noFrame c x s.cyc false) (raise 0x0207 (outSource c) (hopDetail s x 7) (actEvent + actOff) s))
    | some p =>
      if !energises s then onChan c (fun y => { y with words := p, slot := f.profile, serial := x, battery := f.battery, fallback := f.fallback }) s
      else chanStart c x f p f.startPhase false s

/-! ### A new command on a running channel (drive R211, R212) -/

/-- KY1610 hold extension applies on channel `c` (drive R211). -/
def extends_ (s : State) (c : Nat) : Bool :=
  let e := evenMember s c
  match rd s (DRV_CH_CFG_RETRIG e) with
  | 1 => false
  | 2 => true
  | _ => match ownerOf s c with
    | some o => decide (rd s (CLI_HL_STATUS_VERSION o) / 16 = 1)
    | none => false

/-- The hold phase from now on: a channel at or beyond it returns to it (drive Table 6-7). -/
def extendMember (m : Nat) (s : State) : State :=
  let x := chan s m
  let h := holdPhase x.words
  let k := rd s (DRV_CH_STAT_PHASE m)
  let s := onChan m (fun x => { x with held := true }) s
  match x.mode with
  | .ended _ => enterPhase m h 0 false s
  | .boostWait _ => s
  | _ => if h < k then enterPhase m h 0 false (endExit m false s) else s

/-- Member `m` restarts with the profile `p` of frame `f` at phase 0, from the present current; the event that ran before leaves its
draw to be learned (R212, protection R237). -/
def restartMember (m : Nat) (f : Frame) (p : List Word) (s : State) : State :=
  let x := chan s m
  let s := startMember m f p 0 false (endExit m false s)
  onChan m (fun y =>
    { y with onAt := x.onAt, drawn := if x.boosted ∧ m = evenMember s m then x.drawn ++ [x.slot] else x.drawn }) s

/-- A restart on channel `c` for the event of serial `x` is refused with `reason`: the channel is not energised (R219). -/
def restartRefused (c x reason : Nat) (s : State) : State :=
  let s := (members s c).foldl (fun s m =>
    onChan m (fun y => { y with ended := true }) (quench m (finalOff (chan s m).words) true s)) s
  onChan c (fun y => { y with serial := x }) (report (.tripped c x reason s.cyc false) s)

/-- A start for serial `x` reaches channel `c`, whose lane is ON and is only tracked: its checked frame is the one that a takeover will
enter at hold, unless the new command only prolongs the hold (R211, R212, pairing R292, R306). (log entry 116, DEDUCED) -/
def trackAgain (c x : Nat) (s : State) : State :=
  match takeFrame x (chan s c).frames with
  | none => s
  | some (f, rest) =>
    let s := onChan c (fun y => { y with frames := rest }) s
    if extends_ s c && !(chan s c).ended then s
    else
      let f := frameInForce s c f
      match frameProfile s f with
      | none => report (.noFrame c x s.cyc false) (raise 0x0207 (outSource c) (hopDetail s x 7) actEvent s)
      | some p =>
        onChan c (fun y =>
          { y with words := p, slot := f.profile, serial := x, battery := f.battery, fallback := f.fallback, ended := false }) s

/-- A start for serial `x` reaches channel `c` whose lane is ON: restart from phase 0 or hold extension; the frame is
consumed either way (drive R201, R212, R219, Table 6-7). A channel whose event is already over starts anew. -/
def chanAgain (c x : Nat) (s : State) : State :=
  let e := chan s c
  if !energises s then trackAgain c x s
  else if e.ended then chanOn c x s
  else
    match takeFrame x e.frames with
    | none => report (.noFrame c x s.cyc false) (raise 0x0207 (outSource c) (hopDetail s x 7) actEvent s)
    | some (f, rest) =>
      let s := onChan c (fun y => { y with frames := rest }) s
      let again (s : State) : State := count (DRV_CH_COUNT_RETRIGGERS c) 1 s
      if extends_ s c then again ((members s c).foldl (fun s m => extendMember m s) s)
      else if senseGone s c && !isSet s (DRV_CH_CFG_FALLBACK_EN (evenMember s c)) then restartRefused c x 0x21 s
      else
        let f := frameInForce s c f
        match frameProfile s f with
        | none => report (.noFrame c x s.cyc false) (raise 0x0207 (outSource c) (hopDetail s x 7) actEvent s)
        | some p => again ((members s c).foldl (fun s m => restartMember m f p s) (startNotes x f false s))

/-! ### Lane OFF (drive R210) -/

/-- The lane of channel `c` falls: `FINAL_OFF`, or FAST for a cut (`fast`); the members then decay. `eligible` is R269's test
for the event that ends by its own end stake; `none` opens no closing window. An event that still waits for the boost is skipped
(protection Table 7-3). (log entry 56, DEDUCED) -/
def chanOff (c : Nat) (fast : Bool) (eligible : Option Bool) (s : State) : State :=
  let x := chan s c
  let ran := energised s c
  let s := match x.mode with
    | .boostWait since => if eligible.isSome then report (.boost c x.serial ocSkipped (s.cyc - since) since true) s else s
    | _ => s
  let s := (members s c).foldl (fun s m =>
    let mode := if fast then 3 else finalOff x.words
    onChan m (fun y => { y with lane := false, ended := false, held := false })
      (quench m mode true s)) s
  match eligible with
  | some e => if ran then openClosing c x.serial e s else s
  | none => s

/-! ### Protection trips (protection R244, R251, R252) -/

/-- Retry interval of value `v`, in cycles (protection Table 7-5). -/
def retryCycles (v : Nat) : Nat := [1, 2, 5, 10, 20, 50, 100, 200].getD v 1 * 400000

/-- Channel `m` is latched off with `reason`, unless a comparator self-test latched it, which only its own rule releases (acquisition R338); with a retry left its release is due, else `F_052B` (protection R251, R252). -/
def latchChannel (m reason : Nat) (s : State) : State :=
  if isSet s (PRT_STAT_LATCH m) ∧ rd s (PRT_STAT_CAUSE m) = 15 then s else
  let left := rd s (PRT_STAT_RETRIES_LEFT m)
  let s := wr (PRT_STAT_CAUSE m) (reason - 0x20) (flag (PRT_STAT_LATCH m) s)
  let s := onChan m (fun x => { x with latchedAt := if left = 0 then none else some s.cyc, cleanRun := 0 }) s
  if left = 0 then raise 0x052B m (wd (reason * 2 ^ 24)) actLatch s else s

/-- Channel `m` is taken off by protection: its current decays in the FAST path, or in SLOW for an open load, and its event is
reported (protection R244, R248, R251). (log entry 58, DEDUCED) -/
def tripMember (m reason mode : Nat) (s : State) : State :=
  if !energised s m then s
  else
    let x := chan s m
    let s := onChan m (fun y => { y with ended := true }) (quench m mode false s)
    if m = evenMember s m then report (.tripped m x.serial reason s.cyc true) s else s

/-- The channels that a trip of `reason` on channel `c` takes with it: the pair, or the bank for a high side (protection
R251). -/
def tripSpread (s : State) (c reason : Nat) : List Nat :=
  if 28 ≤ c ∧ (reason = 0x23 ∨ reason = 0x25 ∨ reason = 0x28) then bankOf c else members s c

/-- A latching trip of `reason` on channel `c`, with its fault `code` (protection R244, R245, R247, R251). -/
def tripLatched (c code reason : Nat) (s : State) : State :=
  let left := rd s (PRT_STAT_RETRIES_LEFT c)
  let hit := tripSpread s c reason
  let ran := hit.any (energised s)
  let s := hit.foldl (fun s m => latchChannel m reason (tripMember m reason 3 s)) s
  raise code c (wd (reason * 2 ^ 24 + left * 2 ^ 16)) (actLatch + if ran then actEvent + actOff else 0) s

/-- A trip that does not latch ends the events of `l` with `reason` (protection R249, R250). -/
def tripUnlatched (l : List Nat) (reason : Nat) (s : State) : State :=
  l.foldl (fun s m => wr (PRT_STAT_CAUSE m) (reason - 0x20) (tripMember m reason 3 s)) s

/-- A latch of channel `c` is cleared by command: released, its retries restored (protection R252). -/
def clearLatch (c : Nat) (s : State) : State :=
  let s := onChan c (fun x => { x with latchedAt := none, cleanRun := 0 }) s
  wr (PRT_STAT_RETRIES_LEFT c) (prtField s c (PRT_CFG_RETRY_N c)) (wrB (PRT_STAT_LATCH c) false s)

end Sys2Proof.Machine
end

