-- ==== Sys2Proof/Machine/Drive.lean ====
section
/-! DEFINITION. What happens on a running solenoid channel: phase exits, comparator crossings, minimum times, time-only
chopping, the end of decay, the duty limit, plausibility, and offset calibration (drive R198 to R224). -/
namespace Sys2Proof.Machine

/-! ### Phases and regulation -/

/-- A phase of channel `c` is in progress: its regulation runs, or a switch-off of R208 that counts towards it. -/
def inPhase (s : State) (c : Nat) : Bool :=
  energised s c && (chan s c).inPhase

/-- The time of the phase in progress on channel `c` has elapsed: it exits, and a CURRENT or CLOSED exit counts in
`TIMEOUTS` (R203). -/
def phaseExitTimeDue (c : Nat) (s : State) : State :=
  let x := chan s c
  let k := rd s (DRV_CH_STAT_PHASE c)
  let t := phaseTime x.words k
  if inPhase s c ∧ exitsApply s c ∧ !laneFalls s c ∧ t ≠ untilOff ∧ x.phaseAt + t ≤ s.cyc then
    exitPhase c false (if phaseExit x.words k = 0 then s else count (DRV_CH_COUNT_TIMEOUTS c) 1 s)
  else s

/-- The current of channel `c` stands at or above `I_HIGH` while a fed phase regulates: the rise under comparison ends, and
the phase exits on CURRENT or the source switches off (R203, R204, R217). -/
def aboveHigh (c : Nat) (s : State) : State :=
  let s := endRise c s
  let x := chan s c
  if x.blind then s
  else if phaseExit x.words (rd s (DRV_CH_STAT_PHASE c)) = 1 ∧ exitsApply s c then exitPhase c false s
  else callFor c false s

/-- A window comparator of channel `c` reports the current above (`up`) or below its high or low threshold (R203, R204,
R208). -/
def comparator (c : Nat) (high up : Bool) (s : State) : State :=
  let x := chan s c
  let k := rd s (DRV_CH_STAT_PHASE c)
  if !energised s c ∨ timeOnly x.words ∨ x.blind ∨ laneFalls s c then s
  else match x.mode with
    | .handover _ =>
      if high ∧ !up then onChan c (fun x => { x with mode := .run }) s else s
    | .run =>
      if phaseSource x.words k = 0 then
        if !high ∧ !up ∧ phaseExit x.words k = 1 ∧ exitsApply s c then exitPhase c false s else s
      else if high ∧ up then aboveHigh c s
      else if !high ∧ !up then callFor c true s
      else s
    | _ => s

/-- A deferred change of the source of channel `c` is due (R205). -/
def minTimeOver (c : Nat) (s : State) : State :=
  let x := chan s c
  match x.want with
  | some on => if energised s c ∧ x.mode = .run ∧ changeFrom x on ≤ s.cyc ∧ !laneFalls s c then regulate c on s else s
  | none => s

/-- An on or off time of a chopped phase of channel `c` is over: the source toggles (R206, R218). -/
def toggleSource (c : Nat) (s : State) : State :=
  let x := chan s c
  let k := rd s (DRV_CH_STAT_PHASE c)
  match chopTimes s c k with
  | some (on, off) =>
    if energised s c ∧ x.mode = .run ∧ phaseSource x.words k ≠ 0
        ∧ x.changedAt + (if x.source then on else off) ≤ s.cyc then switchSource c (!x.source) s
    else s
  | none => s

/-! ### The end of the decay (R210, protection R237) -/

/-- The learned draw of slot `n` on controller `b`, in µJ. (log entry 4, DESIGN CHOICE) -/
def drawOf (s : State) (n b : Nat) : Nat := Tbl.get 0 s.drive.draws (2 * n + b)

/-- The learned draw of slot `n` on controller `b` becomes `v` µJ. -/
def setDraw (n b v : Nat) (s : State) : State :=
  { s with drive := { s.drive with draws := Tbl.set 0 s.drive.draws (2 * n + b) v } }

/-- G of slot `n` on controller `b` learns the measured draw `g` of one event (protection R237). -/
def learnDraw (b n g : Nat) (s : State) : State :=
  let d := drawOf s n b
  setDraw n b ((d : Int) + roundDiv ((g : Int) - d) 8).toNat s

/-- The current of channel `c` has fallen below 50 mA: idle; the draws of the events with boost phases from its controller that ran since
it was last idle are learned, oldest first. (log entry 56, DEDUCED) -/
def decayOver (c : Nat) (drawn : List Nat) (s : State) : State :=
  let x := chan s c
  match x.mode with
  | .decay _ =>
    let slots := if x.boosted ∧ c = evenMember s c then x.drawn ++ [x.slot] else x.drawn
    let s := onChan c (fun x => { x with mode := .idle, changedAt := s.cyc, boosted := false, drawn := [] }) s
    (slots.zip drawn).foldl (fun s p => learnDraw (boostOf c) p.1 p.2 s) s
  | _ => s

/-! ### The duty limit (R213, R214) -/

/-- The duty allowance of channel `c` is reached: its lane's channels go off in `FINAL_OFF`, and the closing window opens at the
forced switch-off (R214, closing Table 8-5). -/
def dutyCut (c : Nat) (s : State) : State :=
  let x := chan s c
  if energised s c ∧ dutyReached x (some x.onAt) s.cyc then
    let e := evenMember s c
    let s := (members s c).foldl (fun s m =>
      onChan m (fun y => { y with ended := true }) (quench m (finalOff x.words) true s)) s
    let s := raisePerCycle 0x0513 c c 0 (actEvent + actOff) (count (DRV_CH_COUNT_TRUNCATIONS c) 1 s)
    openClosing e x.serial false (report (.truncated e x.serial s.cyc true) s)
  else s

/-! ### Plausibility (R217) -/

/-- No crossing has come by 4 × t_exp: the source switches off and a failure counts. -/
def plausTimedOut (c : Nat) (s : State) : State :=
  match (chan s c).rise with
  | some r =>
    if energised s c ∧ ((expected s c r).mul (Frac.int 4)).le (Frac.int (s.cyc - r.from_ : Nat)) then
      plausFail c (switchSource c false s)
    else s
  | none => s

/-! ### Storing a profile (R198) -/

/-- The register field that shows slot `n` valid, and its bit. -/
def validField (n : Nat) : Fld × Nat := if n < 32 then (DRV_PROF_VALID0_VALID, n) else (DRV_PROF_VALID1_VALID, n - 32)

/-- Slot `n` shows a checked profile, or none. -/
def setValid (n : Nat) (b : Bool) (s : State) : State :=
  let (f, i) := validField n
  wr f (setBit (rd s f) i b) s

/-- Slot `n` holds a checked profile. (log entry 60, DEDUCED) -/
def slotValid (s : State) (n : Nat) : Bool :=
  let (f, i) := validField n
  bitOf (rd s f) i

/-- The unlearned draw of controller `b` in µJ: 0.5 × `CBANK` × (`VSET`² − V_ready²) (protection R237). (log entry 57, DESIGN CHOICE) -/
def marginDraw (s : State) (b : Nat) : Nat :=
  let v := rd s (BST_CFG_VSET b)
  let r := rd s (BST_CFG_READY b)
  (roundDiv (rd s (BST_CAP_CBANK b) * v * v * (4096 - r * r) : Nat) 8192).toNat

/-- The oldest profile in storage is stored and checked: its generation count rises, its slot is valid, its draws start at the
margin, and its command is answered. -/
def profileStored (s : State) : State :=
  match s.drive.storing with
  | [] => s
  | (n, m, ws) :: rest =>
    let gen := match profileOf s n with
      | some p => (p.gen + 1) % 65536
      | none => 1
    let s := { s with drive := { s.drive with storing := rest, profiles := Tbl.insert s.drive.profiles n ⟨ws, ws.map (fun w => ~~~w), gen⟩ } }
    ok 0x0160 m (setDraw n 1 (marginDraw s 1) (setDraw n 0 (marginDraw s 0) (setValid n true s)))

/-! ### Offset calibration (R222 to R224) -/

/-- The drain of channel `c` reads `v`, in 10 mV: within 2.1 V to 2.9 V it stands in its rest band (R222, electrical Table 21-6). (log entry 59, DEDUCED) -/
def drainRead (c v : Nat) (s : State) : State :=
  onChan c (fun x => { x with restSince := if 210 ≤ v ∧ v ≤ 290 then some (x.restSince.getD s.cyc) else none }) s

/-- Channel `c` is idle for a calibration: lane OFF, and its drain in the rest band for 10 µs (R222). (log entry 59, DEDUCED) -/
def calIdle (s : State) (c : Nat) : Bool :=
  let x := chan s c
  !x.lane && match x.restSince with
    | some t => decide (t + 4000 ≤ s.cyc)
    | none => false

/-- Every channel that the calibration of `c` needs idle is idle (R224: both members of a pair). -/
def calReady (s : State) (c : Nat) : Bool := (members s c).all (calIdle s)

/-- Channel `c` begins its calibration, asked for at `since`. -/
def calBegin (c since : Nat) (s : State) : State :=
  wrB (DRV_CH_STAT_CAL_PEND c) false (onChan c (fun x => { x with cal := .running since s.cyc }) s)

/-- A calibration of channel `c` is asked for: it begins now, or is deferred. -/
def calAsk (c : Nat) (s : State) : State :=
  match (chan s c).cal with
  | .none =>
    if calReady s c ∧ c = evenMember s c then calBegin c s.cyc s
    else wrB (DRV_CH_STAT_CAL_PEND c) true (onChan c (fun x => { x with cal := .pending s.cyc }) s)
  | _ => s

/-- No member of the pair of `c` is in calibration. -/
def calFree (s : State) (c : Nat) : Bool :=
  (members s c).all (fun m => match (chan s m).cal with
    | .running _ _ => false
    | _ => true)

/-- A deferred calibration of channel `c` begins once the channel is idle; the members of a pair follow one another. -/
def calRun (c : Nat) (s : State) : State :=
  match (chan s c).cal with
  | .pending since => if calReady s c ∧ calFree s c then calBegin c since s else s
  | _ => s

/-- The payload of a command answered per item: `n` items, 0xFFFF where none was named (command reference R516). -/
def itemsOf (n : Nat) (t : Tbl Nat) : List Word := packItems ((List.range n).map (fun i => Tbl.get 0xFFFF t i))

/-- The even channel `e` of a calibration has its outcome: the commands that named it take it as the status, and one with no
channel left open is answered. An item keeps the first failure of its pair. (log entry 59, DEDUCED) -/
def calDecide (e status : Nat) (last : Bool) (s : State) : State :=
  let cals := s.drive.cals.map (fun (m, open_, t) =>
    if e ∈ open_ then
      (m, if last then open_.filter (fun c => c != e) else open_,
        if Tbl.get 0 t e = 0 then Tbl.insert t e status else t)
    else (m, open_, t))
  let done := cals.filter (fun x => x.2.1.isEmpty)
  let s := { s with drive := { s.drive with cals := cals.filter (fun x => !x.2.1.isEmpty) } }
  done.foldl (fun s x => respond 0x0163 x.1 0 0 (itemsOf 36 x.2.2) s) s

/-- A lost sense of channel `c` is trusted again (R187, R220). -/
def clearSense (c : Nat) (s : State) : State :=
  if !isSet s (DRV_CH_STAT_SENSE_LOST c) then s
  else
    let s := onChan c (fun x => { x with rise := none }) s
    wrB (DRV_CH_STAT_SENSE_LOST c) false
      (wr (DRV_CH_STAT_FAILS c) 0 (wr (DRV_CH_SENSE_L_LEARNED c) (rd s (DRV_CH_SENSE_L_NOM (evenMember s c))) s))

/-- The calibration of channel `c` ends with the mean sense output `mA`: stored within ±500 mA (R223). (log entry 59, DEDUCED) -/
def calDone (c : Nat) (mA : Int) (s : State) : State :=
  match (chan s c).cal with
  | .running _ start =>
    if s.cyc < start + 16000 then s
    else
      let s := onChan c (fun x => { x with cal := .none }) s
      let good := decide (-500 ≤ mA) && decide (mA ≤ 500)
      let s := if good then
          clearSense c (flag (DRV_CH_STAT_CAL_DONE c) (wr (DRV_CH_STAT_OFFSET c) (ofSigned 12 mA) s))
        else s
      let others := (members s c).filter (fun d => d != c && (chan s d).cal != .none)
      let s := calDecide (evenMember s c) (if good then 0 else 0x166) others.isEmpty s
      others.foldl (fun s d => calRun d s) s
  | _ => s

/-- How long a calibration may be deferred: one engine cycle in PHASED, else 100 ms (R222). -/
def calLimit (s : State) : Nat :=
  match s.angle.wheel with
  | some w => if phased s then (s.angle.mean.mul (Frac.int w.cycle)).floor.toNat else 40000000
  | none => 40000000

/-- A deferred calibration of channel `c` is refused: the channel did not become idle in time (R222). -/
def calTimeout (c : Nat) (s : State) : State :=
  match (chan s c).cal with
  | .pending since =>
    if s.cyc < since + calLimit s then s
    else
      let s := (members s c).foldl (fun s m =>
        wrB (DRV_CH_STAT_CAL_PEND m) false (onChan m (fun x => { x with cal := .none }) s)) s
      calDecide (evenMember s c) 0x165 true s
  | _ => s

end Sys2Proof.Machine
end

