-- ==== Sys2Proof/Machine/Boost.lean ====
section
/-! DEFINITION. The boost controllers: readiness, precharge, failure, discharge, the clamp, and their configuration
(protection R227 to R241, electrical R543). -/
namespace Sys2Proof.Machine

/-- Boost controller `b` beyond its registers. -/
def boostAt (s : State) (b : Nat) : Boost := Tbl.get {} s.drive.boosts b

/-- Boost controller `b` changed by `f`. -/
def onBoost (b : Nat) (f : Boost → Boost) (s : State) : State :=
  { s with drive := { s.drive with boosts := Tbl.set {} s.drive.boosts b (f (boostAt s b)) } }

/-- VCAP of controller `b`, 0.1 V. -/
def vcap (s : State) (b : Nat) : Nat := rd s (BST_STATUS_VCAP b)

/-- A condition that has stood since `since` goes on, begins at `t`, or breaks. -/
def lasts (holds : Bool) (t : Nat) (since : Option Nat) : Option Nat := if holds then some (since.getD t) else none

/-- A condition has stood for `n` cycles. -/
def lasted (s : State) (n : Nat) (since : Option Nat) : Bool :=
  match since with
  | some t => decide (t + n ≤ s.cyc)
  | none => false

/-! ### Charging (R227, R228, R230) -/

/-- Controller `b` is enabled and not FAILED: PRECHARGE, CHARGING or READY. -/
def boostRuns (s : State) (b : Nat) : Bool := boostState s b == 1 || boostState s b == 2 || boostState s b == 3

/-- The sum that `f` takes of the stretches of controller `b` that end within the last 10 ms. (log entry 111, DESIGN CHOICE) -/
def lastPower (s : State) (b : Nat) (f : Nat × Nat × Nat × Nat → Nat) : Nat :=
  ((boostAt s b).power.filter (fun x => decide (s.cyc < x.1 + 4000000))).foldl (fun a x => a + f x) 0

/-- Controller `b` has delivered 60 W over the last 10 ms, in µJ (R228). (log entry 111, DESIGN CHOICE) -/
def powerFull (s : State) (b : Nat) : Bool := decide (600000 ≤ lastPower s b (fun x => x.2.2.1))

/-- In PRECHARGE of either controller both together have taken 5 A from VBAT over the last 10 ms, in µC (R230). (log entry 111, DESIGN CHOICE) -/
def inputFull (s : State) : Bool :=
  (boostState s 0 == 1 || boostState s 1 == 1) &&
    decide (50000 ≤ lastPower s 0 (fun x => x.2.2.2) + lastPower s 1 (fun x => x.2.2.2))

/-- Controller `b` switches: it runs, VCAP is below `VSET`, and neither limit is reached (R227, R228, R230). -/
def charges (s : State) (b : Nat) : Bool :=
  boostRuns s b && decide (vcap s b < 10 * rd s (BST_CFG_VSET b)) && !powerFull s b && !inputFull s

/-- Controller `b` switches or stops switching, each on-time up to an inductor peak of `ILIM` (R227, R228). -/
def boostDrive (b : Nat) (s : State) : State :=
  let on := charges s b
  onBoost b (fun y => { y with switching := on, peak := if on then 10 * rd s (BST_CFG_ILIM b) else 0 }) s

/-- Both controllers follow their limits. -/
def boostDrives (s : State) : State := boostDrive 1 (boostDrive 0 s)

/-- Controller `b` enters state `x` of Table 7-1 now. -/
def boostEnter (b x : Nat) (s : State) : State :=
  let s := onBoost b (fun y =>
    { y with since := s.cyc, lowSince := if x = 2 ∨ x = 3 then y.lowSince else none, overs := if x = 2 ∨ x = 3 then y.overs else 0 }) s
  boostDrives (wr (BST_STATUS_STATE b) x s)

/-- VCAP stands at or above V_ready = `READY`/64 × `VSET` (R234). -/
def atReady (s : State) (b : Nat) : Bool :=
  decide (rd s (BST_CFG_READY b) * rd s (BST_CFG_VSET b) * 10 ≤ 64 * vcap s b)

/-- The clamp level in V: `VSET` + `CLAMP_MARGIN`, never above 172 V (R239). -/
def clampLevel (s : State) (b : Nat) : Nat := min 172 (rd s (BST_CFG_VSET b) + rd s (BST_CFG_CLAMP_MARGIN b))

/-- VBAT holds the bank up to the clamp by itself: no OVERVOLTAGE, and no engagement counts (electrical R543). (log entry 62, DEDUCED) -/
def vbatHolds (s : State) (b : Nat) : Bool := decide ((clampLevel s b - 2) * 10 ≤ s.drive.vbat)

/-- The channels of controller `b`. -/
def boostChannels (b : Nat) : List Nat := (List.range 36).filter (fun c => boostOf c == b)

/-- Controller `b` has become READY: the channels that wait for it start their boost phase (Table 7-3, first row). Its rise began
at no lane ON, so it is not compared; with another channel of the bank energised by then it runs from the battery (drive R192, R216). -/
def releaseWaiters (b : Nat) (s : State) : State :=
  (boostChannels b).foldl (fun s c =>
    match (chan s c).mode with
    | .boostWait since =>
      let x := chan s c
      let delay := s.cyc - since
      let s := if c = evenMember s c then
          report (.boost c x.serial ocSlipped delay s.cyc false) (noteBit x.serial flSlipped s)
        else s
      let s := feedCheck c s
      switchSource c true (runPhase c (rd s (DRV_CH_STAT_PHASE c)) 0 false s)
    | _ => s) s

/-- A controller that runs is READY at or above V_ready and CHARGING below it; in PRECHARGE it stays so until it is first ready
(R231, R234). -/
def boostTrack (b : Nat) (s : State) : State :=
  let x := boostState s b
  if x = 1 ∨ x = 2 then
    if atReady s b then releaseWaiters b (boostEnter b 3 s) else s
  else if x = 3 then if atReady s b then s else boostEnter b 2 s
  else s

/-- The bank of controller `b` reads `v` since cycle `t`: readiness and charging follow, the times of Table 7-2 run, and the bleed of an
overvoltage ends below `VSET` (R227, R233, R234, R240). -/
def vcapFrom (b v t : Nat) (s : State) : State :=
  let s := wr (BST_STATUS_VCAP b) v s
  let x := boostState s b
  let low := (x == 2 || x == 3) && decide (v < 5 * rd s (BST_CFG_VSET b))
  let high := x != 4 && decide (10 * (clampLevel s b + 8) < v) && !vbatHolds s b
  let s := onBoost b (fun y => { y with lowSince := lasts low t y.lowSince, highSince := lasts high t y.highSince }) s
  let s := if boostState s b = 4 ∧ v < 10 * rd s (BST_CFG_VSET b) then onBoost b (fun y => { y with bleed := false }) s
    else s
  boostDrives (boostTrack b s)

/-- The bank of controller `b` reads `v` now. (log entry 61, DESIGN CHOICE) -/
def setVcap (b v : Nat) (s : State) : State := vcapFrom b v s.cyc s

/-- Consecutive switching cycles with a peak above 1.5 × `lim` A, after those with the peaks of `l` in 0.1 A; sixteen stay reached
(R233). -/
def oversAfter (lim : Nat) (l : List Nat) (n : Nat) : Nat :=
  l.foldl (fun n p => if 16 ≤ n then n else if 15 * lim < p then n + 1 else 0) n

/-- What controller `b` does in a stretch of `n` cycles that begins at cycle `t`. -/
def bankRun (b t n : Nat) (r : BankRun) (s : State) : State :=
  let lim := rd s (BST_CFG_ILIM b)
  let now := s.cyc
  let s := onBoost b (fun y =>
    { y with
      overs := oversAfter lim r.peaks y.overs
      power := y.power.filter (fun x => decide (now < x.1 + 4000000)) ++ [(t + n, n, r.out, r.drawn)] }) s
  vcapFrom b r.vcap.toNat t s

/-- The stretches of the boost controllers that end now, oldest first. (log entry 111, DESIGN CHOICE) -/
def boostMeasure (l : List BoostRun) (s : State) : State :=
  (l.foldl (fun (a : Nat × State) r => (a.1 + r.cycles, bankRun 1 a.1 r.cycles r.b (bankRun 0 a.1 r.cycles r.a a.2)))
    (s.cyc - l.foldl (fun a r => a + r.cycles) 0, s)).2

/-! ### Waiting for the boost (Table 7-3) -/

/-- `BOOST_WAIT` of channel `c` has elapsed without the boost becoming ready: the rest of the event is not run. (log entry 62, DEDUCED) -/
def boostWaitOver (c : Nat) (s : State) : State :=
  match (chan s c).mode with
  | .boostWait since =>
    if since + boostWait (chan s c).words ≤ s.cyc then skipEvent c (s.cyc - since) since s else s
  | _ => s

/-! ### Configuration (R232, R237, R241, R254) -/

/-- The fields of a `BST_CFG` word lie in their ranges and its reserved bits are 0. -/
def bstCfgOk (x : Word) : Bool :=
  let ilim := bits x 27 24
  let margin := bits x 20 16
  let ready := bits x 13 8
  let vset := bits x 7 0
  decide (2 ≤ ilim) && decide (4 ≤ margin) && decide (margin ≤ 20) && decide (48 ≤ ready) && decide (40 ≤ vset) &&
    decide (vset ≤ 160) && decide (x &&& 0x70E0C000 = 0) && decide (ilim ≤ 15)

/-- The field of a `BST_CAP` word lies in its range and its reserved bits are 0. -/
def bstCapOk (x : Word) : Bool := decide (20 ≤ bits x 8 0) && decide (bits x 8 0 ≤ 400) && decide (x &&& 0xFFFFFE00 = 0)

/-- Controller `b` goes OFF, by way of DISCHARGE while its bank holds 50 V or more (R232, R241). -/
def boostStop (b : Nat) (s : State) : State :=
  if 500 ≤ vcap s b then boostEnter b 5 (onBoost b (fun y => { y with bleed := true }) s)
  else boostEnter b 0 (onBoost b (fun y => { y with bleed := false }) s)

/-- Controller `b` enters PRECHARGE; a module that is leaving treats `ENABLE` as 0 (R230, module R504). -/
def boostStart (b : Nat) (s : State) : State :=
  if isSet s MOD_STATUS_LEAVING then boostStop b s
  else boostTrack b (boostEnter b 1 (onBoost b (fun y => { y with bleed := false }) s))

/-- An accepted write of `BST_CFG_b` and `BST_CAP_b`: the draws follow a change of `VSET` or `CBANK`, and the controller a
change of `ENABLE`; `leave` tells that the write may leave FAILED (R232, R237, R241). -/
def boostConfigure (b : Nat) (cfg cap : Word) (leave : Bool) (s : State) : State :=
  let vset := rd s (BST_CFG_VSET b)
  let cbank := rd s (BST_CAP_CBANK b)
  let was := isSet s (BST_CFG_ENABLE b)
  let s := swWrite (BST_CAP b) (globalFields (BST_CAP b)) cap (swWrite (BST_CFG b) (globalFields (BST_CFG b)) cfg s)
  let s := if rd s (BST_CFG_VSET b) = vset ∧ rd s (BST_CAP_CBANK b) = cbank then s
    else (List.range 64).foldl (fun s n => setDraw n b (marginDraw s b) s) s
  let on := isSet s (BST_CFG_ENABLE b)
  boostDrives (if boostState s b = 4 then if leave ∧ on then boostStart b s else s
    else if on then if was then boostTrack b s else boostStart b s
    else if was then boostStop b s else s)

/-- A write of `BST_CFG_b` (`cap` false) or `BST_CAP_b` from PF0: discarded with `CFG_REJ` when a field lies outside its range
(R254). Reserved bits of a register write are ignored. -/
def bstWrite (b : Nat) (cap : Bool) (x : Word) (s : State) : State :=
  let cfg := wordNow s (globalFields (BST_CFG b))
  let bank := wordNow s (globalFields (BST_CAP b))
  let good := if cap then bstCapOk (x &&& 0x000001FF) else bstCfgOk (x &&& 0x8F1F3FFF)
  if !good then flag (BST_STATUS_CFG_REJ b) s
  else if cap then boostConfigure b cfg x false s
  else boostConfigure b x bank false s

/-- Client `c` owns every channel of controller `b`. -/
def ownsBoost (s : State) (c b : Nat) : Bool := (boostChannels b).all (owns s c)

/-- `BOOST_CONFIG (0x0164)` (R241, R521). -/
def boostConfig (m : Msg) (s : State) : State :=
  let b := (word m 0).toNat
  if 2 ≤ b then respond 0x0164 m 0x0167 0 [] s
  else if !isSafety s m.client && !ownsBoost s m.client b then refuse 0x0164 m 3 s
  else if !bstCfgOk (word m 1) then respond 0x0164 m 0x0167 1 [] s
  else if !bstCapOk (word m 2) then respond 0x0164 m 0x0167 2 [] s
  else ok 0x0164 m (commits [BST_CFG b, BST_CAP b] (boostConfigure b (word m 1) (word m 2) true s))

/-- `BOOST_CONFIG`: writes the configuration of a boost controller. -/
def execBoostConfig (m : Msg) (s : State) : Host.Outcome State Fault Refusal := command 0x0164 m (boostConfig m) s

/-- `BOOST_STATUS (0x0167)`: the registers of a controller and the learned draw of every slot (Table 19-7). -/
def boostStatus (m : Msg) (s : State) : State :=
  let b := (word m 0).toNat
  if 2 ≤ b then respond 0x0167 m 0x0B 0 [] s
  else
    respond 0x0167 m 0 0
      ([BST_STATUS b, BST_COUNT b, BST_CFG b, BST_CAP b].map (fun o => wordNow s (globalFields o)) ++
        (List.range 64).map (fun n => wd (drawOf s n b))) s

/-- `BOOST_STATUS`: reads a boost controller. -/
def execBoostStatus (m : Msg) (s : State) : Host.Outcome State Fault Refusal := command 0x0167 m (boostStatus m) s

/-- A controller that is FAILED leaves that state (R241). -/
def boostRecover (b : Nat) (s : State) : State := if isSet s (BST_CFG_ENABLE b) then boostStart b s else boostStop b s

/-- The boosts of a start-up record, applied at boot (start-up R434). (log entry 62, DEDUCED) -/
def bootBoost (b : Nat) (cfg cap : Word) (s : State) : State := boostConfigure b cfg cap false s

end Sys2Proof.Machine
end

