-- ==== Sys2Proof/Machine/Protect.lean ====
section
/-! DEFINITION. Stage protection: ramp and desaturation trips, the off-state test, the open-load check, thermal limits, latches
and their release (protection R242 to R254). -/
namespace Sys2Proof.Machine

/-! ### Turning on (R242 to R245) -/

/-- t_ramp of channel `c` in cycles of 2.5 ns: 200 ns + 120 ns × `RAMP` (R242). -/
def rampCycles (s : State) (c : Nat) : Nat := 80 + 48 * prtField s c (PRT_CFG_RAMP c)

/-- The cycle in which the high side (`high`) or the low side of channel `c`, if it is on, last turned on; on a held node the bank's
battery high side, with the last channel to take current from it. (log entry 112, DEDUCED) -/
def turnedOn (s : State) (c : Nat) (high : Bool) : Option Nat :=
  let w := switches s c
  if high then
    if nodeHeld s c then some ((bankOf c).foldl (fun a d => max a (chan s d).sourceAt) 0)
    else if feeding s c then some (chan s c).sourceAt else none
  else if w.low then some (chan s c).lowAt else none

/-- `t` cycles into its ramp, which began at V_DS = `v0`, a turning-on switch of channel `c` stands at `vds`, in 0.1 V, and the current
rises at `slope`, in 0.1 A/µs: the monitor's window and its two limits (R243). -/
def rampViolated (s : State) (c : Nat) (high : Bool) (t v0 vds slope : Nat) : Bool :=
  let n := rampCycles s c
  match turnedOn s c high with
  | none => false
  | some a =>
    decide (a + t ≤ s.cyc) && decide (n ≤ 8 * t) && decide (t ≤ n) &&
      (decide (v0 * (n - t) + 20 * prtField s c (PRT_CFG_VMARGIN c) * n < vds * n) ||
        decide (10 * prtField s c (PRT_CFG_DIDT_MAX c) < slope))

/-- A switch of channel `c` that is on has stood at `vds` or more, in 0.1 V, for `held` cycles up to now: above `DESAT_V` for 200 ns,
from t_ramp + 100 ns after its turn-on on (R245). -/
def desaturated (s : State) (c : Nat) (high : Bool) (vds held : Nat) : Bool :=
  match turnedOn s c high with
  | none => false
  | some a =>
    decide (80 ≤ held) && decide (a + rampCycles s c + 120 ≤ s.cyc) && decide (10 * prtField s c (PRT_CFG_DESAT_V c) < vds)

/-! ### The off-state test (R247) -/

/-- Channel `c` is due for an off-state test: idle for 1 ms, no calibration pending, 10 ms after the last. A comparator self-test on its
lane goes first, and a channel that one has latched is not tested (acquisition R337, R338). -/
def testDue (s : State) (c : Nat) : Bool :=
  let x := chan s c
  x.mode == .idle && !x.lane && (members s c).all (fun m => !(chan s m).selfTest) &&
    !(isSet s (PRT_STAT_LATCH c) && rd s (PRT_STAT_CAUSE c) == 15) && x.cal == .none && x.test == none && decide (x.changedAt + 400000 ≤ s.cyc) &&
    (x.testAt == 0 || decide (x.testAt + 4000000 ≤ s.cyc))

/-- The test of channel `c` ends with its low-side drain at `drain` and its high-side output at `high`, in 0.1 V: above VBAT − 3 V, or
below 2 V, is a short. -/
def testResult (c drain high : Nat) (s : State) : State :=
  match (chan s c).test with
  | none => s
  | some t =>
    if s.cyc < t + 8000 then s
    else
      let s := onChan c (fun x => { x with test := none }) s
      if s.drive.vbat < drain + 30 then tripLatched c 0x0526 0x27 s
      else if high < 20 then tripLatched c 0x0526 0x28 s
      else s

/-! ### The open-load check (R248) -/

/-- `OPEN_T` after the source of channel `c` turned on its current is `amps`, in 10 mA: below `OPEN_I` the source goes off, and `drain`, in
0.1 V, is the highest voltage of the low-side drain within 1 µs of it, which tells a coil from none. -/
def openLoad (c amps drain : Nat) (s : State) : State :=
  let x := chan s c
  let due := x.sourceAt + 2000 * (prtField s c (PRT_CFG_OPEN_T c) + 1)
  if !energised s c ∨ x.mode ≠ .run ∨ !x.source ∨ timeOnly x.words ∨ 5 * prtField s c (PRT_CFG_OPEN_I c) ≤ amps
      ∨ s.cyc < due then s
  else
    let volts := sourceVolts s c (rd s (DRV_CH_STAT_PHASE c))
    let s := switchSource c false s
    if volts + 50 < drain then
      let s := plausFail c (wrB (PRT_STAT_OPEN c) false s)
      if !(chan s c).blind then callFor c true s
      else if (chopTimes s c (rd s (DRV_CH_STAT_PHASE c))).isSome then switchSource c true s else s
    else
      let s := (members s c).foldl (fun s m => wr (PRT_STAT_CAUSE m) 9 (tripMember m 0x29 1 s)) s
      raisePerCycle 0x0527 c c (wd (0x29 * 2 ^ 24 + rd s (PRT_STAT_RETRIES_LEFT c) * 2 ^ 16)) (actEvent + actOff)
        (wrB (PRT_STAT_OPEN c) true s)

/-! ### Thermal limits (R249, R250) -/

/-- The switches of channel `c` read `t` = °C + 64. (log entry 61, DESIGN CHOICE) -/
def channelThermal (c t : Nat) (s : State) : State :=
  let s := wr (PRT_STAT_TEMP c) t s
  let hot := isSet s (PRT_STAT_HOT c)
  let s := wrB (PRT_STAT_HOT c) (decide (214 < t)) s
  let s := if 214 < t ∧ !hot then raise 0x052A c 0 0 s else s
  if 239 < t ∧ !(chan s c).tooHot then
    let s := onChan c (fun x => { x with tooHot := true }) s
    let ran := energised s c
    let s := tripUnlatched ((members s c).filter (energised s)) 0x2A s
    raise 0x0528 c (wd (0x2A * 2 ^ 24 + rd s (PRT_STAT_RETRIES_LEFT c) * 2 ^ 16)) (if ran then actEvent + actOff else actOff) s
  else if t < 224 then onChan c (fun x => { x with tooHot := false }) s
  else s

/-- Fields of `PRT_SUB` for zone `z`: temperature, hot, trip. -/
def zoneFields (z : Nat) : Fld × Fld × Fld :=
  if z = 0 then (PRT_SUB_TEMP_A, PRT_SUB_HOT_A, PRT_SUB_TRIP_A) else (PRT_SUB_TEMP_B, PRT_SUB_HOT_B, PRT_SUB_TRIP_B)

/-- Zone `z` of the power substrate reads `t` = °C + 64. -/
def zoneThermal (z t : Nat) (s : State) : State :=
  let (temp, hot, trip) := zoneFields z
  let s := wr temp t s
  let wasHot := isSet s hot
  let s := wrB hot (decide (199 < t)) s
  let s := if 199 < t ∧ !wasHot then raise 0x052C (0x5A + z) 0 0 s else s
  if 214 < t ∧ !isSet s trip then
    let s := wrB trip true s
    let run := (List.range 36).filter (fun c => zoneOf c == z && energised s c)
    let s := tripUnlatched run 0x2B s
    raise 0x0529 (0x5A + z) (wd (0x2B * 2 ^ 24)) (if run = [] then actOff else actEvent + actOff) s
  else if t < 199 then wrB trip false s
  else s

/-! ### Latches (R252) -/

/-- The retry interval of channel `c` ends: the latch is released and one retry is used. -/
def retryChannel (c : Nat) (s : State) : State :=
  match (chan s c).latchedAt with
  | some t =>
    if isSet s (PRT_STAT_LATCH c) ∧ t + retryCycles (prtField s c (PRT_CFG_RETRY_INT c)) ≤ s.cyc then
      let s := onChan c (fun x => { x with latchedAt := none }) s
      wr (PRT_STAT_RETRIES_LEFT c) (rd s (PRT_STAT_RETRIES_LEFT c) - 1) (wrB (PRT_STAT_LATCH c) false s)
    else s
  | none => s

/-- A software write of `v` to `PRT_STAT_c.LATCH`: 0 clears the latch unless the hardware set it in this cycle or a comparator self-test set it; 1 is ignored
(R253, Table 7-8, acquisition R338). -/
def latchWrite (c : Nat) (v : Bool) (s : State) : State :=
  if v ∨ (Tbl.find s.hw (PRT_STAT_LATCH c).key).isSome ∨ rd s (PRT_STAT_CAUSE c) = 15 ∨ !isSet s (PRT_STAT_LATCH c) then s
  else clearLatch c s

/-- PF0 writes `x` to `PRT_STAT_c`: a 0 in `LATCH` clears the latch (R253, R254). -/
def prtStatWrite (c : Nat) (x : Word) (s : State) : State := latchWrite c (bits x 0 0 == 1) s

/-- `PROTECT_CONFIG (0x0165)`: `PRT_CFG` of one channel, in effect from its next lane ON (R254). -/
def protectConfig (m : Msg) (s : State) : State :=
  let c := (word m 0).toNat
  if 36 ≤ c then respond 0x0165 m 7 0 [] s
  else if oddMember s c then refuse 0x0165 m 8 s
  else if !owns s m.client c then refuse 0x0165 m 3 s
  else ok 0x0165 m (swWrite (PRT_CFG c) (globalFields (PRT_CFG c)) (word m 1) s)

/-- `PROTECT_CONFIG`: writes the protection configuration of a channel. -/
def execProtectConfig (m : Msg) (s : State) : Host.Outcome State Fault Refusal := command 0x0165 m (protectConfig m) s

/-- One item of `PROTECT_CLEAR` that names channel `c`: its status, and the state after it. -/
def clearChannelItem (m : Msg) (c : Nat) (s : State) : Nat × State :=
  if oddMember s c then (8, s)
  else if !isSafety s m.client && !owns s m.client c then (3, s)
  else (0, (members s c).foldl (fun s d => clearLatch d s) s)

/-- One item of `PROTECT_CLEAR` that names controller `b` (R241, R521). -/
def clearBoostItem (m : Msg) (b : Nat) (s : State) : Nat × State :=
  if (isSafety s m.client || ownsBoost s m.client b) && boostState s b == 4 then (0, boostRecover b s) else (3, s)

/-- The channels that `mask` names, cleared or refused one by one: their statuses, and the state. -/
def clearChannels (m : Msg) (mask : Nat) (s : State) : Tbl Nat × State :=
  (List.range 36).foldl (fun (a : Tbl Nat × State) c =>
    if bitOf mask c then
      let (st, s) := clearChannelItem m c a.2
      (Tbl.insert a.1 c st, s)
    else a) ([], s)

/-- The boost controllers that `mask` names, after the channels. -/
def clearBoosts (m : Msg) (mask : Nat) (a : Tbl Nat × State) : Tbl Nat × State :=
  (List.range 2).foldl (fun (a : Tbl Nat × State) b =>
    if bitOf mask b then
      let (st, s) := clearBoostItem m b a.2
      (Tbl.insert a.1 (36 + b) st, s)
    else a) a

/-- `PROTECT_CLEAR (0x0166)`. -/
def protectClear (m : Msg) (s : State) : State :=
  match reservedBad m [0xFFFFFFFF, 0x0000030F] with
  | some i => respond 0x0166 m 7 i [] s
  | none =>
    let r := clearBoosts m (bits (word m 1) 9 8) (clearChannels m (chanMask (word m 0) (word m 1)) s)
    respond 0x0166 m 0 0 (itemsOf 38 r.1) r.2

/-- `PROTECT_CLEAR`: clears channel latches and FAILED controllers. -/
def execProtectClear (m : Msg) (s : State) : Host.Outcome State Fault Refusal := command 0x0166 m (protectClear m) s

end Sys2Proof.Machine
end

