-- ==== Sys2Proof/Machine/Closing.lean ====
section
/-! DEFINITION. The closing-detection commands: kinks, the end of windows, configuration, trim reset and status (closing R257 to
R275). -/
namespace Sys2Proof.Machine

/-- Samples of 50 ns from the start of window `x` to cycle `t`. -/
def Window.sample (x : Window) (t : Nat) : Nat := (t - x.from_ + 19) / 20

/-- The detector over the samples `v` of the window of channel `c`, evaluated from `start` on. -/
def detectOn (s : State) (c : Nat) (v : List (BitVec 12)) (start limit : Nat) : Option (Nat × Nat) :=
  detect v (cdField s c (CD_CFG_HALF_W c)) (cdField s c (CD_DET_THRESH c)) (cdField s c (CD_CFG_POLARITY c) == 1) start limit

/-- The status and cause of a kink at delay `k` on channel `c` (R260). -/
def kinkStatus (s : State) (c k : Nat) : Nat × Nat :=
  if k < cdField s c (CD_PLAUS_PL_MIN c) then (3, 1)
  else if cdField s c (CD_PLAUS_PL_MAX c) < k then (3, 2)
  else (0, 0)

/-- The armature of channel `c` has reached its end: every member of its lane that stands in a CLOSED phase takes the exit (R261, drive
R187). -/
def closedExit (c : Nat) (s : State) : State :=
  (members s c).foldl (fun s m =>
    if inPhase s m ∧ phaseExit (chan s m).words (rd s (DRV_CH_STAT_PHASE m)) = 2 then exitPhase m true s else s) s

/-- Converter `k` has taken the samples `v` of its window, of which the first with the current below 50 mA is `below`: a kink
ends the window, or takes a CLOSED exit (R257 to R261, R265). -/
def kinkFound (k : Nat) (v : List (BitVec 12)) (below : Nat) (s : State) : State :=
  match windowOf s k with
  | none => s
  | some x =>
    let c := x.channel
    let settle := 20 * cdField s c (CD_DET_SETTLE c)
    if x.closing then
      match detectOn s c v (max settle below) (x.length / 20) with
      | none => s
      | some (_, d) =>
        let (st, cause) := kinkStatus s c d
        measured c x.serial st cause d (dropReserve k x.serial (setWindow k none s))
    else if (chan s c).source ∨ !inPhase s c ∨ !exitsApply s c ∨ (chan s c).blind ∨ laneFalls s c then s
    else
      match detectOn s c v (x.sample (max x.from_ (chan s c).changedAt) + settle) (20 * cdField s c (CD_DET_CD_END c)) with
      | none => s
      | some _ => closedExit c s

/-- The closing window of converter `k` is over without a kink (R260, R265). -/
def windowOver (k : Nat) (s : State) : State :=
  match windowOf s k with
  | some x =>
    if x.closing ∧ x.from_ + x.length ≤ s.cyc then
      measured x.channel x.serial 2 0 0 (dropReserve k x.serial (setWindow k none s))
    else s
  | none => s

/-! ### Configuration (R273, R274) -/

/-- The four register words lie in their ranges and agree with each other (R274, Table 8-8). -/
def cdOk (cfg det plaus : Word) : Bool :=
  let gain := bits cfg 24 16
  let target := bits cfg 15 0
  let stop := bits det 31 20
  let lo := bits plaus 15 0
  let hi := bits plaus 31 16
  decide (gain ≤ 256) && decide (10 ≤ stop) && decide (stop ≤ 3000) && decide (1 ≤ bits det 11 0) && decide (lo < hi) &&
    decide (hi ≤ 20 * stop) && decide (lo ≤ target) && decide (target ≤ hi)

/-- The index of the first of the four words of channel `c` that R274 refuses, counted from 0. -/
def cdBad (cfg det plaus lim : Word) : Option Nat :=
  if 256 < bits cfg 24 16 then some 0
  else if bits det 31 20 < 10 ∨ 3000 < bits det 31 20 ∨ bits det 11 0 = 0 then some 1
  else if lim &&& 0xFFFF0000 ≠ 0 then some 3
  else if bits plaus 31 16 ≤ bits plaus 15 0 ∨ 20 * bits det 31 20 < bits plaus 31 16 then some 2
  else if !cdOk cfg det plaus then some 0
  else none

/-- The configuration of channel `c` is written; a change of `ENABLE` or `TRIM_EN` resets the trim (R273). -/
def cdConfigure (c : Nat) (cfg det plaus lim : Word) (s : State) : State :=
  let en := rd s (CD_CFG_ENABLE c)
  let tr := rd s (CD_CFG_TRIM_EN c)
  let s := [(CD_CFG c, cfg), (CD_DET c, det), (CD_PLAUS c, plaus), (CD_TRIMLIM c, lim)].foldl (fun s p =>
    swWrite p.1 (globalFields p.1) p.2 s) s
  if rd s (CD_CFG_ENABLE c) = en ∧ rd s (CD_CFG_TRIM_EN c) = tr then s else trimReset c s

/-- PF0 writes `x` to the register at `off`, one of the four configuration registers of channel `c`: discarded with `CFG_REJ` when
R274 would refuse it (R275). -/
def cdWrite (c off : Nat) (x : Word) (s : State) : State :=
  let w := fun o => if o = off then x else wordNow s (globalFields o)
  if cdOk (w (CD_CFG c)) (w (CD_DET c)) (w (CD_PLAUS c)) then
    cdConfigure c (w (CD_CFG c)) (w (CD_DET c)) (w (CD_PLAUS c)) (w (CD_TRIMLIM c)) s
  else flag CD_STATUS_CFG_REJ s

/-- `CLOSING_CONFIG (0x0168)`. -/
def closingConfig (m : Msg) (s : State) : State :=
  let c := (word m 0).toNat
  if 36 ≤ c then respond 0x0168 m 7 0 [] s
  else if oddMember s c then refuse 0x0168 m 8 s
  else if !owns s m.client c then refuse 0x0168 m 3 s
  else match cdBad (word m 1) (word m 2) (word m 3) (word m 4) with
    | some i => respond 0x0168 m 0x0168 (i + 1) [] s
    | none =>
      ok 0x0168 m (commits [CD_CFG c, CD_DET c, CD_PLAUS c, CD_TRIMLIM c]
        (cdConfigure c (word m 1) (word m 2) (word m 3) (word m 4) s))

/-- `CLOSING_CONFIG`: writes the closing-detection configuration of a channel. -/
def execClosingConfig (m : Msg) (s : State) : Host.Outcome State Fault Refusal := command 0x0168 m (closingConfig m) s

/-- The channels that `mask` names, reset or refused one by one: their statuses, and the state. -/
def trimResetItems (m : Msg) (mask : Nat) (s : State) : Tbl Nat × State :=
  (List.range 36).foldl (fun (a : Tbl Nat × State) c =>
    if !bitOf mask c then a
    else if oddMember s c then (Tbl.insert a.1 c 8, a.2)
    else if !owns s m.client c then (Tbl.insert a.1 c 3, a.2)
    else (Tbl.insert a.1 c 0, trimReset c a.2)) ([], s)

/-- `TRIM_RESET (0x0169)`: R273 for every named channel. -/
def trimResetCmd (m : Msg) (s : State) : State :=
  match reservedBad m [0xFFFFFFFF, 0x0000000F] with
  | some i => respond 0x0169 m 7 i [] s
  | none =>
    let r := trimResetItems m (chanMask (word m 0) (word m 1)) s
    respond 0x0169 m 0 0 (itemsOf 36 r.1) r.2

/-- `TRIM_RESET`: resets the trim of named channels. -/
def execTrimReset (m : Msg) (s : State) : Host.Outcome State Fault Refusal := command 0x0169 m (trimResetCmd m) s

/-- `CLOSING_STATUS (0x016A)`: last measurement, trim and counts of each named channel. -/
def closingStatus (m : Msg) (s : State) : State :=
  match reservedBad m [0xFFFFFFFF, 0x0000000F] with
  | some i => respond 0x016A m 7 i [] s
  | none =>
    let mask := chanMask (word m 0) (word m 1)
    respond 0x016A m 0 0 ((List.range 36).flatMap (fun c =>
      if bitOf mask c then [CD_LAST c, CD_TRIM c, CD_COUNT c].map (fun o => wordNow s (globalFields o)) else [])) s

/-- `CLOSING_STATUS`: reads the closing detection of named channels. -/
def execClosingStatus (m : Msg) (s : State) : Host.Outcome State Fault Refusal := command 0x016A m (closingStatus m) s

end Sys2Proof.Machine
end

