-- ==== Sys2Proof/Machine/AuxOut.lean ====
section
/-! DEFINITION. The sixteen auxiliary outputs: switching, inrush windows, shorts, thermal shutdown, latches, and their commands
(auxiliary R277 to R290). -/
namespace Sys2Proof.Machine

/-- Auxiliary output `n` of the drive die. -/
def auxAt (s : State) (n : Nat) : Aux := Tbl.get {} s.drive.aux n

/-- Auxiliary output `n` changed by `f`. -/
def onAux (n : Nat) (f : Aux → Aux) (s : State) : State :=
  { s with drive := { s.drive with aux := Tbl.set {} s.drive.aux n (f (auxAt s n)) } }

/-- A field of `AUX_CFG` or `AUX_OPEN` of output `n` in effect: as taken over at its last lane ON (R289). -/
def auxField (s : State) (n : Nat) (f : Fld) : Nat :=
  match (auxAt s n).cfg with
  | some (a, b) => if f.off = AUX_CFG n then f.ofWord a else f.ofWord b
  | none => f.reset

/-- The outputs of the feed group of output `n`. -/
def auxGroup (n : Nat) : List Nat := (List.range 4).map (fun i => n / 4 * 4 + i)

/-- The output may conduct apart from its lane: driving role, enabled, powered, not latched, not in thermal shutdown (R278). -/
def auxMay (s : State) (n : Nat) : Bool :=
  energises s && bitOf (rd s AUX_EN_EN) n && outputPowered s (36 + n) && !isSet s (AUX_STAT_LATCH n) && !isSet s (AUX_STAT_HOT n)
    && !(Tbl.get ({} : Lane) s.seq.lanes (36 + n)).fault

/-- Output `n` conducts from now on. -/
def auxConducts (n : Nat) (s : State) : State := wrB (AUX_STAT_ON n) true (onAux n (fun x => { x with ran := true }) s)

/-- Output `n` opens its inrush window now and conducts: its timer and its integral start at 0 (R280). -/
def auxInrush (n : Nat) (s : State) : State :=
  let s := onAux n (fun x => { x with inrush := some s.cyc, held := 0, heat := 0 }) s
  wrB (AUX_STAT_WAITING n) false (wrB (AUX_STAT_INRUSH n) true (auxConducts n s))

/-- Outputs of the group of `n` that are in inrush windows. -/
def inrushCount (s : State) (n : Nat) : Nat := ((auxGroup n).filter (fun i => isSet s (AUX_STAT_INRUSH i))).length

/-- Output `n` joins the outputs that wait for an inrush window, in the order of their lane ON (R281). -/
def auxWait (n : Nat) (s : State) : State :=
  let t := (auxAt s n).onAt
  let l := s.drive.waiters
  let ahead := l.filter (fun i => decide ((auxAt s i).onAt ≤ t))
  let behind := l.filter (fun i => decide (t < (auxAt s i).onAt))
  { s with drive := { s.drive with waiters := ahead ++ n :: behind } }

/-- Output `n`, whose lane is ON by a start with a checked frame (architecture R15), is switched on if it may be: in an inrush window, waiting for one, or at `LIMIT` (R280, R281).
(log entry 63, DEDUCED) -/
def auxEnergise (n : Nat) (s : State) : State :=
  let x := auxAt s n
  if !x.lane ∨ !x.framed ∨ !auxMay s n ∨ isSet s (AUX_STAT_ON n) ∨ isSet s (AUX_STAT_WAITING n) then s
  else
    let rested : Bool := match x.offAt with
      | none => true
      | some t => decide (t + 40000000 ≤ s.cyc)
    if auxField s n (AUX_CFG_INRUSH_EN n) = 1 ∧ rested then
      if inrushCount s n < 2 then auxInrush n s
      else
        auxWait n (count (AUX_COUNT_WAITS n) 1 (wrB (AUX_STAT_WAITING n) true s))
    else auxConducts n s

/-- While fewer than two outputs of the group of `n` are in inrush windows, the output that has waited longest opens its window
(R281). -/
def serveWaiters (n : Nat) (s : State) : State :=
  if inrushCount s n < 2 then
    match s.drive.waiters.find? (fun i => i / 4 == n / 4) with
    | some i => auxInrush i { s with drive := { s.drive with waiters := s.drive.waiters.filter (fun j => j != i) } }
    | none => s
  else s

/-- Output `n` is switched off now, whether it conducts or waits; its inrush window ends. -/
def auxSwitchOff (n : Nat) (s : State) : State :=
  let on := isSet s (AUX_STAT_ON n)
  let s := onAux n (fun x =>
    { x with inrush := none, limitSince := none, lowSince := none, idleSince := none, backSince := none
             offAt := if on then some s.cyc else x.offAt }) s
  let s := { s with drive := { s.drive with waiters := s.drive.waiters.filter (fun j => j != n) } }
  let s := wrB (AUX_STAT_ON n) false (wrB (AUX_STAT_INRUSH n) false (wrB (AUX_STAT_WAITING n) false s))
  serveWaiters n (wrB (AUX_STAT_AT_LIMIT n) false s)

/-! ### What is measured (R277, R280, R282, R285 to R287) -/

/-- V_feed of the group of output `n` in a stretch, in 0.25 V. -/
def feedOf (r : AuxRun) (n : Nat) : Nat := bits r.feed (8 * (n / 4) + 7) (8 * (n / 4))

/-- The current limit of output `n`, in 10 mA: `INRUSH_LIM` within its window, else `LIMIT` (R280). -/
def auxLimit (s : State) (n : Nat) : Nat :=
  if isSet s (AUX_STAT_INRUSH n) then 200 * auxField s n (AUX_CFG_INRUSH_LIM n) else 100 * auxField s n (AUX_CFG_LIMIT n)

/-- Output `n` stands at its current limit in the stretch `r`. (log entry 100, DEDUCED) -/
def atLimit (s : State) (r : AuxRun) (n : Nat) : Bool :=
  isSet s (AUX_STAT_ON n) && decide (auxLimit s n ≤ r.amps.getD n 0)

/-- The timer of output `n` holds in the stretch `r`: V_feed stands below 80 % of VBAT and another output of its group at its limit
(R285). (log entry 100, DEDUCED) -/
def droops (s : State) (r : AuxRun) (n : Nat) : Bool :=
  decide (25 * feedOf r n < 8 * r.vbat.toNat) && (auxGroup n).any (fun i => i != n && atLimit s r i)

/-- What output `n` makes of a stretch that begins at cycle `t`. (log entry 100, DEDUCED) -/
def auxStretch (s : State) (r : AuxRun) (t n : Nat) (x : Aux) : Aux :=
  let i := r.amps.getD n 0
  let v := r.volts.getD n 0
  let on := isSet s (AUX_STAT_ON n)
  let win := isSet s (AUX_STAT_INRUSH n)
  let lim := atLimit s r n
  { x with
    held := if win && droops s r n then x.held + r.cycles else x.held
    heat := if win then x.heat + i * i * r.cycles else x.heat
    limitSince := lasts (lim && !win) t x.limitSince
    lowSince := lasts (lim && decide (10 * v < 3 * feedOf r n)) t x.lowSince
    idleSince := lasts (on && !win && decide (i < auxField s n (AUX_OPEN_OPEN_I n))) t x.idleSince
    backSince := lasts (!on && decide (feedOf r n < 2 * v)) t x.backSince }

/-- One stretch of measurements, which begins at cycle `t`: `AUX_FEED`, `AT_LIMIT`, and what the outputs' conditions make of it. -/
def auxRun (r : AuxRun) (t : Nat) (s : State) : State :=
  let s := (List.range 16).foldl (fun u n => onAux n (auxStretch s r t n) u) s
  let s := wr AUX_FEED_GROUP0 (feedOf r 0) (wr AUX_FEED_GROUP1 (feedOf r 4) s)
  let s := wr AUX_FEED_GROUP2 (feedOf r 8) (wr AUX_FEED_GROUP3 (feedOf r 12) s)
  (List.range 16).foldl (fun u n => wrB (AUX_STAT_AT_LIMIT n) (atLimit s r n) u) s

/-- The stretches of measurements that end now, oldest first. (log entry 100, DEDUCED) -/
def auxMeasure (l : List AuxRun) (s : State) : State :=
  (l.foldl (fun (a : Nat × State) r => (a.1 + r.cycles, auxRun r a.1 a.2))
    (s.cyc - l.foldl (fun a r => a + r.cycles) 0, s)).2

/-- What ends the event of output `n` is reported, when a Sequencer event holds its lane (R283). -/
def auxReport (n reason : Nat) (s : State) : State :=
  let x := auxAt s n
  if x.lane ∧ x.serial ≠ 0 then report (.tripped (36 + n) x.serial reason s.cyc (isSet s (AUX_STAT_ON n))) s else s

/-! ### Lanes -/

/-- A start whose frame is there energises output `n`, or is refused as disabled or latched (R278, R283). -/
def auxStart (n : Nat) (s : State) : State :=
  if !driving s then s
  else if !bitOf (rd s AUX_EN_EN) n || !outputPowered s (36 + n) then auxReport n 0x22 s
  else if rdStart s (AUX_STAT_LATCH n) = 1 ∨ isSet s (AUX_STAT_LATCH n) then auxReport n 0x2C s
  else auxEnergise n s

/-- The lane of output `n` turns ON for the event of serial `x` (0 for a pulse) (R15, R278, R283). (log entry 63, DEDUCED) -/
def auxOn (n x : Nat) (s : State) : State :=
  let s := onAux n (fun y =>
    { y with
      lane := true, onAt := s.cyc, framed := false, ran := false, serial := x, thermal := 0, openTold := false, tripped := false
      cfg := some (wordNow s (globalFields (AUX_CFG n)), wordNow s (globalFields (AUX_OPEN n))) }) s
  match takeFrame x (auxAt s n).frames with
  | none =>
    if !driving s then s
    else report (.noFrame (36 + n) x s.cyc false)
      (raise 0x0207 (outSource (36 + n)) (hopDetail s x 7) (actEvent + actOff) (onAux n (fun y => { y with lane := false }) s))
  | some (_, rest) =>
    auxStart n (onAux n (fun y => { y with frames := rest, framed := true }) s)

/-- A start for serial `x` reaches output `n` whose lane is ON: the frame is consumed, and the new event holds the output, or is
refused as at a lane that rises (R278, R283). (log entry 63, DEDUCED) -/
def auxAgain (n x : Nat) (s : State) : State :=
  match takeFrame x (auxAt s n).frames with
  | some (_, rest) => auxStart n (onAux n (fun y => { y with frames := rest, framed := true, serial := x }) s)
  | none =>
    if !driving s then s else report (.noFrame (36 + n) x s.cyc false) (raise 0x0207 (outSource (36 + n)) (hopDetail s x 7) actEvent s)

/-- The lane of output `n` turns OFF (R279); 64 intervals in a row in which it conducted without a trip restore the retries (R252,
R284). -/
def auxOff (n : Nat) (s : State) : State :=
  let x := auxAt s n
  let run := if x.tripped then 0 else if x.ran then x.cleanRun + 1 else x.cleanRun
  let s := auxSwitchOff n s
  let s := onAux n (fun y => { y with lane := false, framed := false, cleanRun := if 64 ≤ run then 0 else run }) s
  if 64 ≤ run then wr (AUX_STAT_RETRIES_LEFT n) (auxField s n (AUX_CFG_RETRY_N n)) s else s

/-! ### Protection -/

/-- Cycles by which the timer of output `n` has held in its window: at most 20 ms (R285). -/
def auxHeld (s : State) (n : Nat) : Nat := min (auxAt s n).held 8000000

/-- The integral of output `n` has reached `I2T`, in 0.25 A²s, which is 10^12 (10 mA)² × cycles (R280). -/
def boundReached (s : State) (n : Nat) : Bool := decide (auxField s n (AUX_CFG_I2T n) * 10 ^ 12 ≤ (auxAt s n).heat)

/-- The inrush window of output `n` ends when its integral has reached `I2T` or its timer, less the cycles held under droop,
`INRUSH_T` (R280, R285). -/
def inrushEnd (n : Nat) (s : State) : State :=
  match (auxAt s n).inrush with
  | none => s
  | some t =>
    let held := auxHeld s n
    let bound := boundReached s n
    if !bound ∧ s.cyc < t + 400000 * auxField s n (AUX_CFG_INRUSH_T n) + held then s
    else
      let s := if bound then count (AUX_COUNT_I2T_ENDS n) 1 s else s
      let s := if held = 0 then s else count (AUX_COUNT_DROOP_HOLDS n) 1 s
      serveWaiters n (wrB (AUX_STAT_INRUSH n) false (onAux n (fun x => { x with inrush := none }) s))

/-- One of the criteria of R282 has stood on output `n` for 10 µs. -/
def shorted (s : State) (n : Nat) : Bool := lasted s 4000 (auxAt s n).limitSince || lasted s 4000 (auxAt s n).lowSince

/-- A short is declared on output `n` (R282 to R284). -/
def auxShort (n : Nat) (s : State) : State :=
  if !isSet s (AUX_STAT_ON n) ∨ !shorted s n then s
  else
    let left := rd s (AUX_STAT_RETRIES_LEFT n)
    let s := auxSwitchOff n (auxReport n 0x2D s)
    let s := flag (AUX_STAT_LATCH n) (wr (AUX_STAT_CAUSE n) 1 (count (AUX_COUNT_SHORTS n) 1 s))
    let s := onAux n (fun x =>
      { x with latchedAt := if left = 0 then none else some s.cyc, tripped := true, cleanRun := 0 }) s
    let s := raise 0x0540 (0x40 + n) (wd (0x2D * 2 ^ 24 + left * 2 ^ 16)) (actEvent + actOff + actLatch) s
    if left = 0 then raise 0x0541 (0x40 + n) (wd (0x2D * 2 ^ 24)) actLatch s else s

/-- Output `n` is found open: `OPEN` is set, and the fault raised once in a lane-ON interval (R286). -/
def auxOpen (n : Nat) (s : State) : State :=
  if lasted s 800000 (auxAt s n).idleSince then
    let s := flag (AUX_STAT_OPEN n) s
    if (auxAt s n).openTold then s else raise 0x0544 (0x40 + n) 0 0 (onAux n (fun x => { x with openTold := true }) s)
  else s

/-- Output `n`, off for 1 ms, has stood above half of V_feed for 1 ms; not tested in STANDBY (R287, pairing R292). -/
def auxBackfeed (n : Nat) (s : State) : State :=
  let rested : Bool := match (auxAt s n).offAt with
    | none => true
    | some t => decide (t + 400000 ≤ s.cyc)
  if driving s ∧ !isSet s (AUX_STAT_ON n) ∧ rested ∧ lasted s 400000 (auxAt s n).backSince then
    raise 0x0545 (0x40 + n) 0 0 (flag (AUX_STAT_BAT n) s)
  else s

/-- Output `n` shuts down above 170 °C (R288). -/
def auxShutdown (n : Nat) (s : State) : State :=
  let left := rd s (AUX_STAT_RETRIES_LEFT n)
  let s := auxSwitchOff n (auxReport n 0x2E s)
  let s := count (AUX_COUNT_THERMAL n) 1 (wrB (AUX_STAT_HOT n) true s)
  let s := onAux n (fun x => { x with thermal := if x.lane then x.thermal + 1 else x.thermal, tripped := true, cleanRun := 0 }) s
  let told : Bool := match (auxAt s n).f0542At with
    | some t => decide (s.cyc < t + secondCycles)
    | none => false
  let s := if told then s
    else raise 0x0542 (0x40 + n) (wd (0x2E * 2 ^ 24 + left * 2 ^ 16)) (actEvent + actOff)
      (onAux n (fun x => { x with f0542At := some s.cyc }) s)
  if (auxAt s n).lane ∧ (auxAt s n).thermal = 9 then
    raise 0x0543 (0x40 + n) (wd (0x2E * 2 ^ 24 + left * 2 ^ 16)) (actOff + actLatch)
      (wr (AUX_STAT_CAUSE n) 2 (flag (AUX_STAT_LATCH n) (onAux n (fun x => { x with latchedAt := none }) s)))
  else s

/-- The junction of output `n` reads `t` = °C + 64. -/
def auxThermal (n t : Nat) (s : State) : State :=
  let s := wr (AUX_STAT_TEMP n) t s
  if 234 < t ∧ !isSet s (AUX_STAT_HOT n) then auxShutdown n s
  else if t < 214 ∧ isSet s (AUX_STAT_HOT n) then auxEnergise n (wrB (AUX_STAT_HOT n) false s)
  else s

/-! ### Latches (R284) -/

/-- The retry interval of output `n` ends. -/
def retryAux (n : Nat) (s : State) : State :=
  match (auxAt s n).latchedAt with
  | some t =>
    if isSet s (AUX_STAT_LATCH n) ∧ t + retryCycles (auxField s n (AUX_CFG_RETRY_INT n)) ≤ s.cyc then
      let s := onAux n (fun x => { x with latchedAt := none }) s
      let s := wrB (AUX_STAT_LATCH n) false (wr (AUX_STAT_RETRIES_LEFT n) (rd s (AUX_STAT_RETRIES_LEFT n) - 1) s)
      auxEnergise n s
    else s
  | none => s

/-- The latch of output `n` is cleared by command: released, its retries restored. -/
def clearAux (n : Nat) (s : State) : State :=
  let s := onAux n (fun x => { x with latchedAt := none, cleanRun := 0 }) s
  let s := wr (AUX_STAT_RETRIES_LEFT n) (auxField s n (AUX_CFG_RETRY_N n)) (wrB (AUX_STAT_LATCH n) false s)
  auxEnergise n (wr (AUX_STAT_CAUSE n) 0 s)

/-- PF0 writes `x` to `AUX_STAT_n`: its W1C flags clear, and a 0 in `LATCH` clears the latch unless the
hardware set it in this cycle (R284, R289). -/
def auxStatWrite (n : Nat) (x : Word) (s : State) : State :=
  let s := swField (AUX_STAT_OPEN n) (bits x 8 8) (swField (AUX_STAT_BAT n) (bits x 9 9) s)
  if bits x 0 0 = 1 ∨ (Tbl.find s.hw (AUX_STAT_LATCH n).key).isSome ∨ !isSet s (AUX_STAT_LATCH n) then s else clearAux n s

/-! ### Enables and commands (R278, R289) -/

/-- `AUX_EN` takes effect: an output whose bit falls switches off at once, one whose bit rises under a lane that is ON energises
(R278). (log entry 63, DEDUCED) -/
def auxEnable (x : Nat) (s : State) : State :=
  let s := wr AUX_EN_EN x s
  (List.range 16).foldl (fun s n =>
    if bitOf x n then auxEnergise n s
    else if isSet s (AUX_STAT_ON n) || isSet s (AUX_STAT_WAITING n) then auxSwitchOff n s
    else s) s

/-- The fields of an `AUX_CFG` word lie in their ranges. -/
def auxCfgOk (x : Word) : Bool :=
  let t := bits x 30 25
  let lim := bits x 24 20
  let i2t := bits x 19 12
  let cur := bits x 11 8
  decide (1 ≤ t) && decide (t ≤ 60) && decide (5 ≤ lim) && decide (lim ≤ 15) && decide (1 ≤ i2t) && decide (i2t ≤ 216) &&
    decide (2 ≤ cur) && decide (cur ≤ 9)

/-- PF0 writes `x` to `AUX_CFG_n`: discarded with `CFG_REJ` when a field lies outside its range (R289). -/
def auxCfgWrite (n : Nat) (x : Word) (s : State) : State :=
  if auxCfgOk x then swWrite (AUX_CFG n) (globalFields (AUX_CFG n)) x s else flag AUX_STATUS_CFG_REJ s

/-- `AUX_CONFIG (0x0170)`. -/
def auxConfig (m : Msg) (s : State) : State :=
  let n := (word m 0).toNat
  if 16 ≤ n then respond 0x0170 m 7 0 [] s
  else if !owns s m.client (36 + n) then refuse 0x0170 m 3 s
  else if !auxCfgOk (word m 1) ∨ word m 1 &&& 7 ≠ 0 then respond 0x0170 m 0x0170 1 [] s
  else if word m 2 &&& 0xFFFFFFC0 ≠ 0 then respond 0x0170 m 0x0170 2 [] s
  else ok 0x0170 m (commits [AUX_CFG n, AUX_OPEN n] (swWrite (AUX_OPEN n) (globalFields (AUX_OPEN n)) (word m 2)
    (swWrite (AUX_CFG n) (globalFields (AUX_CFG n)) (word m 1) s)))

/-- `AUX_CONFIG`: writes the configuration of an auxiliary output. -/
def execAuxConfig (m : Msg) (s : State) : Host.Outcome State Fault Refusal := command 0x0170 m (auxConfig m) s

/-- The outputs that `mask` names, cleared or refused one by one: their statuses, and the state. -/
def clearAuxItems (m : Msg) (mask : Nat) (s : State) : Tbl Nat × State :=
  (List.range 16).foldl (fun (a : Tbl Nat × State) n =>
    if !bitOf mask n then a
    else if !isSafety s m.client && !owns s m.client (36 + n) then (Tbl.insert a.1 n 3, a.2)
    else (Tbl.insert a.1 n 0, clearAux n a.2)) ([], s)

/-- `AUX_CLEAR (0x0171)`. -/
def auxClear (m : Msg) (s : State) : State :=
  match reservedBad m [0x0000FFFF] with
  | some i => respond 0x0171 m 7 i [] s
  | none =>
    let r := clearAuxItems m (word m 0).toNat s
    respond 0x0171 m 0 0 (itemsOf 16 r.1) r.2

/-- `AUX_CLEAR`: clears latches of auxiliary outputs. -/
def execAuxClear (m : Msg) (s : State) : Host.Outcome State Fault Refusal := command 0x0171 m (auxClear m) s

/-- `AUX_QUERY (0x0172)`. -/
def auxQuery (m : Msg) (s : State) : State :=
  let n := (word m 0).toNat
  if 16 ≤ n then respond 0x0172 m 7 0 [] s
  else respond 0x0172 m 0 0 ([AUX_STAT n, AUX_COUNT n, AUX_FEED].map (fun o => wordNow s (globalFields o))) s

/-- `AUX_QUERY`: reads an auxiliary output. -/
def execAuxQuery (m : Msg) (s : State) : Host.Outcome State Fault Refusal := command 0x0172 m (auxQuery m) s

end Sys2Proof.Machine
end

