-- ==== Sys2Proof/Machine/Acq.lean ====
section
/-! DEFINITION. Analogue acquisition: conversion lists, triggers, converters, sample memory, knock windows and the reference
(acquisition R316 to R331, R339). -/
namespace Sys2Proof.Machine

/-- An event pulses interrupt source `k`: an edge stays pending, a level leaves nothing (DMA R419). -/
def intPulse (k : Nat) (s : State) : State := intFall k (intRaise k s)

/-! ### Lists -/

/-- Acquisition list `l`. -/
def acqList (s : State) (l : Nat) : AcqList := Tbl.get {} s.acq.lists l

/-- Acquisition list `l` changed by `f`. -/
def onList (l : Nat) (f : AcqList → AcqList) (s : State) : State :=
  { s with acq := { s.acq with lists := Tbl.set {} s.acq.lists l (f (acqList s l)) } }

/-- List `l` is loaded. -/
def acqLoaded (s : State) (l : Nat) : Bool := (acqList s l).owner.isSome

/-- List `l` is running. -/
def acqRunning (s : State) (l : Nat) : Bool := bitOf (rd s ACQ_RUN_RUNNING) l

/-- List `l` shows running or stopped. -/
def setRunning (l : Nat) (b : Bool) (s : State) : State := wr ACQ_RUN_RUNNING (setBit (rd s ACQ_RUN_RUNNING) l b) s

/-- List `l` stops. -/
def acqStop (l : Nat) (s : State) : State :=
  setRunning l false (onList l (fun x => { x with target := none, idx := 0, stopping := false, knock := none }) s)

/-- The power domain of converter `k` is on (architecture Table 1-8: domains 68 to 71). -/
def convPowered (s : State) (k : Nat) : Bool := Tbl.get Domain.on s.power.domains (68 + k) == .on

/-- The converter that serves input `n` (Table 11-1). -/
def convOfInput (n : Nat) : Nat := if n < 24 then n / 6 else if n < 32 then (n - 24) / 2 else (n - 32) / 4

/-! ### Sample memory (R326, R327) -/

/-- The byte at address `a` of the sample memory. (log entry 5, DESIGN CHOICE) -/
def sampleByte (s : State) (a : Nat) : Byte := Tbl.get 0 s.acq.sample a

/-- Store a byte in the sample memory. -/
def setSample (a : Nat) (b : Byte) (s : State) : State :=
  { s with acq := { s.acq with sample := Tbl.set 0 s.acq.sample a b } }

/-- Buffer length of list `x` in bytes. -/
def AcqList.bytes (x : AcqList) : Nat := 1024 * x.length

/-- Address in sample memory of byte `off` of the buffer of list `x`. -/
def AcqList.addr (x : AcqList) (off : Nat) : Nat := 1024 * x.base + off % x.bytes

/-- Store the 16-bit word `v` at offset `off` of the buffer of list `l`, little-endian. -/
def setWord16 (l off v : Nat) (s : State) : State :=
  let x := acqList s l
  setSample (x.addr (off + 1)) (BitVec.ofNat 8 (v / 256)) (setSample (x.addr off) (BitVec.ofNat 8 v) s)

/-- Store the 32-bit word `v` at offset `off` of the buffer of list `l`. -/
def setWord32 (l off v : Nat) (s : State) : State := setWord16 l (off + 2) (v / 65536) (setWord16 l off v s)

/-- The list's buffer has room for `n` bytes: (RP − WP − 2) modulo `LENGTH` (R326). -/
def spaceFits (s : State) (l n : Nat) : Bool :=
  let size := (acqList s l).bytes
  decide (n ≤ (rd s (ACQ_RP_RP l) + 2 * size - rd s (ACQ_WP_WP l) - 2) % size)

/-- The acquisition interrupt of list `l`: its source, and vector 5 of its owner (R327, host link Table 13-6b). -/
def acqInterrupt (l : Nat) (s : State) : State :=
  let s := intPulse (276 + l) s
  match (acqList s l).owner with
  | some c => vector c 5 s
  | none => s

/-- Reserve `n` bytes at the write pointer of list `l`, which moves on; the interrupt is raised past the middle and at the wrap
(R326, R327). Answers the offset reserved. -/
def reserveSpace (l n : Nat) (s : State) : Nat × State :=
  let size := (acqList s l).bytes
  let wp := rd s (ACQ_WP_WP l)
  let s := wr (ACQ_WP_RUNS l) ((rd s (ACQ_WP_RUNS l) + 1) % 4096) (wr (ACQ_WP_WP l) ((wp + n) % size) s)
  let s := if wp < size / 2 ∧ size / 2 ≤ wp + n then acqInterrupt l s else s
  (wp, if size ≤ wp + n then acqInterrupt l s else s)

/-- The run or record of list `l` does not fit (R326). (log entry 71, DEDUCED) -/
def acqOverflow (l : Nat) (s : State) : State :=
  let s := count (ACQ_CNT_LOST l) (acqList s l).entries.length s
  let s := wr ACQ_OVF_OVF (setBit (rd s ACQ_OVF_OVF) l true) s
  let s := { s with hw := Tbl.insert s.hw ACQ_OVF_OVF.key (setBit (Tbl.get 0 s.hw ACQ_OVF_OVF.key) l true) }
  raisePerCycle 0x0702 l (0xA0 + l) 0 0 s

/-- Store one run of lost-sample words for list `l`, or overflow; `counts` tells that they count in `LOST`. (log entry 71, DEDUCED) -/
def storeLost (l : Nat) (counts : Bool) (s : State) : State :=
  let n := (acqList s l).entries.length
  if spaceFits s l (2 * n) then
    let s := if counts then count (ACQ_CNT_LOST l) n s else s
    let (off, s) := reserveSpace l (2 * n) s
    (List.range n).foldl (fun s j => setWord16 l (off + 2 * j) 0xFFFF s) s
  else acqOverflow l s

/-! ### Converters (R323) -/

/-- The conversion that converter `k` has begun or is about to begin. -/
def convOf (s : State) (k : Nat) : Option Conv := Tbl.get none s.acq.convs k

/-- Converter `k` works on `x`. -/
def setConv (k : Nat) (x : Option Conv) (s : State) : State :=
  { s with acq := { s.acq with convs := Tbl.set none s.acq.convs k x } }

/-- The urgent request pending on converter `k`. -/
def urgentOf (s : State) (k : Nat) : Option Urgent := Tbl.get none s.acq.urgent k

/-- The request of the urgent conversion under way on converter `k`, once a newer one has followed it. -/
def urgentBegun (s : State) (k : Nat) : Option Urgent := Tbl.get none s.acq.begun k

/-- An urgent request pends on converter `k`, or begins in this cycle (R325). (log entry 72, DEDUCED) -/
def urgentPending (s : State) (k : Nat) : Bool :=
  (urgentOf s k).isSome && ((urgentBegun s k).isSome || match convOf s k with
    | some ⟨none, start⟩ => decide (s.cyc ≤ start)
    | _ => true)

/-- The converters work on the requests `urgent`, and on `begun` that newer ones have followed. -/
def setUrgent (k : Nat) (urgent begun : Option Urgent) (s : State) : State :=
  { s with acq := { s.acq with urgent := Tbl.set none s.acq.urgent k urgent, begun := Tbl.set none s.acq.begun k begun } }

/-- The pending entry of converter `k` with the earliest nominal start, the lower list on a tie. -/
def earliest (s : State) (k : Nat) : Option AcqEntry :=
  s.acq.pend.foldl (fun b e =>
    if (acqList s e.list).conv ≠ k then b
    else match b with
      | none => some e
      | some a => if e.nominal < a.nominal ∨ (e.nominal = a.nominal ∧ e.list < a.list) then some e else some a) none

/-- Remove the first occurrence of an entry. -/
def dropEntry (e : AcqEntry) : List AcqEntry → List AcqEntry
  | [] => []
  | x :: xs => if x = e then xs else x :: dropEntry e xs

/-- At a conversion boundary `at_`, converter `k` takes the urgent request, else the earliest pending entry. A choice for a
boundary still to come is made again (R323, R330). -/
def convChoose (k at_ : Nat) (s : State) : State :=
  let busy : Bool := match convOf s k with
    | some c => decide (c.start ≤ s.cyc)
    | none => false
  if busy then s
  else
    let s := match convOf s k with
      | some c => match c.entry with
        | some e => { s with acq := { s.acq with pend := e :: s.acq.pend } }
        | none => s
      | none => s
    let s := setConv k none s
    if !isSet s ACQ_REF_SETTLED ∨ !convPowered s k then s
    else if (urgentOf s k).isSome then setConv k (some ⟨none, at_⟩) s
    else match earliest s k with
      | some e => setConv k (some ⟨some e, at_⟩) { s with acq := { s.acq with pend := dropEntry e s.acq.pend } }
      | none => s

/-- Something became pending on converter `k` in this cycle: an idle converter begins in the next. -/
def convKick (k : Nat) (s : State) : State := convChoose k (s.cyc + 1) s

/-- The result code for `vin` and the reference `vref`, both in µV (R317). -/
def convResult (vin vref : Nat) : Nat := min 0xFFFE (roundDiv (vin * 65536 : Nat) (2 * vref)).toNat

/-- A completed knock sample enters the window's sum (R328). (log entry 71, DEDUCED) -/
def knockSample (l x : Nat) (s : State) : State :=
  onList l (fun y =>
    { y with knock := y.knock.map (fun k =>
      let d : Int := (x : Int) - y.bias
      { k with
        sum := (k.sum + (d * d).toNat) % 2 ^ 48, samples := k.samples + 1
        saturated := k.saturated || x == 0 || x == 0xFFFE }) }) s

/-- The conversion of converter `k` completes with `vin` under `vref`; the next begins (R317, R323, R325, R326). (log entry 72, DEDUCED) -/
def conversionDone (k vin vref : Nat) (s : State) : State :=
  match convOf s k with
  | none => s
  | some c =>
    if s.cyc < c.start + 100 then s
    else
      let x := convResult vin (if rd s ACQ_REF_SEL = 0 then 2500000 else vref)
      let s := setConv k none s
      let s := match c.entry with
        | some e =>
          let late := c.start - e.nominal
          let s := maxTo (ACQ_LMAX_MAX_LATE e.list) late (if late = 0 then s else count (ACQ_CNT_LATE e.list) 1 s)
          (match e.addr with
          | some a => setWord16 e.list a x s
          | none => knockSample e.list x s)
        | none =>
          let old := urgentBegun s k
          let u := if old.isSome then old else urgentOf s k
          let s := if old.isSome then setUrgent k (urgentOf s k) none s else wrB (ACQ_URG_GO k) false (setUrgent k none none s)
          let s := wr (ACQ_URG_RESULT k) x (wrB (ACQ_URG_DONE k) true s)
          (match u.bind Urgent.cmd with
          | some m => respond 0x0192 m 0 0 [wd x] s
          | none => s)
      convChoose k s.cyc s

/-! ### Triggers (R320 to R324, R330) -/

/-- `F_0700`, at most once per second. -/
def acqUnsettled (s : State) : State :=
  let told : Bool := match s.acq.f0700At with
    | some t => decide (s.cyc < t + secondCycles)
    | none => false
  if told then s else raise 0x0700 0xC4 0 0 { s with acq := { s.acq with f0700At := some s.cyc } }

/-- A knock sample of list `l` is lost. -/
def knockLost (l : Nat) (s : State) : State :=
  onList l (fun y => { y with knock := y.knock.map (fun k => { k with lost := true }) }) (count (ACQ_CNT_LOST l) 1 s)

/-- An entry of a run of list `l` pends: no converter has begun it (R324). -/
def acqPends (s : State) (l : Nat) : Bool :=
  s.acq.pend.any (fun e => e.list == l) || match convOf s (acqList s l).conv with
    | some ⟨some e, start⟩ => e.list == l && decide (s.cyc < start)
    | _ => false

/-- List `l` triggers: every entry of its run becomes pending, unless its previous run still pends, the reference is not settled,
or the run does not fit. -/
def acqTrigger (l : Nat) (s : State) : State :=
  let x := acqList s l
  let lost := if x.kind = 3 then knockLost l else storeLost l true
  if !isSet s ACQ_REF_SETTLED then lost (acqUnsettled s)
  else if acqPends s l then raisePerCycle 0x0701 l (0xA0 + l) 0 0 (lost s)
  else if x.kind = 3 then
    convKick x.conv { s with acq := { s.acq with pend :=
      s.acq.pend ++ [⟨l, x.entries.headD 0, s.cyc + 1, none⟩] } }
  else if spaceFits s l (2 * x.entries.length) then
    let (off, s) := reserveSpace l (2 * x.entries.length) s
    let run := x.entries.zipIdx.map (fun (n, j) => (⟨l, n, s.cyc + 1 + 100 * j, some (off + 2 * j)⟩ : AcqEntry))
    convKick x.conv { s with acq := { s.acq with pend := s.acq.pend ++ run } }
  else acqOverflow l s

/-- Whole links of the chain, not wrapped. -/
def chainLinks (s : State) : Int := chainNow s / unit

/-- The next position beyond the chain, not wrapped, that is angle `a`. -/
def nextCrossing (s : State) (a : Nat) : Int :=
  let c := chainLinks s
  c + 1 + ((a : Int) - c - 1) % turn

/-- A0 of list `x` (R82). -/
def listAngle (s : State) (x : AcqList) : Nat := ofSigned 24 ((s.angle.stations.getD x.station 0 : Int) + x.offset)

/-- The conditions of R320 hold for list `x`: PHASED, FORWARD, and no cam limp unless allowed. -/
def acqLive (s : State) (x : AcqList) : Bool := phased s && !reversed s && (x.limpOk || !limping s)

/-- Position of trigger `i` of list `x` whose cycle begins at `t`. -/
def triggerAt (x : AcqList) (t : Int) (i : Nat) : Int := t + (i * x.step / 256 : Nat)

/-- Trigger every angle of list `l` that the chain has reached, in order, at most `n` of them (R320). -/
def angleTriggers (l : Nat) : Nat → State → State
  | 0, s => s
  | n + 1, s =>
    let x := acqList s l
    match x.target with
    | none => s
    | some t =>
      if triggerAt x t x.idx ≤ chainLinks s then
        let s := acqTrigger l s
        if x.idx + 1 < x.steps then angleTriggers l n (onList l (fun y => { y with idx := x.idx + 1 }) s)
        else if x.stopping then acqStop l s
        else angleTriggers l n (onList l (fun y => { y with idx := 0, target := some (t + turn) }) s)
      else s

/-- Trigger line `k` rises: every running LINE list on it triggers (R321). -/
def acqLine (k : Nat) (s : State) : State :=
  (List.range 32).foldl (fun s l =>
    let x := acqList s l
    if acqRunning s l ∧ x.kind = 2 ∧ x.line = k ∧ x.from_ ≤ s.cyc then acqTrigger l s else s) s

/-! ### Knock windows (R328) -/

/-- Write the record of the window `k` of list `l` (Table 11-4). -/
def knockRecord (l : Nat) (k : Knock) (abandoned : Bool) (s : State) : State :=
  match k.addr with
  | none => s
  | some a =>
    let flags := k.saturated.toNat * 4 + k.lost.toNat * 2 + abandoned.toNat
    [k.sum % 2 ^ 32, k.samples % 65536 * 65536 + k.sum / 2 ^ 32, k.cycle, l * 256 + flags].zipIdx.foldl (fun s (v, i) =>
      setWord32 l (a + 4 * i) v s) s

/-- The window of list `l` closes; a list that is stopping stops. -/
def knockClose (l : Nat) (abandoned : Bool) (s : State) : State :=
  let x := acqList s l
  match x.knock with
  | none => s
  | some k =>
    let s := onList l (fun y => { y with knock := none, target := x.target.map (fun t => t + turn) })
      (knockRecord l k abandoned s)
    if x.stopping then acqStop l s else s

/-- Trigger the entry of list `l` now and set its next time. -/
def knockTrigger (l : Nat) (s : State) : State :=
  acqTrigger l (onList l (fun y =>
    { y with knock := y.knock.map (fun k => { k with next := k.next + 100 * y.kper }) }) s)

/-- The chain reaches A0 of KNOCK list `l`: its window opens and its entry triggers. -/
def knockOpen (l : Nat) (s : State) : State :=
  let x := acqList s l
  match x.target with
  | none => s
  | some t =>
    if !acqRunning s l ∨ x.kind ≠ 3 ∨ !acqLive s x ∨ x.knock.isSome ∨ chainLinks s < t then s
    else
      let (addr, s) := if spaceFits s l 16 then
          let (off, s) := reserveSpace l 16 s
          (some off, s)
        else (none, acqOverflow l s)
      knockTrigger l (onList l (fun y =>
        { y with knock := some { addr, cycle := rd s SEQ_CYCLE_CYCLE, next := s.cyc, close := t + x.width } }) s)

/-! ### Losing and regaining the conditions (R322) -/

/-- The record of list `l` for the cycle in hand is filled with lost-sample words, and the list waits. -/
def acqBreak (l : Nat) (s : State) : State :=
  let x := acqList s l
  if x.kind = 3 then onList l (fun y => { y with target := none }) (knockClose l true s)
  else
    let missing := if x.idx = 0 then 0 else x.steps - x.idx
    let s := (List.range missing).foldl (fun s _ => storeLost l false s) s
    if x.stopping then acqStop l s else onList l (fun y => { y with target := none, idx := 0 }) s

/-- Sync state, direction or limp may have changed: lists whose conditions no longer hold break off, and those whose conditions
hold again wait for A0 (R320, R322). -/
def acqConditions (s : State) : State :=
  (List.range 32).foldl (fun s l =>
    let x := acqList s l
    if !acqRunning s l ∨ (x.kind ≠ 0 ∧ x.kind ≠ 3) then s
    else if acqLive s x then
      if x.target.isNone then onList l (fun y => { y with target := some (nextCrossing s (listAngle s x)), idx := 0 }) s else s
    else if x.target.isSome then acqBreak l s
    else s) s

/-! ### The reference (R329 to R331) -/

/-- Every idle converter looks for work. -/
def convAll (s : State) : State := (List.range 4).foldl (fun s k => convKick k s) s

/-- How long the selected reference settles, in cycles. -/
def settleTime (s : State) : Nat :=
  match rd s ACQ_REF_SEL with
  | 0 => 800000
  | 1 => 200000
  | _ => 40000

/-- The settling time is over: `SETTLED` is set. -/
def refSettled (s : State) : State :=
  if isSet s ACQ_REF_SETTLED ∨ Tbl.get Domain.on s.power.domains 72 ≠ .on ∨ s.cyc < s.acq.refAt + settleTime s ∨ (rd s ACQ_REF_SEL = 1 ∧ !s.acq.extOk) then s
  else convAll (wrB ACQ_REF_SETTLED true s)

/-- The urgent request of converter `k` ends without a conversion; `status` answers its command. -/
def urgentError (k status : Nat) (s : State) : State :=
  match urgentOf s k with
  | none => s
  | some u =>
    let s := setUrgent k none (urgentBegun s k) s
    let s := wrB (ACQ_URG_ERR k) true (wrB (ACQ_URG_GO k) false s)
    match u.cmd with
    | some m => refuse 0x0192 m status s
    | none => s

/-- Every urgent request of converter `k` ends without a result, one under way included. -/
def urgentErrorAll (k status : Nat) (s : State) : State :=
  let s := urgentError k status s
  match urgentBegun s k with
  | some u => urgentError k status (setUrgent k (some u) none s)
  | none => s

/-- An urgent request of converter `k` that waits for its conversion. -/
def urgentWaits (s : State) (k : Nat) : Bool :=
  (urgentOf s k).isSome && ((urgentBegun s k).isSome || match convOf s k with
    | some ⟨none, _⟩ => false
    | _ => true)

/-- The request of converter `k` that waits ends, for its conversion is due while the reference is not settled (R330). (log entry 119, DEDUCED) -/
def urgentUnsettled (k : Nat) (s : State) : State := if urgentWaits s k then urgentError k 0x0194 (acqUnsettled s) else s

/-- A conversion of converter `k` that has not begun is put back; an urgent request that has not begun ends with `ERR`. -/
def convHold (k : Nat) (s : State) : State :=
  urgentUnsettled k <| match convOf s k with
    | some c =>
      if s.cyc < c.start then
        let s := setConv k none s
        (match c.entry with
        | some e => { s with acq := { s.acq with pend := e :: s.acq.pend } }
        | none => s)
      else s
    | none => s

/-- The reference is no longer settled. (log entry 72, DEDUCED) -/
def refUnsettle (s : State) : State :=
  let s := wrB ACQ_REF_SETTLED false { s with acq := { s.acq with refAt := s.cyc } }
  (List.range 4).foldl (fun s k => convHold k s) s

/-- A change of the selection must wait: a list runs or an urgent request pends (R329). -/
def refBusy (s : State) : Bool := rd s ACQ_RUN_RUNNING != 0 || (List.range 4).any (fun k => urgentPending s k)

/-- The reference selection becomes `x`, and settles anew on a change. -/
def refSelect (x : Nat) (s : State) : State :=
  if rd s ACQ_REF_SEL = x then s else refUnsettle (wr ACQ_REF_SEL x s)

/-- PF0 writes `x` to `ACQ_REF`. -/
def refWrite (x : Word) (s : State) : State :=
  let sel := bits x 1 0
  if sel = 3 ∨ (sel ≠ rd s ACQ_REF_SEL ∧ refBusy s) then flag ACQ_REF_CFG_REJ s
  else refSelect sel (swField ACQ_REF_CFG_REJ (bits x 15 15) s)

/-- `ACQ_REF_SET (0x0193)`. -/
def acqRefSet (m : Msg) (s : State) : State :=
  let sel := (word m 0).toNat
  if 3 ≤ sel then respond 0x0193 m 0x0190 0 [] s
  else if sel ≠ rd s ACQ_REF_SEL ∧ refBusy s then refuse 0x0193 m 0x0192 s
  else ok 0x0193 m (commits [ACQ_REF] (refSelect sel s))

/-- `ACQ_REF_SET`: selects the acquisition reference. -/
def execAcqRefSet (m : Msg) (s : State) : Host.Outcome State Fault Refusal := command 0x0193 m (acqRefSet m) s

/-- The power domain of converter `k` is switched off: its running lists stop with `F_0703` (R331). -/
def acqDomainOff (k : Nat) (s : State) : State :=
  let s := (List.range 32).foldl (fun s l =>
    if acqRunning s l ∧ (acqList s l).conv = k then raise 0x0703 (0xA0 + l) 0 actHalt (acqStop l s) else s) s
  let s := { s with acq := { s.acq with pend := s.acq.pend.filter (fun e => (acqList s e.list).conv != k) } }
  setConv k none (urgentErrorAll k 9 s)

/-! ### Urgent conversions (R325) -/

/-- Request an urgent conversion of input `n` on converter `k`. (log entry 119, DEDUCED) -/
def urgentAsk (k n : Nat) (cmd : Option Msg) (s : State) : State :=
  let s := wrB (ACQ_URG_DONE k) false (wrB (ACQ_URG_ERR k) false s)
  let s := setUrgent k (some ⟨n, cmd⟩) (if (urgentBegun s k).isSome then urgentBegun s k else urgentOf s k) s
  if 48 ≤ n ∨ convOfInput n ≠ k then urgentError k 0x0190 s
  else if !isSet s ACQ_REF_SETTLED then urgentError k 0x0194 (acqUnsettled s)
  else if !convPowered s k then urgentError k 9 s
  else convKick k (wrB (ACQ_URG_GO k) true s)

/-- PF0 writes `x` to `ACQ_URG_k`. -/
def urgWrite (k : Nat) (x : Word) (s : State) : State :=
  let s := swField (ACQ_URG_REJ k) (bits x 28 28) (swField (ACQ_URG_INPUT k) (bits x 21 16) s)
  if bits x 31 31 = 0 then s
  else if urgentPending s k then flag (ACQ_URG_REJ k) s
  else urgentAsk k (bits x 21 16) none s

/-- `ACQ_URGENT (0x0192)`. (log entry 119, DEDUCED) -/
def acqUrgent (m : Msg) (s : State) : State :=
  let n := (word m 0).toNat
  let k := convOfInput n
  if 48 ≤ n then respond 0x0192 m 0x0190 0 [] s
  else if !isSet s ACQ_REF_SETTLED then refuse 0x0192 m 0x0194 (acqUnsettled s)
  else if !convPowered s k then refuse 0x0192 m 9 s
  else if urgentPending s k then refuse 0x0192 m 0x0192 s
  else urgentAsk k n (some m) (wr (ACQ_URG_INPUT k) n s)

/-- `ACQ_URGENT`: requests one urgent conversion. -/
def execAcqUrgent (m : Msg) (s : State) : Host.Outcome State Fault Refusal := command 0x0192 m (acqUrgent m) s

/-! ### Loading and starting lists (R318, R319, R339) -/

/-- Byte `i` of a word. -/
def byteOf (x : Word) (i : Nat) : Nat := bits x (8 * i + 7) (8 * i)

/-- The list that the ten words of Table 11-2 describe, for client `c`. -/
def listOf (c : Nat) (m : Msg) : AcqList :=
  let l0 := word m 0
  let n := bits l0 20 16
  let l5 := word m 5
  let kind := bits l0 24 23
  let angular := kind = 0 ∨ kind = 3
  { owner := some c, conv := bits l0 26 25, kind, limpOk := bits l0 22 22 == 1
    entries := ((List.range 4).flatMap (fun k => (List.range 4).map (fun i => byteOf (word m (k + 1)) i))).take n
    station := if angular then bits l5 7 3 else 0
    offset := if angular then signed 24 (bits l5 31 8) else 0
    step := if kind = 0 then (word m 6).toNat else 0
    steps := if kind = 0 then bits (word m 7) 15 0 else 0
    width := if kind = 3 then bits (word m 6) 23 0 else 0
    bias := if kind = 3 then bits (word m 7) 31 16 else 0
    kper := if kind = 3 then bits (word m 7) 7 0 else 0
    line := if kind = 2 then bits l5 3 0 else 0
    first := if kind = 1 then l5.toNat else 0
    period := if kind = 1 then (word m 6).toNat else 0
    base := bits (word m 8) 9 0, length := bits (word m 8) 30 20 }

/-- The entry bytes beyond `COUNT` are 0xFF, and those within it are served by the list's converter. -/
def badEntryWord (x : AcqList) (m : Msg) : Option Nat :=
  ((List.range 16).find? (fun j =>
    let b := byteOf (word m (j / 4 + 1)) (j % 4)
    if j < x.entries.length then decide (48 ≤ b) || convOfInput b != x.conv else b != 0xFF)).map (fun j => j / 4 + 1)

/-- The index of the first word of Table 11-2 that breaks a range of R319. -/
def badListWord (x : AcqList) (m : Msg) : Option Nat :=
  let l0 := word m 0
  let l5 := word m 5
  let l6 := (word m 6).toNat
  let l7 := word m 7
  let n := bits l0 20 16
  if l0 &&& 0x0020FFFF ≠ 0 ∨ n = 0 ∨ 16 < n ∨ (x.kind = 3 ∧ n ≠ 1) then some 0
  else match badEntryWord x m with
    | some i => some i
    | none =>
      if ((x.kind = 0 ∨ x.kind = 3) ∧ bits l5 2 0 ≠ 0) ∨ (x.kind = 2 ∧ l5 &&& 0xFFFFFFF0 ≠ 0) then some 5
      else if (x.kind = 0 ∧ (l6 < 256 ∨ 2 ^ 28 < l6)) ∨ (x.kind = 1 ∧ l6 < 100 * n)
          ∨ (x.kind = 3 ∧ (l6 = 0 ∨ 2 ^ 23 < l6)) ∨ (x.kind = 2 ∧ l6 ≠ 0) then some 6
      else if (x.kind = 0 ∧ (x.steps = 0 ∨ 65536 ≤ l7.toNat ∨ 2 ^ 32 ≤ x.steps * x.step))
          ∨ (x.kind = 3 ∧ (bits l7 15 8 ≠ 0 ∨ x.kper = 0)) ∨ ((x.kind = 1 ∨ x.kind = 2) ∧ l7 ≠ 0) then some 7
      else if word m 8 &&& 0x800FFC00 ≠ 0 ∨ x.length = 0 ∨ 1024 < x.length then some 8
      else if word m 9 ≠ 0 then some 9
      else none

/-- Two buffers overlap, in KiB. -/
def buffersMeet (x y : AcqList) : Bool := decide (x.base < y.base + y.length ∧ y.base < x.base + x.length)

/-- `ACQ_LIST_PUT (0x0190)`: the refusals of Table 11-3, else the list is loaded with its pointers at 0. -/
def acqListPut (m : Msg) (s : State) : State :=
  let l := bits (word m 0) 31 27
  let x := listOf m.client m
  let old := acqList s l
  let angular := decide (x.kind = 0) || decide (x.kind = 3)
  if old.owner.isSome && old.owner != some m.client && !isSafety s m.client then refuse 0x0190 m 3 s
  else if acqRunning s l then refuse 0x0190 m 0x0192 s
  else if angular && (s.angle.wheel.isNone || s.angle.stations.isEmpty) then refuse 0x0190 m 6 s
  else if angular && decide (s.angle.stations.length ≤ x.station) then respond 0x0190 m 0x0136 5 [] s
  else match badListWord x m with
    | some i => respond 0x0190 m 0x0190 i [] s
    | none =>
      if 1024 < x.base + x.length
          ∨ (List.range 32).any (fun k => k != l && acqLoaded s k && buffersMeet x (acqList s k)) then
        respond 0x0190 m 0x0191 8 [] s
      else
        let s := { s with acq := { s.acq with pend := s.acq.pend.filter (fun e => e.list != l) } }
        ok 0x0190 m (wr (ACQ_RP_RP l) 0 (wr (ACQ_WP_WP l) 0 (onList l (fun _ => x) s)))

/-- `ACQ_LIST_PUT`: loads an acquisition list. -/
def execAcqListPut (m : Msg) (s : State) : Host.Outcome State Fault Refusal := command 0x0190 m (acqListPut m) s

/-- The cycle nearest the present whose bits [31:0] are `x` (pulse R169); a cycle before 0 is taken as 0. -/
def nearCycle (s : State) (x : Nat) : Nat :=
  let d := (x + 2 ^ 32 - s.cyc % 2 ^ 32) % 2 ^ 32
  if d < 2 ^ 31 then s.cyc + d else s.cyc + d - 2 ^ 32

/-- The first trigger of a TIME list started now: `FIRST`, or the first of its times that falls after the pace of the start
(R321, R339). -/
def firstTime (s : State) (x : AcqList) : Nat :=
  let f := nearCycle s x.first
  let start := 100 * (s.cyc / 100 + 1)
  if start ≤ f then f else f + (start + 100 - f + x.period - 1) / x.period * x.period

/-- List `l` starts (R339). (log entry 71, DEDUCED) -/
def acqStart (l : Nat) (s : State) : State :=
  if acqRunning s l then s
  else
    let x := acqList s l
    let live := (x.kind == 0 || x.kind == 3) && acqLive s x
    setRunning l true (onList l (fun y =>
      { y with
        next := if x.kind = 1 then firstTime s x else 0, from_ := 100 * (s.cyc / 100 + 1), idx := 0, stopping := false
        knock := none, target := if live then some (nextCrossing s (listAngle s x)) else none }) s)

/-- List `l` is asked to stop (R339). -/
def acqAskStop (l : Nat) (s : State) : State :=
  let x := acqList s l
  if !acqRunning s l then s
  else if (x.kind = 0 ∧ x.idx ≠ 0) ∨ (x.kind = 3 ∧ x.knock.isSome) then onList l (fun y => { y with stopping := true }) s
  else acqStop l s

/-- The refusal of `ACQ_LIST_CTRL` for list `l`, if any. -/
def listRefusal (m : Msg) (l : Nat) (s : State) : Option Nat :=
  let start := bitOf (word m 0).toNat l
  let stop := bitOf (word m 1).toNat l
  let x := acqList s l
  if start && stop then some 0x0190
  else if !start && !stop then none
  else if x.owner.isSome && x.owner != some m.client && !isSafety s m.client then some 3
  else if start && x.owner.isNone then some 0x0193
  else if start && !convPowered s x.conv then some 9
  else none

/-- `ACQ_LIST_CTRL (0x0191)`: every named list is checked first, then all start and stop together (R522). -/
def acqListCtrl (m : Msg) (s : State) : State :=
  match (List.range 32).find? (fun l => (listRefusal m l s).isSome) with
  | some l => respond 0x0191 m ((listRefusal m l s).getD 0) l [] s
  | none =>
    ok 0x0191 m ((List.range 32).foldl (fun s l =>
      if bitOf (word m 0).toNat l then acqStart l s
      else if bitOf (word m 1).toNat l then acqAskStop l s
      else s) s)

/-- `ACQ_LIST_CTRL`: starts and stops acquisition lists. -/
def execAcqListCtrl (m : Msg) (s : State) : Host.Outcome State Fault Refusal := command 0x0191 m (acqListCtrl m) s

/-- `ACQ_STATUS (0x0196)` (Table 19-8). -/
def acqStatus (m : Msg) (s : State) : State :=
  let mons := (List.range 16).map (fun i => MON_STAT i)
  let lists := (List.range 32).flatMap (fun l =>
    if bitOf (word m 0).toNat l then [ACQ_WP l, ACQ_RP l, ACQ_CNT l, ACQ_LMAX l] else [])
  respond 0x0196 m 0 0 (([ACQ_REF, ACQ_RUN, ACQ_OVF] ++ mons ++ lists).map (fun o => wordNow s (globalFields o))) s

/-- `ACQ_STATUS`: reads acquisition and monitor status. -/
def execAcqStatus (m : Msg) (s : State) : Host.Outcome State Fault Refusal := command 0x0196 m (acqStatus m) s

end Sys2Proof.Machine
end

