-- ==== Sys2Proof/Machine/Monitor.lean ====
section
/-! DEFINITION. Window monitors, their self-tests, and the self-tests of the channels' current comparators (acquisition R332 to
R338). -/
namespace Sys2Proof.Machine

/-- Monitor `i` beyond its registers. -/
def monAt (s : State) (i : Nat) : Mon := Tbl.get {} s.acq.mons i

/-- Monitor `i` changed by `f`. -/
def onMon (i : Nat) (f : Mon → Mon) (s : State) : State :=
  { s with acq := { s.acq with mons := Tbl.set {} s.acq.mons i (f (monAt s i)) } }

/-- The input of monitor `i` is inside its window with nothing filtered and no violation standing (R335). -/
def monQuiet (s : State) (i : Nat) : Bool :=
  let x := monAt s i
  x.low.isNone && x.high.isNone && !isSet s (MON_STAT_LOW_VIOL i) && !isSet s (MON_STAT_HIGH_VIOL i)

/-! ### `MON_SELFTEST` in progress -/

/-- Item `i` of the self-test commands that named it is decided; a command with nothing left open is answered. -/
def testDecide (i status : Nat) (s : State) : State :=
  let tests := s.acq.tests.map (fun (m, t, open_, r) =>
    if i ∈ open_ then (m, t, open_.filter (fun j => j != i), Tbl.insert r i status) else (m, t, open_, r))
  let done := tests.filter (fun x => x.2.2.1.isEmpty)
  let s := { s with acq := { s.acq with tests := tests.filter (fun x => !x.2.2.1.isEmpty) } }
  done.foldl (fun s x => respond 0x0195 x.1 0 0 (itemsOf 52 x.2.2.2) s) s

/-! ### Violations (R333) -/

/-- The self-test of monitor `i` ends because its input left the window (R335). -/
def monAbort (i : Nat) (s : State) : State :=
  match (monAt s i).test with
  | none => s
  | some (_, _, was) =>
    let s := onMon i (fun x => { x with test := none }) s
    testDecide i 0x0196 (wrB (MON_STAT_EXCHANGED i) was (wrB (MON_STAT_TESTING i) false s))

/-- The guarding pair of monitor `i` reports its input at code `q`: the filter of each side starts or stops, and a self-test ends
when the input is outside the window. The pair reports whether or not the monitor is enabled. (log entry 117, DEDUCED) -/
def monCrossing (i q : Nat) (s : State) : State :=
  let low := decide (q < rd s (MON_THR_LOW i))
  let high := decide (rd s (MON_THR_HIGH i) < q)
  let s := onMon i (fun x =>
    { x with
      low := if low then some (x.low.getD s.cyc) else none
      high := if high then some (x.high.getD s.cyc) else none }) s
  if low || high then monAbort i s else s

/-- Monitor `i` declares a violation on its high or low side. (log entry 117, DEDUCED) -/
def monViolation (i : Nat) (high : Bool) (s : State) : State :=
  let f := if high then MON_STAT_HIGH_VIOL i else MON_STAT_LOW_VIOL i
  let since := if high then (monAt s i).high else (monAt s i).low
  match since with
  | none => s
  | some t =>
    if isSet s f ∨ !isSet s (MON_CTL_ENABLE i) ∨ s.cyc < t + max 1 (400 * rd s (MON_CTL_FILTER i)) then s
    else
      let s := count (MON_STAT_VIOLATIONS i) 1 (wrB f true s)
      vector 0 7 (intRaise (354 + i) (raise 0x0710 (0x80 + i) 0 0 s))

/-- The input of monitor `i` has returned to code `q`: a violation 8 codes inside its threshold clears. -/
def monRecover (i q : Nat) (s : State) : State :=
  let s := monCrossing i q s
  let s := if rd s (MON_THR_LOW i) + 8 ≤ q then wrB (MON_STAT_LOW_VIOL i) false s else s
  let s := if q + 8 ≤ rd s (MON_THR_HIGH i) then wrB (MON_STAT_HIGH_VIOL i) false s else s
  if isSet s (MON_STAT_LOW_VIOL i) ∨ isSet s (MON_STAT_HIGH_VIOL i) then s else intFall (354 + i) s

/-! ### Self-test of a monitor (R334 to R336) -/

/-- The self-test of monitor `i` begins. -/
def monTestBegin (i : Nat) (s : State) : State :=
  let was := isSet s (MON_STAT_EXCHANGED i)
  wrB (MON_STAT_TESTING i) true (onMon i (fun x => { x with test := some (0, s.cyc, was) }) s)

/-- The automatic test of monitor `i` is due; a swap of firmware keeps it back (start-up Table 15-6). (log entry 127, DEDUCED) -/
def monAuto (i : Nat) (s : State) : State :=
  let x := monAt s i
  let due : Bool := match x.auto with
    | some t => decide (t + secondCycles ≤ s.cyc)
    | none => true
  if !isSet s (MON_CTL_AUTO i) ∨ !due ∨ s.boot.swap.isSome then s
  else
    let s := onMon i (fun y => { y with auto := some s.cyc }) s
    if !monQuiet s i then count (MON_STAT_AUTO_SKIPS i) 1 s
    else if x.test.isSome then s
    else monTestBegin i s

/-- The outputs of a comparator pair: the input stands above its low threshold, and above its high threshold. (log entry 118, DEDUCED) -/
def guardOutputs (s : State) (i : Nat) : Bool × Bool := ((monAt s i).low.isNone, (monAt s i).high.isSome)

/-- The outputs that step `k` of Table 11-7 expects of the pair under test, where the pair that it is compared with shows `guard`: both
below, both above, the inverse, the same; the second half repeats the four steps. (log entry 118, DEDUCED) -/
def stepOutputs (k : Nat) (guard : Bool × Bool) : Bool × Bool :=
  match k % 4 with
  | 0 => (false, false)
  | 1 => (true, true)
  | 2 => (!guard.1, !guard.2)
  | _ => guard

/-- A 5 µs step of the test of monitor `i` ends, in which the pair under test shows `outs` (R334). -/
def monStep (i : Nat) (outs : Bool × Bool) (s : State) : State :=
  match (monAt s i).test with
  | none => s
  | some (k, t, was) =>
    if s.cyc < t + 2000 then s
    else if outs ≠ stepOutputs k (guardOutputs s i) then
      let s := onMon i (fun x => { x with test := none }) s
      let s := wr (MON_STAT_FAIL_STEP i) (k + 1) (flag (MON_STAT_TEST_FAIL i) (wrB (MON_STAT_TESTING i) false s))
      testDecide i 0x0197 (raise 0x0711 (0x80 + i) 0 actReduced s)
    else if k < 7 then
      let s := onMon i (fun x => { x with test := some (k + 1, s.cyc, was) }) s
      if k = 3 then wrB (MON_STAT_EXCHANGED i) true s else s
    else
      let s := onMon i (fun x => { x with test := none }) s
      testDecide i 0 (wrB (MON_STAT_EXCHANGED i) false (wrB (MON_STAT_TESTING i) false s))

/-! ### Self-test of a channel's comparators (R337, R338) -/

/-- Channel `c` may be tested: idle, with no calibration and no off-state test on it or its pair. -/
def cmpReady (s : State) (c : Nat) : Bool :=
  (members s c).all (fun m => calIdle s m && (chan s m).test.isNone && !(chan s m).selfTest && match (chan s m).cal with
    | .running _ _ => false
    | _ => true)

/-- The comparator test of channel `c` begins. -/
def cmpBegin (c : Nat) (s : State) : State :=
  onChan c (fun x => { x with selfTest := true })
    { s with acq := { s.acq with chanTests := Tbl.insert s.acq.chanTests c (0, s.cyc) } }

/-- The comparator test of channel `c` fails: the channel and its pair or bank are latched with reason `CMP_TEST`. (log entry 58, DEDUCED) -/
def cmpFail (c : Nat) (s : State) : State :=
  let hit := if c < 28 then members s c else bankOf c
  let ran := hit.any (energised s)
  let s := hit.foldl (fun s m =>
    let s := flag (PRT_STAT_LATCH m) (wr (PRT_STAT_CAUSE m) 15 (tripMember m 0x2F 3 s))
    onChan m (fun x => { x with latchedAt := none, cleanRun := 0 }) s) s
  raise 0x0712 c (wd (0x2F * 2 ^ 24 + rd s (PRT_STAT_RETRIES_LEFT c) * 2 ^ 16))
    (actLatch + if ran then actEvent + actOff else 0) s

/-- Cycle of the oldest command whose item `i` is open. -/
def askedAt (s : State) (i : Nat) : Option Nat := (s.acq.tests.find? (fun x => x.2.2.1.contains i)).map (fun x => x.2.1)

/-- The second member of the pair of channel `e` is to be tested next, the first having passed, or not (R337). -/
def cmpSecond (e : Nat) (b : Bool) (s : State) : State :=
  { s with acq := { s.acq with second := s.acq.second.filter (fun x => x != e) ++ if b then [e] else [] } }

/-- A deferred comparator test of the pair of channel `e`, of the member whose turn it is, begins, or is refused at the limit of R222. -/
def cmpRetry (e : Nat) (s : State) : State :=
  match askedAt s (16 + e) with
  | none => s
  | some t =>
    if cmpReady s e then cmpBegin (if e ∈ s.acq.second then e + 1 else e) s
    else if t + calLimit s ≤ s.cyc then testDecide (16 + e) 0x0165 (cmpSecond e false s)
    else s

/-- A 5 µs step of the comparator test of channel `c` ends, in which its pair shows `outs`, or a deferred test is tried again. The pair of
an idle channel shows both below in its normal connection. (log entry 118, DEDUCED) -/
def cmpStep (c : Nat) (outs : Bool × Bool) (s : State) : State :=
  let e := evenMember s c
  if !(chan s c).selfTest then cmpRetry e s
  else
    let (k, t) := Tbl.get (0, 0) s.acq.chanTests c
    let pass := outs == stepOutputs k (false, false)
    if s.cyc < t + 2000 then s
    else if pass ∧ k < 2 then { s with acq := { s.acq with chanTests := Tbl.insert s.acq.chanTests c (k + 1, s.cyc) } }
    else
      let s := onChan c (fun x => { x with selfTest := false })
        { s with acq := { s.acq with chanTests := Tbl.erase s.acq.chanTests c } }
      if !pass then testDecide (16 + e) 0x0197 (cmpFail c (cmpSecond e false s))
      else if (members s c).any (fun m => decide (c < m)) then cmpRetry e (cmpSecond e true s)
      else testDecide (16 + e) 0 (cmpSecond e false s)

/-! ### Commands -/

/-- The thresholds `x` of monitor `i` are accepted: `LOW` lies more than 16 codes below `HIGH` (R332). -/
def monThrOk (x : Word) : Bool := decide (bits x 9 0 + 16 < bits x 25 16)

/-- A completed threshold pair for monitor `i`: discarded with `CFG_REJ` when R332 forbids it. -/
def monThresholds (i : Nat) (x : Word) (s : State) : State :=
  if monThrOk x then wr (MON_THR_HIGH i) (bits x 25 16) (wr (MON_THR_LOW i) (bits x 9 0) s) else flag (MON_STAT_CFG_REJ i) s

/-- `MON_CONFIG (0x0194)`. -/
def monConfig (m : Msg) (s : State) : State :=
  match reservedBad m [0x0000000F, 0x03FF03FF, 0xC000FF00] with
  | some i => respond 0x0194 m 0x0190 i [] s
  | none =>
    let i := (word m 0).toNat
    if !monThrOk (word m 1) then respond 0x0194 m 0x0190 1 [] s
    else ok 0x0194 m (commits [MON_CTL i, MON_THR i] (swWrite (MON_CTL i) (globalFields (MON_CTL i)) (word m 2) (monThresholds i (word m 1) s)))

/-- `MON_CONFIG`: writes a monitor's thresholds and control. -/
def execMonConfig (m : Msg) (s : State) : Host.Outcome State Fault Refusal := command 0x0194 m (monConfig m) s

/-- What `MON_SELFTEST` answers at once for item `i`, if anything. -/
def testRefusal (m : Msg) (i : Nat) (s : State) : Option Nat :=
  if i < 16 then if monQuiet s i then none else some 0x0195
  else if oddMember s (i - 16) then some 8
  else if !owns s m.client (i - 16) then some 3
  else none

/-- Item `i` of a self-test command begins, unless it is under test already; a channel that is not idle is deferred. -/
def testBegin (i : Nat) (s : State) : State :=
  if i < 16 then if (monAt s i).test.isSome then s else monTestBegin i s
  else if cmpReady s (i - 16) then cmpBegin (i - 16) s
  else s

/-- `MON_SELFTEST (0x0195)`: answered once every named item is decided. -/
def monSelftest (m : Msg) (s : State) : State :=
  match reservedBad m [0x0000FFFF, 0xFFFFFFFF, 0x0000000F] with
  | some i => respond 0x0195 m (if i = 0 then 0x0B else 7) i [] s
  | none =>
    let mask := (word m 0).toNat + chanMask (word m 1) (word m 2) * 2 ^ 16
    let named := (List.range 52).filter (bitOf mask)
    let refused := named.filterMap (fun i => (testRefusal m i s).map (fun x => (i, x)))
    let open_ := named.filter (fun i => (testRefusal m i s).isNone)
    if open_ = [] then respond 0x0195 m 0 0 (itemsOf 52 refused) s
    else
      let s := { s with acq := { s.acq with tests := s.acq.tests ++ [(m, s.cyc, open_, refused)] } }
      open_.foldl (fun s i => testBegin i s) s

/-- `MON_SELFTEST`: self-tests named monitors and channel comparators. -/
def execMonSelftest (m : Msg) (s : State) : Host.Outcome State Fault Refusal := command 0x0195 m (monSelftest m) s

end Sys2Proof.Machine
end

