-- ==== Sys2Proof/Machine/Timers.lean ====
section
/-! DEFINITION. The 32 general timers and the TIO pins (timers R342 to R350). -/
namespace Sys2Proof.Machine

/-- A power domain is on. -/
def domainOn (s : State) (d : Nat) : Bool := Tbl.get Domain.on s.power.domains d == .on

/-- Timer, pin engine and SSI pins are driven: role SOLO or DUTY (R343). -/
def pinsDriven (s : State) : Bool := driving s

/-- Timer `t`. -/
def timerAt (s : State) (t : Nat) : Timer := Tbl.get {} s.periph.timers t

/-- Timer `t` changed by `f`. -/
def onTimer (t : Nat) (f : Timer → Timer) (s : State) : State :=
  { s with periph := { s.periph with timers := Tbl.set {} s.periph.timers t (f (timerAt s t)) } }

/-- Ticks that a timer with divider `div`, started in cycle `c`, has taken by the end of cycle `x` (R347). -/
def ticksBy (c div x : Nat) : Nat := (x - c) / div

/-- `COUNT` of timer `t` at the end of cycle `x` (R346). -/
def timerCount (s : State) (t x : Nat) : Nat :=
  let base := rd s (TMR_COUNT_COUNT t)
  match (timerAt s t).start with
  | some c => if rd s (TMR_CFG_CLK t) = 0 then (base + ticksBy c (rd s (TMR_CLK_DIV t) + 1) x) % 2 ^ 32 else base
  | none => base

/-- Timer `t` runs. -/
def timerRuns (s : State) (t : Nat) : Bool := (timerAt s t).start.isSome

/-- `TMR_START` and `TMR_STOP` read the running timers. -/
def showRunning (s : State) : State :=
  let mask := (List.range 32).foldl (fun a t => setBit a t (timerRuns s t)) 0
  wr TMR_STOP_STOP mask (wr TMR_START_START mask s)

/-- Timer `t` runs in this cycle: one that starts in it ticks and captures from the next on (R347). (log entry 113, DEDUCED) -/
def timerCounts (s : State) (t : Nat) : Bool :=
  match (timerAt s t).start with
  | some c => decide (c < s.cyc)
  | none => false

/-- Timer `t` starts, if it is stopped and powered (R347). -/
def timerStart (t : Nat) (s : State) : State :=
  if timerRuns s t ∨ !domainOn s (54 + t / 4) then s
  else onTimer t (fun x => { start := some s.cyc, passed := x.passed }) s

/-- What hardware has done to field `f` in this cycle is taken back. -/
def takeBack (f : Fld) (s : State) : State := { wr f (rdStart s f) s with hw := Tbl.erase s.hw f.key }

/-- What timer `t` has done in this cycle is taken back: a stop acts from the cycle of its arrival on (R347). (log entry 113, DEDUCED) -/
def timerUndo (t : Nat) (s : State) : State :=
  match (timerAt s t).acted with
  | some (c, n) =>
    if c ≠ s.cyc then s
    else
      let s := onTimer t (fun x => { x with edges := n }) s
      let s := { s with periph := { s.periph with tioActs := s.periph.tioActs.filter (fun a => a.timer != t) } }
      let s := if isSet s (TMR_CFG_AUTO_ADD t) && (Tbl.find s.hw (TMR_CMP_CMP t).key).isSome then takeBack (TMR_CMP_CMP t) s else s
      let s := if rd s (TMR_CFG_CLK t) = 0 then s else takeBack (TMR_COUNT_COUNT t) s
      [TMR_CAP_CAP t, TMR_STAT_CAP t, TMR_STAT_OVR t, TMR_STAT_MATCH t].foldl (fun s f => takeBack f s) s
  | none => s

/-- Timer `t` stops in this cycle, keeping the count of the last one (R347). (log entry 113, DEDUCED) -/
def timerStop (t : Nat) (s : State) : State :=
  if timerRuns s t then
    let s := timerUndo t s
    onTimer t (fun x => { x with start := none }) (wr (TMR_COUNT_COUNT t) (timerCount s t (s.cyc - 1)) s)
  else s

/-- A software read of `COUNT`: as it stood at the end of the last cycle, which a stop in this cycle has kept. -/
def timerRead (s : State) (t : Nat) : Nat :=
  let base := rdStart s (TMR_COUNT_COUNT t)
  match (timerAt s t).start with
  | some c =>
    if c = s.cyc ∧ bitOf (rdStart s TMR_START_START) t then rd s (TMR_COUNT_COUNT t)
    else if rd s (TMR_CFG_CLK t) = 0 then (base + ticksBy c (rd s (TMR_CLK_DIV t) + 1) (s.cyc - 1)) % 2 ^ 32
    else base
  | none => if bitOf (rdStart s TMR_START_START) t then rd s (TMR_COUNT_COUNT t) else base

/-- The bits that PF0 may name: a group-7 bit sets `CFG_REJ` (R345). -/
def hostTimers (x : Word) (s : State) : Nat × State :=
  (bits x 27 0, if bits x 31 28 = 0 then s else flag TMR_STATUS_CFG_REJ s)

/-- Every timer named in `mask` changes by `f`. -/
def eachTimer (mask : Nat) (f : Nat → State → State) (s : State) : State :=
  showRunning ((List.range 28).foldl (fun s t => if bitOf mask t then f t s else s) s)

/-- PF0 starts (`run`) or stops the timers that `x` names (R345, R347). -/
def timersWrite (run : Bool) (x : Word) (s : State) : State :=
  let (mask, s) := hostTimers x s
  eachTimer mask (if run then timerStart else timerStop) s

/-! ### Pins (R348) -/

/-- The strength of an action: CLEAR over SET over TOGGLE. -/
def actRank (a : Nat) : Nat := if a = 2 then 3 else if a = 1 then 2 else if a = 3 then 1 else 0

/-- TIO pin `p` drives its pad: an output of a powered timer group in a driving role (R342, R343). (log entry 114, DESIGN CHOICE) -/
def tioDrives (s : State) (p : Nat) : Bool := bitOf (rd s TMR_PIN_DIR) p && pinsDriven s && domainOn s (54 + p)

/-- `TMR_PIN.LEVEL` shows the pads: the latch where the pin drives, bit `p` of `outside` elsewhere. -/
def tioPads (outside : Nat) (s : State) : State :=
  wr TMR_PIN_LEVEL ((List.range 8).foldl (fun a p =>
    setBit a p (if tioDrives s p then bitOf s.periph.tio p else bitOf outside p)) 0) s

/-- The pads follow what has become of latches, directions, role and power; a released pad keeps its level until it is told another. -/
def tioRefresh (s : State) : State := tioPads (rd s TMR_PIN_LEVEL) s

/-- The action of timer `t`, `act`, falls on TIO pin `p` in the next cycle. -/
def tioAction (t p act : Nat) (s : State) : State :=
  if act = 0 then s else { s with periph := { s.periph with tioActs := ⟨t, p, act⟩ :: s.periph.tioActs } }

/-- The level that the actions of one cycle give a pin that stands at `was`: CLEAR over SET over TOGGLE. -/
def tioLevel (was : Bool) (acts : List Nat) : Bool :=
  let a := acts.foldl (fun a x => if actRank a < actRank x then x else a) 0
  if a = 2 then false else if a = 1 then true else if a = 3 then !was else was

/-- The actions of the last cycle fall on the pins that are outputs (R348). -/
def tioSettle (s : State) : State :=
  let on := fun p => (s.periph.tioActs.filter (fun a => a.pin == p)).map (fun a => a.act)
  let latch := (List.range 8).foldl (fun a p =>
    if bitOf (rd s TMR_PIN_DIR) p then setBit a p (tioLevel (bitOf a p) (on p)) else a) s.periph.tio
  tioRefresh { s with periph := { s.periph with tio := latch, tioActs := [] } }

/-! ### Match and capture (R348, R349) -/

/-- The interrupt of timer `t`, when the enable field `f` is 1. -/
def timerInt (t : Nat) (f : Fld) (s : State) : State := if isSet s f then vector 0 7 (intPulse (308 + t) s) else s

/-- Timer `t` acts in this cycle: what it had before is kept for a stop. -/
def timerActs (t : Nat) (s : State) : State :=
  onTimer t (fun x => match x.acted with
    | some (c, _) => if c = s.cyc then x else { x with acted := some (s.cyc, x.edges) }
    | none => { x with acted := some (s.cyc, x.edges) }) s

/-- The tick of this cycle has made `COUNT` of timer `t` equal to `CMP`, as it stood when the cycle began: a write of `CMP` in it
applies from the next tick, and an automatic add wins over it (R348, R350). -/
def timerMatch (t : Nat) (s : State) : State :=
  let s := timerActs t (onTimer t (fun x => { x with matched := some s.cyc }) s)
  let s := timerInt t (TMR_CFG_MATCH_IE t) (flag (TMR_STAT_MATCH t) s)
  let s := tioAction t (rdStart s (TMR_CFG_OUT_PIN t)) (rdStart s (TMR_CFG_OUT_ACT t)) s
  if isSet s (TMR_CFG_AUTO_ADD t) then
    let s := wr (TMR_CMP_CMP t) ((rdStart s (TMR_CMP_CMP t) + rdStart s (TMR_INTERVAL_INTERVAL t)) % 2 ^ 32) s
    { s with hw := Tbl.insert s.hw (TMR_CMP_CMP t).key 1 }
  else s

/-- Timer `t` ticks on core cycles, has a tick in this cycle, and the tick makes `COUNT` equal `CMP`. -/
def matchDue (s : State) (t : Nat) : Bool :=
  match (timerAt s t).start with
  | some c =>
    rd s (TMR_CFG_CLK t) == 0 && decide (c < s.cyc) && (s.cyc - c) % (rd s (TMR_CLK_DIV t) + 1) == 0 &&
      timerCount s t s.cyc == rdStart s (TMR_CMP_CMP t) && (timerAt s t).matched != some s.cyc
  | none => false

/-- The edge is of the kind that `CAP_EDGE` sets. -/
def edgeKind (kind : Nat) (rising : Bool) : Bool := kind == 3 || (kind == 1 && rising) || (kind == 2 && !rising)

/-- The capture filter of timer `t` can pass a change to `rising` now: the level differs from that of its last change, which is
`FILTER_N` cycles past (R349). -/
def capturePasses (s : State) (t : Nat) (rising : Bool) : Bool :=
  match (timerAt s t).passed with
  | some (c, level) => level != rising && decide (c + rd s (TMR_CLK_FILTER_N t) ≤ s.cyc)
  | none => true

/-- An edge of the capture source of timer `t` that its filter passes: `CAP_PRE` + 1 qualifying edges make one capture, or one tick. -/
def timerEdge (t : Nat) (rising : Bool) (s : State) : State :=
  if !capturePasses s t rising then s
  else
  let s := onTimer t (fun x => { x with passed := some (s.cyc, rising) }) s
  if !timerCounts s t ∨ !edgeKind (rd s (TMR_CFG_CAP_EDGE t)) rising then s
  else
    let s := timerActs t s
    let n := (timerAt s t).edges + 1
    if n ≤ rd s (TMR_CFG_CAP_PRE t) then onTimer t (fun x => { x with edges := n }) s
    else
      let s := onTimer t (fun x => { x with edges := 0 }) s
      if rd s (TMR_CFG_CLK t) = 0 then
        let s := wr (TMR_CAP_CAP t) (timerCount s t s.cyc) s
        let s := if isSet s (TMR_STAT_CAP t) then flag (TMR_STAT_OVR t) s else s
        timerInt t (TMR_CFG_CAP_IE t) (flag (TMR_STAT_CAP t) s)
      else
        let s := wr (TMR_COUNT_COUNT t) ((rd s (TMR_COUNT_COUNT t) + 1) % 2 ^ 32) s
        if rd s (TMR_COUNT_COUNT t) = rdStart s (TMR_CMP_CMP t) then timerMatch t s else s

/-! ### Register writes (R345, R349, R350) -/

/-- A value of Table 12-1. -/
def captureSource (n : Nat) : Bool := decide (n ≤ 18) || (decide (32 ≤ n) && decide (n ≤ 55))

/-- PF0 writes `x` to the register at `off` of timer `t`: group 7 and, while the timer runs, `COUNT`, `CFG` and `CLK` are
discarded; an automatic add of this cycle wins over a write of `CMP`. -/
def timerWrite (t off : Nat) (x : Word) (s : State) : State :=
  let locked := timerRuns s t && (off == TMR_COUNT t || off == TMR_CFG t || off == TMR_CLK t)
  let badCfg := off == TMR_CFG t && (!captureSource (bits x 13 8) || decide (2 ≤ bits x 25 24))
  if 28 ≤ t ∨ locked ∨ badCfg then flag TMR_STATUS_CFG_REJ s
  else if off = TMR_CMP t ∧ (Tbl.find s.hw (TMR_CMP_CMP t).key).isSome then s
  else
    let s := swWrite off (globalFields off) x s
    if off = TMR_CFG t then onTimer t (fun y => { y with passed := none }) s else s

/-- PF0 writes `TMR_PIN`: pins that become outputs show their latch. -/
def tioWrite (x : Word) (s : State) : State := tioRefresh (swField TMR_PIN_DIR (bits x 15 8) s)

/-- Registers and state of timer `t` back at reset (R342). -/
def timerReset (t : Nat) (s : State) : State :=
  let offs := [TMR_CFG t, TMR_CLK t, TMR_COUNT t, TMR_CMP t, TMR_INTERVAL t, TMR_CAP t, TMR_STAT t]
  showRunning (onTimer t (fun _ => {}) (offs.foldl (fun s o => resetFields (globalFields o) s)
    { s with periph := { s.periph with tioActs := s.periph.tioActs.filter (fun a => a.timer != t) } }))

end Sys2Proof.Machine
end

