-- ==== Sys2Proof/Machine/PinEngine.lean ====
section
/-! DEFINITION. The eight pin engines (timers R351 to R357). -/
namespace Sys2Proof.Machine

/-- Pin engine `n` beyond its registers. -/
def peAt (s : State) (n : Nat) : Pe := Tbl.get {} s.periph.engines n

/-- Pin engine `n` changed by `f`; the FIFO levels follow. -/
def onPe (n : Nat) (f : Pe → Pe) (s : State) : State :=
  let x := f (peAt s n)
  let s := { s with periph := { s.periph with engines := Tbl.set {} s.periph.engines n x } }
  wr (PE_STAT_RX_LEVEL n) x.rx.length (wr (PE_STAT_TX_LEVEL n) x.tx.length s)

/-- Power domain 46 + `n` of pin engine `n` is on. -/
def peOn (s : State) (n : Nat) : Bool := domainOn s (46 + n)

/-- Pin engine `n` executes. -/
def peRuns (s : State) (n : Nat) : Bool := peOn s n && isSet s (PE_CTRL_RUN n)

/-- The interrupt of pin engine `n` (R357). -/
def peInt (n : Nat) (s : State) : State := vector 0 7 (intPulse (340 + n) s)

/-- The pads of engine `n`: outputs that are driven show the latch, the others what `outside` puts on them. (log entry 73, DEDUCED) -/
def pePads (n outside : Nat) (s : State) : State :=
  let x := peAt s n
  let dir := rd s (PE_STAT_PIN_DIR n)
  let lv := (List.range 4).foldl (fun a i =>
    setBit a i (if bitOf dir i && pinsDriven s && peOn s n then bitOf x.pins i else bitOf outside i)) 0
  wr (PE_STAT_PIN_LEVEL n) lv s

/-- The engine starts at `ENTRY`; its first tick comes one cycle later (R352). (log entry 73, DEDUCED) -/
def peStart (n : Nat) (s : State) : State :=
  let s := onPe n (fun x =>
    { x with outBits := 0, inBits := 0, held := false, next := 256 * (s.cyc + 1), pins := rd s (PE_CFG_LEVEL_RESET n) }) s
  let s := wr (PE_STAT_PIN_DIR n) (rd s (PE_CFG_DIR_RESET n)) (wr (PE_SR_SR n) 0 (wr (PE_CNT_CNT n) 0 s))
  let s := wr (PE_STAT_PC n) (rd s (PE_CTRL_ENTRY n)) (wr (PE_STAT_HOLDING n) 0 (wr (PE_STAT_STALLED n) 0 s))
  pePads n (rd s (PE_STAT_PIN_LEVEL n)) s

/-- The engine executes nothing more; pins keep their levels and directions (R352, R355). -/
def peStop (n : Nat) (s : State) : State :=
  onPe n (fun x => { x with held := false }) (wr (PE_STAT_HOLDING n) 0 (wr (PE_STAT_STALLED n) 0 s))

/-- PF0 writes `x` to `PE_CTRL` of engine `n`: a fault that cleared `RUN` in this cycle wins (R352, R355). -/
def peRunWrite (n : Nat) (x : Word) (s : State) : State :=
  if !peOn s n then s
  else
    let was := isSet s (PE_CTRL_RUN n)
    let s := swField (PE_CTRL_ENTRY n) (bits x 20 16) s
    if (Tbl.find s.hw (PE_CTRL_RUN n).key).isSome then s
    else
      let run := bitOf x.toNat 0
      let s := wrB (PE_CTRL_RUN n) run s
      if run && !was then peStart n s else if !run && was then peStop n s else s

/-- PF0 appends `x` to the transmit FIFO of engine `n` (R356). -/
def peTxWrite (n : Nat) (x : Word) (s : State) : State :=
  if !peOn s n then s
  else if 8 ≤ (peAt s n).tx.length then flag (PE_STAT_TX_OVER n) s
  else onPe n (fun p => { p with tx := p.tx ++ [x] }) s

/-- PF0 reads `PE_RX` of engine `n`: the head leaves; an entry deposited in this same cycle is not there yet (R356). -/
def peRxRead (n : Nat) (s : State) : Word × State :=
  if !peOn s n then (0, s)
  else
    let x := peAt s n
    match x.rx with
    | [] => (0, flag (PE_STAT_RX_UNDER n) s)
    | w :: rest =>
      if rest = [] ∧ x.pushed = some s.cyc then (0, flag (PE_STAT_RX_UNDER n) s)
      else (w, onPe n (fun p => { p with rx := rest }) s)

/-- PF0 writes `x` to a program word or to `PE_CFG` of engine `n`, discarded while it runs (R353). -/
def peConfigWrite (n off : Nat) (x : Word) (s : State) : State :=
  if !peOn s n then s
  else if isSet s (PE_CTRL_RUN n) then flag (PE_STAT_CFG_REJ n) s
  else swWrite off (globalFields off) x s

/-! ### The program word (Table 12-2) -/

/-- The word is illegal for engine `n` (R355). -/
def peIllegal (s : State) (n : Nat) (w : Word) : Bool :=
  bits w 8 5 != 0 || bits w 21 20 == 3 || bits w 19 18 == 3 || bits w 17 16 == 3 || decide (11 ≤ bits w 15 12) ||
    (bits w 17 16 == 0 && bits w 15 12 != 0) ||
    (bits w 9 9 == 0 && bitOf (bits w 23 22) 0 && bitOf (bits w 31 28) (rd s (PE_CFG_DOUT n)))

/-- `PE_STAT.FAULT` and `F_0720`: the engine stops (R355). -/
def peFault (n : Nat) (s : State) : State :=
  let s := wr (PE_CTRL_RUN n) 0 s
  let s := { s with hw := Tbl.insert s.hw (PE_CTRL_RUN n).key 1 }
  peInt n (raise 0x0720 (0x68 + n) 0 actHalt (flag (PE_STAT_FAULT n) (peStop n s)))

/-- `THRESH`; 0 means 32. -/
def peThresh (s : State) (n : Nat) : Nat := if rd s (PE_CFG_THRESH n) = 0 then 32 else rd s (PE_CFG_THRESH n)

/-- SR_EQ of Table 12-3. -/
def peSrEq (s : State) (n : Nat) : Bool :=
  (rd s (PE_SR_SR n) % 65536 ^^^ rd s (PE_CMP_VALUE n)) &&& rd s (PE_CMP_MASK n) == 0

/-- Condition `cond` on pin `cpin` (Table 12-3). -/
def peCond (s : State) (n cond cpin pins : Nat) : Bool :=
  let x := peAt s n
  match cond with
  | 0 => true
  | 1 => rd s (PE_CNT_CNT n) != 0
  | 2 => rd s (PE_CNT_CNT n) == 0
  | 3 => bitOf pins cpin
  | 4 => !bitOf pins cpin
  | 5 => peSrEq s n
  | 6 => !peSrEq s n
  | 7 => decide (peThresh s n ≤ x.outBits)
  | 8 => decide (peThresh s n ≤ x.inBits)
  | 9 => x.tx.isEmpty
  | 10 => decide (8 ≤ x.rx.length)
  | _ => false

/-- Step 2 of R354: FETCH. -/
def peFetch (n : Nat) (w : Word) (s : State) : State :=
  match bits w 21 20, (peAt s n).tx with
  | 1, v :: rest =>
    let s := onPe n (fun x => { x with tx := rest, outBits := 0 }) (wr (PE_SR_SR n) v.toNat s)
    if rest = [] then peInt n s else s
  | _, _ => s

/-- Step 3: pins named in `PIN_SET` take their `PIN_VAL` bit. -/
def peSetPins (n : Nat) (w : Word) (s : State) : State :=
  let put (a : Nat) : Nat := (List.range 4).foldl (fun a i =>
    if bitOf (bits w 31 28) i then setBit a i (bitOf (bits w 27 24) i) else a) a
  if bits w 9 9 = 1 then wr (PE_STAT_PIN_DIR n) (put (rd s (PE_STAT_PIN_DIR n))) s
  else onPe n (fun x => { x with pins := put x.pins }) s

/-- Step 4: the serial action. -/
def peSerial (n pins : Nat) (w : Word) (s : State) : State :=
  let data := bits w 23 22
  let emit := bitOf data 0
  let sample := bitOf data 1
  if data = 0 then s
  else
    let sr := rd s (PE_SR_SR n)
    let inBit := if sample && bitOf pins (rd s (PE_CFG_DIN n)) then 1 else 0
    let msb := isSet s (PE_CFG_MSB_FIRST n)
    let outBit := if msb then bitOf sr 31 else bitOf sr 0
    let s := wr (PE_SR_SR n) (if msb then sr * 2 + inBit else sr / 2 + inBit * 2 ^ 31) s
    let dout := rd s (PE_CFG_DOUT n)
    onPe n (fun x =>
      { x with
        pins := if emit then setBit x.pins dout outBit else x.pins
        outBits := if emit then min 32 (x.outBits + 1) else x.outBits
        inBits := if sample then min 32 (x.inBits + 1) else x.inBits }) s

/-- Step 5: DEPOSIT. -/
def peDeposit (n : Nat) (w : Word) (s : State) : State :=
  if bits w 21 20 = 2 then
    let was := (peAt s n).rx
    let s := onPe n (fun x =>
      { x with rx := x.rx ++ [BitVec.ofNat 32 (rd s (PE_SR_SR n))], inBits := 0, pushed := some s.cyc }) s
    if was = [] then peInt n s else s
  else s

/-- Step 6: the counter. -/
def peCounter (n : Nat) (w : Word) (s : State) : State :=
  match bits w 19 18 with
  | 1 => wr (PE_CNT_CNT n) (rd s (PE_CFG_PRESET n)) s
  | 2 => wr (PE_CNT_CNT n) (rd s (PE_CNT_CNT n) - 1) s
  | _ => s

/-- Step 7: the next word. -/
def peNext (n pins : Nat) (w : Word) (s : State) : State :=
  let c := peCond s n (bits w 15 12) (bits w 11 10) pins
  let pc := rd s (PE_STAT_PC n)
  let on (dest : Nat) (s : State) : State :=
    onPe n (fun x => { x with held := false }) (wr (PE_STAT_HOLDING n) 0 (wr (PE_STAT_PC n) (dest % 32) s))
  if bits w 17 16 = 1 ∧ c then on (bits w 4 0) s
  else if bits w 17 16 = 2 ∧ !c then onPe n (fun x => { x with held := true }) (wr (PE_STAT_HOLDING n) 1 s)
  else on (pc + 1) s

/-- The word stalls: FETCH with nothing to fetch, or DEPOSIT without a place. -/
def peStalls (s : State) (n : Nat) (w : Word) : Bool :=
  let x := peAt s n
  (bits w 21 20 == 1 && x.tx.isEmpty) || (bits w 21 20 == 2 && decide (8 ≤ x.rx.length))

/-- The program word at the counter of engine `n`. -/
def peWord (s : State) (n : Nat) : Word := BitVec.ofNat 32 (rd s (PE_PROG_WORD (32 * n + rd s (PE_STAT_PC n))))

/-- One tick of engine `n`, whose pins read `pins` two cycles before (R354 to R356). (log entry 73, DEDUCED) -/
def peTick (n pins : Nat) (s : State) : State :=
  let w := peWord s n
  let s := pePads n pins (onPe n (fun x => { x with next := x.next + rd s (PE_DIV_DIV n) }) s)
  if (peAt s n).held then peNext n pins w s
  else if peIllegal s n w then peFault n s
  else if peStalls s n w then
    if isSet s (PE_STAT_STALLED n) then s else wr (PE_STAT_STALLED n) 1 (count (PE_STALLS_STALLS n) 1 s)
  else
    let s := wr (PE_STAT_STALLED n) 0 s
    pePads n pins (peNext n pins w (peCounter n w (peDeposit n w (peSerial n pins w (peSetPins n w (peFetch n w s))))))

/-- Registers, program and state of engine `n` back at reset (R342). -/
def peReset (n : Nat) (s : State) : State :=
  let offs := [PE_CTRL n, PE_CFG n, PE_DIV n, PE_CMP n, PE_TX n, PE_RX n, PE_STAT n, PE_CNT n, PE_SR n, PE_STALLS n]
    ++ (List.range 32).map (fun k => PE_PROG (32 * n + k))
  onPe n (fun _ => {}) (offs.foldl (fun s o => resetFields (globalFields o) s) s)

end Sys2Proof.Machine
end

