-- ==== Sys2Proof/Machine/Position.lean ====
section
/-! DEFINITION. The six position feedback interfaces (timers R358 to R366). -/
namespace Sys2Proof.Machine

/-- Position interface `i` beyond its registers. -/
def posAt (s : State) (i : Nat) : Pos := Tbl.get {} s.periph.positions i

/-- Position interface `i` changed by `f`. -/
def onPos (i : Nat) (f : Pos → Pos) (s : State) : State :=
  { s with periph := { s.periph with positions := Tbl.set {} s.periph.positions i (f (posAt s i)) } }

/-- Power domain 62 + `i` of interface `i` is on. -/
def posOn (s : State) (i : Nat) : Bool := domainOn s (62 + i)

/-- Interface `i` is powered and in mode `m` of Table 12-4. -/
def posMode (s : State) (i m : Nat) : Bool := posOn s i && rd s (POS_CFG_MODE i) == m

/-- The interrupt of interface `i`. -/
def posInt (i : Nat) (s : State) : State := vector 0 7 (intPulse (348 + i) s)

/-- A count or frame error: `ERRORS`, `ERR` (R360, R362 to R364). (log entry 74, DEDUCED) -/
def posError (i : Nat) (s : State) : State := flag (POS_STAT_ERR i) (count (POS_CNT_ERRORS i) 1 s)

/-- A count error raises `F_0721`, at most once per second per interface (R360). -/
def posCountError (i : Nat) (s : State) : State :=
  let s := posError i s
  if oncePerSecond (posAt s i).f0721At s.cyc then
    onPos i (fun x => { x with f0721At := some s.cyc }) (raise 0x0721 (0x70 + i) 0 0 s)
  else s

/-- `a` − `b` modulo 2^32, as a signed number. -/
def diff32 (a b : Nat) : Int := signed 32 (a + 2 ^ 32 - b)

/-- The number of steps that ends a compare hit whose distance is `d`, for spacing `step` (R365); none where no number does.
(log entry 75, DESIGN CHOICE) -/
def hitSteps (d step : Int) : Option Nat :=
  if step = -2 ^ 31 ∧ (d = 0 ∨ d = -2 ^ 31) then none else some (d.natAbs / step.natAbs + 1)

/-- A compare hit, when C has reached `POS_CMP` in the direction of the step. Both stand as at the start of the cycle: the advance wins
over a write of the same cycle (R365). (log entry 74, DEDUCED) -/
def posCompare (i : Nat) (s : State) : State :=
  let step := signed 32 (rdStart s (POS_STEP_STEP i))
  let at_ := if (Tbl.find s.hw (POS_CMP_CMP_POS i).key).isSome then rd s (POS_CMP_CMP_POS i) else rdStart s (POS_CMP_CMP_POS i)
  let d := diff32 (rd s (POS_COUNT_C i)) at_
  if step = 0 ∨ (0 < step ∧ d < 0) ∨ (step < 0 ∧ 0 < d) ∨ rd s (POS_CFG_MODE i) = 0 then s
  else
    let (k, s) := match hitSteps d step with
      | some k => (k, s)
      | none => draw s
    let s := wr (POS_CMP_CMP_POS i) (ofSigned 32 ((at_ : Int) + k * step)) s
    let s := { s with hw := Tbl.insert s.hw (POS_CMP_CMP_POS i).key 1 }
    let s := flag (POS_STAT_CMP i) (count (POS_STAT_HITS i) k s)
    let s := if 1 < k then flag (POS_STAT_MULTI i) s else s
    posInt i (wr (POS_CMP_TIME_CMP_TIME i) s.cyc s)

/-- C follows R under the hysteresis rule (R359), and the compare is tested. -/
def posPublish (i : Nat) (s : State) : State :=
  let d := diff32 (rd s (POS_RAW_R i)) (rd s (POS_COUNT_C i))
  let down := isSet s (POS_STAT_DIR i)
  let withheld := isSet s (POS_CFG_HYST i) && d == (if down then 1 else -1)
  if d = 0 ∨ withheld then s
  else posCompare i (wr (POS_COUNT_C i) (rd s (POS_RAW_R i)) (wrB (POS_STAT_DIR i) (decide (d < 0)) s))

/-- R moves by `n` steps, reversed by `INVERT`; a software write of the count in this cycle wins and the lost steps are
counted (R359, R366). (log entry 74, DEDUCED) -/
def posMove (i : Nat) (n : Int) (s : State) : State :=
  let n := if isSet s (POS_CFG_INVERT i) then -n else n
  if n = 0 then s
  else if POS_COUNT i ∈ s.sw then bump (collFld (32 * POS_COLL + 4 * i, 4)) n.natAbs s
  else
    let s := wr (POS_RAW_R i) (ofSigned 32 ((rd s (POS_RAW_R i) : Int) + n)) s
    posPublish i (onPos i (fun x =>
      { x with moved := (s.cyc, (if x.moved.1 = s.cyc then x.moved.2 else 0) + n.natAbs) }) s)

/-- Place of (A, B) in the forward sequence 00, 10, 11, 01. -/
def quadPlace (a b : Bool) : Nat := if a then (if b then 2 else 1) else if b then 3 else 0

/-- Place of (U, V, W) in the forward sequence of R360; none for 000 and 111. -/
def hallPlace (u v w : Bool) : Option Nat :=
  match u, v, w with
  | true, false, false => some 0
  | true, true, false => some 1
  | false, true, false => some 2
  | false, true, true => some 3
  | false, false, true => some 4
  | true, false, true => some 5
  | _, _, _ => none

/-- The step of a QUAD change; none for a count error. -/
def quadStep (a b a' b' : Bool) : Option Int :=
  let k := (quadPlace a' b' + 4 - quadPlace a b) % 4
  if k = 0 then some 0 else if k = 1 then some 1 else if k = 3 then some (-1) else none

/-- The step of a HALL change; none for a count error. (log entry 74, DEDUCED) -/
def hallStep (p q : Option Nat) : Option Int :=
  match p, q with
  | some p, some q =>
    let k := (q + 6 - p) % 6
    if k = 0 then some 0 else if k = 1 then some 1 else if k = 5 then some (-1) else none
  | none, none => none
  | _, _ => none

/-- The filter of an input that last changed at `last` can pass another change now: `FILTER_N` cycles have passed (R358). -/
def posPasses (s : State) (i : Nat) (last : Option Nat) : Bool :=
  match last with
  | some c => decide (c + rd s (POS_CFG_FILTER_N i) ≤ s.cyc)
  | none => true

/-- The level of an input that is to become `v`, as its filter passes it, with the cycle of its last change. -/
def posPass (s : State) (i : Nat) (was : Bool) (last : Option Nat) (v : Bool) : Bool × Option Nat :=
  if was != v && posPasses s i last then (v, some s.cyc) else (was, last)

/-- The inputs of interface `i` take the levels `a`, `b` and `z`, as far as their filters pass the changes. -/
def posInputs (i : Nat) (a b z : Bool) (s : State) : State :=
  let x := posAt s i
  let (a, aAt) := posPass s i x.a x.aAt a
  let (b, bAt) := posPass s i x.b x.bAt b
  let (z, zAt) := posPass s i x.z x.zAt z
  let s := onPos i (fun x => { x with a, b, z, aAt, bAt, zAt }) s
  let step (q : Option Int) (s : State) : State :=
    match q with
    | some n => posMove i n s
    | none => posCountError i s
  if posMode s i 1 then step (quadStep x.a x.b a b) s
  else if posMode s i 2 ∧ (x.a, x.b, x.z) ≠ (a, b, z) then step (hallStep (hallPlace x.a x.b x.z) (hallPlace a b z)) s
  else s

/-- The rising edge of Z that makes an index: the filter passes it now, or has passed it in this cycle. -/
def indexEdge (s : State) (i : Nat) : Bool :=
  let x := posAt s i
  if x.z then x.zAt == some s.cyc && x.idxAt != some s.cyc else posPasses s i x.zAt

/-- An index of interface `i` (R361). -/
def posIndex (i : Nat) (s : State) : State :=
  let s := wr (POS_IDX_TIME_IDX_TIME i) s.cyc (wr (POS_IDX_IDX_POS i) (rd s (POS_COUNT_C i)) s)
  posInt i (flag (POS_STAT_IDX i) (count (POS_CNT_IDX_COUNT i) 1 s))

/-! ### SENT and SSI (R362 to R364) -/

/-- A valid value `v` of `w` bits changes R by its signed difference from the last one (R364). -/
def posValue (i v w : Nat) (s : State) : State :=
  let x := posAt s i
  let s := wr (POS_STAT_LOST i) 0 (onPos i (fun x => { x with prev := some v, validAt := s.cyc }) s)
  match x.prev with
  | none => s
  | some p =>
    let d := signed w (v + 2 ^ w - p % 2 ^ w)
    if 2 ^ (w - 2) < d.natAbs then posError i s else posMove i d s

/-- `TICK` of interface `i` in core cycles: units of 0.1 µs. -/
def sentTick (s : State) (i : Nat) : Nat := 40 * rd s (POS_PROTO_TICK_HALF i)

/-- A pulse of `n` cycles is a calibration pulse: its 56th part lies within ±20 % of `TICK`. -/
def sentCalibration (s : State) (i n : Nat) : Bool :=
  decide (5 * n ≤ 6 * 56 * sentTick s i) && decide (4 * 56 * sentTick s i ≤ 5 * n)

/-- The nibble of a pulse of `n` cycles after a calibration pulse of `cal`; none outside 0 to 15. -/
def sentNibble (cal n : Nat) : Option Nat :=
  let v := roundDiv (56 * n : Nat) cal - 12
  if 0 ≤ v ∧ v ≤ 15 then some v.toNat else none

/-- One bit of the division by x^4 + x^3 + x^2 + 1. -/
def sentCrcBit (c : Nat) : Nat := if 8 ≤ c then (2 * c) ^^^ 0x1D else 2 * c

/-- Four bits of it. -/
def sentCrcNibble (c : Nat) : Nat := sentCrcBit (sentCrcBit (sentCrcBit (sentCrcBit c)))

/-- The J2716 CRC of the data nibbles: seed 5; the recommended method appends a zero nibble (R362). (log entry 76, PRESUMED) -/
def sentCrc (legacy : Bool) (nibbles : List Nat) : Nat :=
  let c := nibbles.foldl (fun c n => sentCrcNibble c ^^^ n) 5
  if legacy then c else sentCrcNibble c

/-- The status nibble and the value that the pulses of one frame carry; none when any test fails. (log entry 76, PRESUMED) -/
def sentDecode (s : State) (i : Nat) (pulses : List Nat) : Option (Nat × Nat) :=
  let len := rd s (POS_PROTO_LEN i)
  let cal := pulses.getD 0 0
  let nib := (pulses.drop 1).take (len + 2) |>.map (sentNibble cal)
  let vals := nib.filterMap id
  let data := (vals.drop 1).take len
  let tail := pulses.drop (len + 3)
  if pulses.length = len + 4 ∧ sentCalibration s i cal ∧ vals.length = len + 2
      ∧ vals.getLastD 0 = sentCrc (isSet s (POS_PROTO_CRC_GRAY i)) data
      ∧ (isSet s (POS_PROTO_PAUSE i) ∨ sentCalibration s i (tail.getD 0 0)) then
    some (vals.headD 0, data.foldl (fun v n => 16 * v + n) 0)
  else none

/-- One SENT frame, whose pulses have these lengths. -/
def sentFrame (i : Nat) (pulses : List Nat) (s : State) : State :=
  if !posMode s i 3 then s
  else
    match sentDecode s i pulses with
    | none => posError i s
    | some (st, v) => posValue i v (4 * rd s (POS_PROTO_LEN i)) (wr (POS_STAT_SENT_STATUS i) st s)

/-- `LOST` and `F_0722` (R364). -/
def posLost (i : Nat) (s : State) : State :=
  if isSet s (POS_STAT_LOST i) then s else raise 0x0722 (0x70 + i) 0 0 (wr (POS_STAT_LOST i) 1 s)

/-- `MONO` in core cycles. -/
def ssiMono (s : State) (i : Nat) : Nat := 400 * rd s (POS_PROTO_MONO i)

/-- An SSI frame starts, or the idle test fails (R363, R364). -/
def ssiStart (i : Nat) (idle : Bool) (s : State) : State :=
  let x := posAt s i
  if !posMode s i 4 || !pinsDriven s || x.frame.isSome || decide (s.cyc < x.nextAt) then s
  else if idle then
    let s := { s with out := .ssiClock i s.cyc (rd s (POS_PROTO_TICK_HALF i)) (rd s (POS_PROTO_LEN i) + 1) :: s.out }
    onPos i (fun x => { x with frame := some s.cyc, fails := 0 }) s
  else
    let s := posError i (onPos i (fun x => { x with nextAt := s.cyc + ssiMono s i, fails := x.fails + 1 }) s)
    if 4 ≤ x.fails + 1 then posLost i s else s

/-- Gray code to binary, `w` bits. -/
def grayToBinary (w g : Nat) : Nat := (List.range w).foldl (fun b k => b ^^^ (g / 2 ^ k)) 0

/-- Cycles from the start of an SSI frame to its end: `LEN` + 1 clock periods. (log entry 76, PRESUMED) -/
def ssiLength (s : State) (i : Nat) : Nat := 2 * rd s (POS_PROTO_TICK_HALF i) * (rd s (POS_PROTO_LEN i) + 1)

/-- The clock output of interface `i`: none while it is at high impedance; low in the first half of each period of a frame, and high
otherwise (R343, R363). (log entry 76, PRESUMED) -/
def ssiClock (s : State) (i : Nat) : Option Bool :=
  if !posMode s i 4 || !pinsDriven s then none
  else match (posAt s i).frame with
    | some t => some (decide (ssiLength s i ≤ s.cyc - t) || (s.cyc - t) / rd s (POS_PROTO_TICK_HALF i) % 2 == 1)
    | none => some true

/-- The level of the data input `x` cycles after the start of the frame, high before its changes, the oldest first. -/
def ssiLevel (data : List (Nat × Bool)) (x : Nat) : Bool := data.foldl (fun v c => if c.1 ≤ x then c.2 else v) true

/-- The word that the frame samples, `HALF` / 2 cycles after each rising edge of the clock, most significant bit first (R363). -/
def ssiWord (s : State) (i : Nat) (data : List (Nat × Bool)) : Nat :=
  let h := rd s (POS_PROTO_TICK_HALF i)
  (List.range (rd s (POS_PROTO_LEN i) + 1)).foldl (fun a k =>
    2 * a + if ssiLevel data (h * (2 * k + 1) + h / 2) then 1 else 0) 0

/-- The frame in progress ends; the data input has changed as `data` says since its start. -/
def ssiDone (i : Nat) (data : List (Nat × Bool)) (s : State) : State :=
  match (posAt s i).frame with
  | none => s
  | some t =>
    if !posMode s i 4 || decide (s.cyc < t + ssiLength s i) then s
    else
      let w := rd s (POS_PROTO_LEN i) + 1
      let raw := ssiWord s i data
      let v := if isSet s (POS_PROTO_CRC_GRAY i) then grayToBinary w raw else raw
      posValue i v w (onPos i (fun p => { p with frame := none, nextAt := s.cyc + ssiMono s i }) s)

/-- Cycles without a valid SENT frame after which the source is lost (R364). (log entry 76, PRESUMED) -/
def sentLimit (s : State) (i : Nat) : Nat :=
  sentTick s i * (4 * (56 + 27 * (rd s (POS_PROTO_LEN i) + 2)) + (if isSet s (POS_PROTO_PAUSE i) then 4 * 768 else 0))

/-! ### Register writes (R358, R365, R366) -/

/-- What the steps of this cycle have changed beside R and C is taken back: the direction and a compare hit (R366).
(log entries 74, DEDUCED, 113, DEDUCED) -/
def posUndo (i : Nat) (s : State) : State :=
  let s := takeBack (POS_STAT_DIR i) s
  if (Tbl.find s.hw (POS_CMP_CMP_POS i).key).isSome then
    [POS_CMP_CMP_POS i, POS_STAT_HITS i, POS_STAT_CMP i, POS_STAT_MULTI i, POS_CMP_TIME_CMP_TIME i].foldl (fun s f => takeBack f s) s
  else s

/-- The compare is tested in the next cycle, when what software writes in this one stands (R365). (log entry 74, DEDUCED) -/
def posCheck (i : Nat) (s : State) : State := onPos i (fun x => { x with check := true }) s

/-- PF0 presets R and C; steps that this cycle had added are lost and counted (R366). -/
def posPreset (i : Nat) (x : Word) (s : State) : State :=
  let m := (posAt s i).moved
  let s := if m.1 = s.cyc ∧ m.2 ≠ 0 then
      posUndo i (onPos i (fun x => { x with moved := (0, 0) }) (bump (collFld (32 * POS_COLL + 4 * i, 4)) m.2 s))
    else s
  let s := wr (POS_RAW_R i) x.toNat (wr (POS_COUNT_C i) x.toNat s)
  posCheck i { s with sw := POS_COUNT i :: s.sw }

/-- `MODE` has changed from OFF: R and C equal `POS_COUNT`, direction UP (R358). -/
def posStart (i : Nat) (s : State) : State :=
  let s := wr (POS_STAT_DIR i) 0 (wr (POS_RAW_R i) (rd s (POS_COUNT_C i)) s)
  posCheck i (onPos i (fun x => { x with prev := none, validAt := s.cyc, frame := none, nextAt := s.cyc, fails := 0 }) s)

/-- PF0 writes `x` to a register of interface `i` (R358, R365, R366). -/
def posWrite (i off : Nat) (x : Word) (s : State) : State :=
  if !posOn s i then s
  else if off = POS_COUNT i then posPreset i x s
  else if off = POS_CFG i then
    let was := rd s (POS_CFG_MODE i)
    let now := bits x 31 29
    if 5 ≤ now ∨ (was ≠ 0 ∧ now ≠ 0) then flag (POS_STAT_CFG_REJ i) s
    else
      let s := swWrite off (globalFields off) x s
      if now ≠ 0 then posStart i s else onPos i (fun x => { x with frame := none }) s
  else if off = POS_PROTO i then
    if rd s (POS_CFG_MODE i) ≠ 0 then flag (POS_STAT_CFG_REJ i) s else swWrite off (globalFields off) x s
  else if off = POS_CMP i then
    if (Tbl.find s.hw (POS_CMP_CMP_POS i).key).isSome then s else posCheck i (swWrite off (globalFields off) x s)
  else if off = POS_STEP i then posCheck i (swWrite off (globalFields off) x s)
  else swWrite off (globalFields off) x s

/-- Registers and state of interface `i` back at reset; its inputs keep their levels (R342). -/
def posReset (i : Nat) (s : State) : State :=
  let offs := [POS_CFG i, POS_PROTO i, POS_COUNT i, POS_RAW i, POS_IDX i, POS_IDX_TIME i, POS_CMP i, POS_STEP i, POS_CMP_TIME i,
    POS_STAT i, POS_CNT i]
  onPos i (fun x => { a := x.a, b := x.b, z := x.z, aAt := x.aAt, bAt := x.bAt, zAt := x.zAt }) (offs.foldl (fun s o => resetFields (globalFields o) s) s)

/-! ### What the next cycle brings, and the pins of the die -/

/-- Something of this cycle takes effect in the next: timer actions on pins (R348), compares (R365). -/
def unsettled (s : State) : Bool := !s.periph.tioActs.isEmpty || s.periph.positions.any (fun x => x.2.check)

/-- The cycle after what left the state unsettled has begun. -/
def settle (s : State) : State :=
  let s := if s.periph.tioActs.isEmpty then s else tioSettle s
  (List.range 6).foldl (fun s i =>
    if (posAt s i).check then posCompare i (onPos i (fun x => { x with check := false }) s) else s) s

/-- Timer, pin engine and SSI pins follow the role and the power of their domains: driven or at high impedance from this cycle on
(R342, R343). An SSI frame whose clock is released is over. -/
def pinsRefresh (s : State) : State :=
  let s := (List.range 8).foldl (fun s n => pePads n (rd s (PE_STAT_PIN_LEVEL n)) s) (tioRefresh s)
  if pinsDriven s then s
  else (List.range 6).foldl (fun s i =>
    if (posAt s i).frame.isSome then onPos i (fun x => { x with frame := none, nextAt := s.cyc + ssiMono s i }) s else s) s

/-- What is wired to the timer and pin engine pads brings them these levels, where the module does not drive them. -/
def pinsOutside (tio : BitVec 8) (pep : Word) (s : State) : State :=
  (List.range 8).foldl (fun s n => if peOn s n then pePads n (pep.toNat / 2 ^ (4 * n) % 16) s else s) (tioPads tio.toNat s)

end Sys2Proof.Machine
end

