-- ==== Sys2Proof/Machine/Lanes.lean ====
section
/-! DEFINITION. Gate command lanes, frames on the profile link, and what the Sequencer and the pulse programs share of them
(architecture R15, drive R201, R219, auxiliary R278, pulse R159, R176, R178). -/
namespace Sys2Proof.Machine

/-! ### Lanes -/

/-- Lane of output `o`. -/
def laneAt (s : State) (o : Nat) : Lane := Tbl.get {} s.seq.lanes o

/-- Lane of output `o` changed by `f`. -/
def onLane (o : Nat) (f : Lane → Lane) (s : State) : State :=
  { s with seq := { s.seq with lanes := Tbl.set {} s.seq.lanes o (f (laneAt s o)) } }

/-- The lane of output `o` rises for the event of serial `x` (0 for a pulse); a lane already ON stays ON and the new frame is
released to the drive die (drive R212). -/
def laneOn (o x : Nat) (s : State) : State :=
  if (laneAt s o).on then (if o < 36 then chanAgain o x s else auxAgain (o - 36) x s)
  else
    let s := onLane o (fun l => { l with on := true, since := s.cyc }) s
    if o < 36 then chanOn o x s else auxOn (o - 36) x s

/-! ### Frames (drive R200, R201, R219, auxiliary R278) -/

/-- A tally pair sends the frame for the event of serial `x` on output `o`: on a channel whose sense is lost, its fallback
profile takes the place of `profile`. -/
def sendFrame (o x profile startPhase : Nat) (battery : Bool) (s : State) : State :=
  let fb := decide (o < 36) && (members s o).any (fun m => isSet s (DRV_CH_STAT_SENSE_LOST m))
    && isSet s (DRV_CH_CFG_FALLBACK_EN o)
  let slot := if 36 ≤ o then 0 else if fb then rd s (DRV_CH_CFG_FALLBACK_PROF o) else profile
  let gen := match profileOf s slot with
    | some p => p.gen
    | none => 0
  onPair (pairOf o) (fun p => { p with link := p.link ++
    [{ output := o, profile := slot, startPhase, battery, fallback := fb, serial := x, gen := if 36 ≤ o then 0 else gen }] }) s

/-! ### Pulse contexts and bindings -/

/-- Pulse resources of tally pair `p`. -/
def plsAt (s : State) (p : Nat) : PPair := Tbl.get {} s.pulse.pairs p

/-- Pulse resources of pair `p` changed by `f`. -/
def onPls (p : Nat) (f : PPair → PPair) (s : State) : State :=
  { s with pulse := { s.pulse with pairs := Tbl.set {} s.pulse.pairs p (f (plsAt s p)) } }

/-- Context `n`, 0 to 63; its pair is `n / 16`. -/
def ctxAt (s : State) (n : Nat) : PCtx := Tbl.get {} s.pulse.ctxs n

/-- The context runs: neither disabled nor halted. -/
def PCtx.runs (x : PCtx) : Bool := x.run != .disabled && x.run != .halted

/-- A context of pair `p` holds a cut step. -/
def cutStep (s : State) (p : Nat) : Bool :=
  (List.range 16).any (fun i => match (ctxAt s (16 * p + i)).run with
    | .ready g _ _ _ => g == 1
    | _ => false)

/-- Context `n` changed by `f`; `PLS_CTRL.RUNNING` and `PLS_STATUS.CUT_STEP` follow. -/
def onCtx (n : Nat) (f : PCtx → PCtx) (s : State) : State :=
  let x := f (ctxAt s n)
  let s := { s with pulse := { s.pulse with ctxs := Tbl.set {} s.pulse.ctxs n x } }
  let s := wrB (PLS_STATUS_CUT_STEP (n / 16)) (cutStep s (n / 16)) s
  wr (PLS_CTRL_RUNNING (n / 16)) (setBit (rd s (PLS_CTRL_RUNNING (n / 16))) (n % 16) x.runs) s

/-- The active bank of pair `p`. (log entry 5, DESIGN CHOICE) -/
def plsBank (s : State) (p : Nat) : PBank := if isSet s (PLS_CTRL_BANK p) then (plsAt s p).bank1 else (plsAt s p).bank0

/-- What the active image says of context `n`. -/
def bindOf (s : State) (n : Nat) : PBind := (plsBank s (n / 16)).binds.getD (n % 16) {}

/-- The output that target code `t` names, if it names one (Table 5-1). -/
def targetOut (t : Nat) : Option Nat :=
  if t < 36 then some t else if 0x40 ≤ t ∧ t < 0x50 then some (t - 0x40 + 36) else none

/-- The target code of output `o`. -/
def outTarget (o : Nat) : Nat := if o < 36 then o else o - 36 + 0x40

/-- The binding slot of an active image that names output `o`. -/
def slotOf (s : State) (o : Nat) : Option PSlot :=
  ((plsBank s (pairOf o)).binds.flatMap (fun b => b.slots)).find? (fun x => x.target == outTarget o)

/-- A pulse binding's frame of `SERIAL` 0 for output `o`; a halted pair sends none (pulse R159, drive R201). -/
def pulseFrame (o : Nat) (s : State) : State :=
  match slotOf s o with
  | some x => if (pairAt s (pairOf o)).halted then s else sendFrame o 0 x.profile 0 false s
  | none => s

/-- The lane of output `o` falls, with fast switch-off for a cut; `eligible` as in `chanOff`. The frame of the pulse binding that
names the output, if one does, is sent (pulse R159, drive R201). -/
def laneOff (o : Nat) (fast : Bool) (eligible : Option Bool) (s : State) : State :=
  if !(laneAt s o).on then s
  else
    let s := onLane o (fun l => { l with on := false, since := s.cyc, endAt := if fast then l.endAt else some s.cyc, holders := [], pulse := none }) s
    pulseFrame o (if o < 36 then chanOff o fast eligible s else auxOff (o - 36) s)

/-- Pulse stakes that satisfy `f` are withdrawn from pair `p`. -/
def dropStakes (p : Nat) (f : PStake → Bool) (s : State) : State :=
  if (plsAt s p).stakes.all (fun x => !f x.2) then s
  else onPls p (fun x => { x with stakes := x.stakes.filter (fun y => !f y.2) }) s

/-! ### Edges and levels of general pulse outputs (pulse R170, R171) -/

/-- Detector `d` sees its source at `level` in cycle `now`; a matching edge completes a wait of `kind` on it. -/
def Detector.see (d : Detector) (src now : Nat) (level : Bool) (kind : Option Nat) : Detector :=
  if d.source = some src ∧ d.level ≠ level then
    let fits : Bool := match kind with
      | some k => edgeKind k level
      | none => false
    if fits && d.hit.isNone then { d with level := level, edge := now, hit := some now } else { d with level := level }
  else d

/-- The kind of edge that context `x` awaits on detector `det` in cycle `now`. -/
def PCtx.awaits (x : PCtx) (det : Bool) (now : Nat) : Option Nat :=
  match x.wait with
  | some (.edge d k) => if d = det ∧ x.from_ ≤ now then some k else none
  | _ => none

/-- Source `src` of Table 5-3's WAITE stands at `level` from now on: every detector on it sees it. -/
def pulseLevel (src : Nat) (level : Bool) (s : State) : State :=
  { s with pulse := { s.pulse with ctxs := s.pulse.ctxs.map (fun (n, x) =>
    (n, { x with det0 := x.det0.see src s.cyc level (x.awaits false s.cyc), det1 := x.det1.see src s.cyc level (x.awaits true s.cyc) })) } }

/-- The pad of general pulse output `g` stands at `level` from now on. -/
def setPad (g : Nat) (level : Bool) (s : State) : State :=
  if bitOf s.pulse.pads g = level then s
  else pulseLevel (8 + g) level { s with pulse := { s.pulse with pads := setBit s.pulse.pads g level } }

/-- General pulse output `g` takes `level`, which its pad shows in a driving role (pairing R292). -/
def setGpo (g : Nat) (level : Bool) (s : State) : State :=
  let s := { s with pulse := { s.pulse with gpo := setBit s.pulse.gpo g level } }
  if driving s then setPad g level s else s

/-- The pads of the general pulse outputs: the present levels while the module drives them, and what `outside` puts on them while they
are at high impedance (pairing R292, R308). (log entry 53, DEDUCED) -/
def gpoPads (outside : Nat) (s : State) : State :=
  (List.range 24).foldl (fun s g => setPad g (bitOf (if driving s then s.pulse.gpo else outside) g) s) s

/-- Every pin of the timing die follows the role (pairing R292, R308, timers R343). A released pad keeps its level until it is told
another. (log entry 73, DEDUCED) -/
def drivePins (s : State) : State := gpoPads s.pulse.pads (pinsRefresh s)

/-! ### Driving a pulse target -/

/-- A pulse-driven output falls: only a lane that a pulse holds. (log entry 55, DEDUCED) -/
def pulseOutOff (o : Nat) (fast : Bool) (s : State) : State :=
  let l := laneAt s o
  if l.on ∧ l.pulse.isSome ∧ l.holders = [] then
    laneOff o fast (if fast then none else some false) s
  else s

/-- Target `t` is driven OFF. (log entry 55, DEDUCED) -/
def pulseOff (t : Nat) (fast : Bool) (s : State) : State :=
  match targetOut t with
  | some o => pulseOutOff o fast s
  | none => if 0x80 ≤ t ∧ t < 0x98 then setGpo (t - 0x80) false s else s

/-- Target `t` is driven ON by context `n`; an output already ON is left as it is (R176). -/
def pulseOn (t n : Nat) (s : State) : State :=
  match targetOut t with
  | some o => if (laneAt s o).on then s else laneOn o 0 (onLane o (fun l => { l with pulse := some n }) s)
  | none => if 0x80 ≤ t ∧ t < 0x98 then setGpo (t - 0x80) true s else s

/-- Target `t` is ON. -/
def pulseIsOn (s : State) (t : Nat) : Bool :=
  match targetOut t with
  | some o => (laneAt s o).on
  | none => decide (0x80 ≤ t) && bitOf s.pulse.gpo (t - 0x80)

/-! ### Stopping a context (pulse R178, R179, R183) -/

/-- R178's output action for context `n` under binding `b`. -/
def pulseTargetsOff (b : PBind) (s : State) : State := b.slots.foldl (fun s x => pulseOff x.target true s) s

/-- R178's actions on context `n`: halted, wake tokens and stakes withdrawn, its targets OFF. -/
def pulseHalt (n : Nat) (s : State) : State :=
  let s := dropStakes (n / 16) (fun x => x.ctx == n) s
  pulseTargetsOff (bindOf s n) (onCtx n (fun x => { x with run := .halted, wait := none, limit := none }) s)

/-- A context fault `code` of context `n` (R178, Table 5-10). -/
def pulseFault (code n : Nat) (s : State) : State :=
  let p := n / 16
  let ran := (bindOf s n).slots.any (fun x => pulseIsOn s x.target)
  let s := flagBit (PLS_STATUS_FAULTED p) (n % 16) s
  raise code (0x50 + p) (wd (n % 16)) (actHalt + if ran then actOff else 0) (pulseHalt n s)

/-- Every pulse resource on output `o` ends: lane OFF with fast switch-off, stakes withdrawn (pulse Table 5-7, grant withdrawn). -/
def pulseRelease (o : Nat) (s : State) : State :=
  pulseOutOff o true (dropStakes (pairOf o) (fun x => x.target == outTarget o) s)

/-- The output is cut by SAFETY: OFF, with ON and TOGGLE stakes withdrawn (pulse Table 5-7). -/
def pulseCut (o : Nat) (s : State) : State :=
  pulseOutOff o true (dropStakes (pairOf o) (fun x => x.target == outTarget o && (x.action == 1 || x.action == 2)) s)

/-- Loss of sync: every `SYNC_GATED` target falls, its ON and TOGGLE stakes withdrawn (pulse Table 5-7). -/
def pulseSyncLost (s : State) : State :=
  (List.range 4).foldl (fun s p =>
    ((plsBank s p).binds.flatMap (fun b => b.slots)).foldl (fun s x =>
      if x.gated then
        pulseOff x.target true (dropStakes p (fun y => y.target == x.target && (y.action == 1 || y.action == 2)) s)
      else s) s) s

end Sys2Proof.Machine
end

