-- ==== Sys2Proof/Machine/SeqOps.lean ====
section
/-! DEFINITION. Armed and running events: stakes and time wheels, a start and an end that fire, cuts, and what a loss of sync, a
reversal or a lost session does to them (architecture R19 to R21, wheel R62, R75, scheduling R132 to R148, drive R212). -/
namespace Sys2Proof.Machine

/-- Pace number of the present cycle (architecture R16). -/
def paceNow (s : State) : Nat := s.cyc / 100

/-- The chain at the snapshot of this pace. -/
def snapChain (s : State) : Nat := ofSigned 24 (chainAt s (100 * paceNow s) / unit)

/-- The rate at the snapshot of this pace, accumulator units per cycle. -/
def snapRate (s : State) : Nat :=
  match s.angle.courses.find? (fun c => decide (c.at_ ≤ 100 * paceNow s)) with
  | some c => c.step
  | none => 0

/-- The pace in which a stake for cycle `t` must be loaded (R121). -/
def loadPace (t : Nat) : Nat := t / 100 - 1

/-- A stage in which times are fixed. -/
def Stage.fixed (x : Stage) : Bool := x == .armed || x == .running

/-- A Sequencer event is Armed or Running on output `o`. -/
def seqHolds (s : State) (o : Nat) : Bool := s.seq.descs.any (fun p => p.2.output == o && p.2.stage.fixed)

/-! ### Overrun paces (architecture R21) -/

/-- Pace `p` is an overrun pace; it counts once. `F_0110` comes with the tenth of the window, and not where a pace that leaves the
window and one that enters it keep the number at ten. (log entry 42, DEDUCED) -/
def overrun (p : Nat) (s : State) : State :=
  if p ∈ s.seq.overruns then s
  else
    let n := s.seq.overruns.length
    let s := count SEQ_PACE_OVERRUN 1 { s with seq := { s.seq with overruns := p :: s.seq.overruns } }
    let s := wr SEQ_PACE_WINDOW_COUNT (n + 1) s
    if n = 9 ∧ s.seq.ovrHigh = false then
      flag SEQ_PACE_OVR_FAULT (raise 0x0110 0x65 0 0 { s with seq := { s.seq with ovrHigh := true } })
    else s

/-- Overrun paces that have left the window of 4,096 paces are forgotten. -/
def overrunAge (s : State) : State :=
  let l := s.seq.overruns.filter (fun p => decide (paceNow s < p + 4096))
  wr SEQ_PACE_WINDOW_COUNT l.length { s with seq := { s.seq with overruns := l } }

/-- The number of overrun paces at the end of this pace's microcode decides whether ten are reached anew (R21). -/
def overrunSettle (s : State) : State :=
  { s with seq := { s.seq with ovrHigh := decide (10 ≤ s.seq.overruns.length) } }

/-! ### Time wheels and stakes (R132, R136) -/

/-- The place in the time wheels of a start or end in cycle `t` (R132). -/
def timePlace (s : State) (t : Nat) : Place :=
  if loadPace t / 256 ≤ paceNow s / 256 + 31 then .fine (loadPace t) else .coarse (loadPace t)

/-- A free injection stake of pair `p`. -/
def freeStake (s : State) (p : Nat) : Option Nat :=
  (List.range 32).find? (fun k => (Tbl.find (pairAt s p).stakes k).isNone)

/-- Load a stake for the start or end of descriptor `i`, meant for cycle `meant`, to fire in `cycle`; false when no stake is
free. (log entries 40, DEDUCED, 41, DEDUCED) -/
def loadStake (i : Nat) (start : Bool) (cycle meant : Nat) (s : State) : Option State :=
  match desc s i with
  | none => none
  | some d =>
    match freeStake s d.pair with
    | none => none
    | some k =>
      some (onPair d.pair (fun p => { p with stakes := Tbl.insert p.stakes k ⟨i, start, cycle, meant⟩ })
        (setDesc i { d with place := .stake } s))

/-- The place in this pace's injection share of pair `p` where a stake that becomes due in mid-pace is loaded: after the work done,
not before the present cycle, while fewer than 16 loads are made and the load's 2 cycles fit (R136, R139). (log entry 96, DEDUCED) -/
def lateRoom (s : State) (p : Nat) : Option Nat :=
  let q := pairAt s p
  let mine := q.sharePace == some (paceNow s)
  let from_ := max (s.cyc % 100) (if mine then q.used else 8)
  if (if mine then q.loads else 0) < 16 ∧ from_ + 2 ≤ 60 ∧ (freeStake s p).isSome then some from_ else none

/-- Pair `p` has made one more load in this pace, up to cycle `used` of its share. (log entry 96, DEDUCED) -/
def spendLoad (p used : Nat) (s : State) : State :=
  let n := paceNow s
  onPair p (fun q => { q with sharePace := some n, loads := (if q.sharePace = some n then q.loads else 0) + 1, used }) s

/-- The end of descriptor `i` enters the time wheels (R132). One whose loading pace is not ahead is loaded in what this pace's share
has left; where nothing is left it waits for the next pace's loads, and a loading pace past its end is an overrun pace (R19, R21,
R136). (log entry 96, DEDUCED) -/
def placeEnd (i : Nat) (s : State) : State :=
  match desc s i with
  | none => s
  | some d =>
    let l := loadPace d.te
    if l ≤ paceNow s then
      let s := if l < paceNow s then overrun l s else s
      match lateRoom s d.pair with
      | none => setDesc i { d with place := .fine l } s
      | some x =>
        let s := spendLoad d.pair (x + 2) s
        match loadStake i false (max d.te (100 * paceNow s + x + 2)) d.te s with
        | some s => s
        | none => setDesc i { d with place := .fine l } s
    else setDesc i { d with place := timePlace s d.te } s

/-- The stakes and places of descriptor `i` are given up, its start and end no longer fire. -/
def unplace (i : Nat) (s : State) : State :=
  match desc s i with
  | none => s
  | some d => onPair d.pair (fun p => p.forget i) (setDesc i { d with place := .idle } s)

/-! ### Ends -/

/-- The drive die has reported that the event of serial `x` is over, and the report is still on its way. -/
def reported (s : State) (x : Nat) : Bool :=
  s.seq.reports.any (fun r => match r with
    | .tripped _ y _ _ _ => y == x
    | .truncated _ y _ _ => y == x
    | .boost _ y _ _ _ ended => ended && y == x
    | .noFrame _ y _ _ => y == x
    | .laneFault _ y _ => y == x)

/-- Cycles since lane ON. -/
def ranFor (s : State) (d : Desc) : Nat :=
  match d.onAt with
  | some t => s.cyc - t
  | none => 0

/-- Lateness of the event, or its slip (Table 4-10, N5). -/
def Desc.delay (d : Desc) : Nat := if d.late ≠ 0 then d.late else d.slip

/-- COMPLETED for descriptor `i`, which ends now. With its converter at work the notice waits for the measurement, and an event
that is its last keeps its descriptor until then (R146, closing R262). (log entry 40, DEDUCED) -/
def complete (i : Nat) (closing : Option Word) (s : State) : State :=
  match desc s i with
  | none => s
  | some d =>
    if d.frozen s then s
    else
      let a : NoteArgs :=
        { type := ntCompleted, energised := ranFor s d, endErr := signed 24 (chain s + turn - d.endAngle), delay := d.delay
          closing := closing.getD (closingWithout s d.output d false) }
      let s := if d.output < 36 then { s with angle := { s.angle with lastInjection := some (rd s SEQ_CYCLE_CYCLE, chain s) } } else s
      if closing.isNone && decide (d.output < 36) && awaits s d.output d.serial then
        let n := noteOf s i d { a with freed := d.endsHere }
        let s := { s with seq := { s.seq with waiting := s.seq.waiting ++
          [⟨d.output, d.serial, n, if d.endsHere then some i else none⟩] } }
        if d.endsHere then unplace i s else requeue i s
      else
        endWith i a s

/-- R269's test for the event of `d`. -/
def trimEligible (s : State) (d : Desc) : Bool :=
  !d.noTrim && !d.merged && !bitOf d.note flHold && !bitOf d.note flTruncated && !bitOf d.note flFallback &&
    cdField s d.output (CD_CFG_TRIM_EN d.output) == 1

/-- The end stake of descriptor `i` fires, or a kept event's own end comes: the lane falls, and every event that holds it is
COMPLETED (R136, drive Table 6-7). An event whose end the drive die has reported keeps that report's notice. -/
def fireEnd (i : Nat) (s : State) : State :=
  match desc s i with
  | none => s
  | some d =>
    let o := d.output
    let hs := (laneAt s o).holders
    let s := unplace i s
    if i ∉ hs then s
    else
      let s := if o < 36 then onChan o (fun x => { x with serial := if x.ended then x.serial else d.serial }) s else s
      let s := laneOff o false (some (trimEligible s d)) s
      hs.foldl (fun s j =>
        match desc s j with
        | none => s
        | some e =>
          if reported s e.serial then unplace j s
          else if j = i then complete j none s
          else
            complete j (if o < 36 then some (closingWord s o 5 0 0) else none) s) s

/-- Descriptor `i` no longer holds its lane: the lane falls with fast switch-off unless a kept event holds it, whose own end
then counts (drive R212). -/
def unhold (i : Nat) (s : State) : State :=
  match desc s i with
  | none => s
  | some d =>
    let hs := (laneAt s d.output).holders
    if i ∉ hs then s
    else
      let rest := hs.filter (fun j => j != i)
      if rest = [] then laneOff d.output true none s
      else
        rest.foldl (fun s j =>
          match desc s j with
          | some e => if e.place = .idle then placeEnd j s else s
          | none => s) (onLane d.output (fun l => { l with holders := rest }) s)

/-- Armed or Running descriptor `i` ends now with a notice of `type` and `reason`: withdrawn, or its lane lowered. -/
def cutEvent (i type reason : Nat) (s : State) : State :=
  match desc s i with
  | none => s
  | some d =>
    if d.frozen s then s
    else
      let word := closingWithout s d.output d true
      endWith i { type, reason, energised := ranFor s d, delay := d.delay, closing := word } (unhold i (unplace i s))

/-- Every Armed or Running descriptor that satisfies `f` ends with a notice of `type`. -/
def cutAll (f : Desc → Bool) (type reason : Nat) (s : State) : State :=
  (s.seq.descs.filter (fun p => p.2.stage.fixed && f p.2)).foldl (fun s p => cutEvent p.1 type reason s) s

/-! ### Starts -/

/-- The events that hold the lane of `o` when the event of `d` starts: under native restart each is COMPLETED now, under KY1610
hold extension the latest end stays (drive Table 6-7). -/
def mergeHolders (o i te : Nat) (s : State) : State :=
  let hs := (laneAt s o).holders
  let ended := hs.filter (fun j => match desc s j with
    | some e => reported s e.serial
    | none => true)
  let live := hs.filter (fun j => j ∉ ended)
  let s := ended.foldl (fun s j => unplace j s) s
  if live ≠ [] ∧ o < 36 ∧ extends_ s o then
    let last := live.foldl (fun a j => match desc s j with
      | some e => if a.2 < e.te then (j, e.te) else a
      | none => a) (i, te)
    let s := live.foldl (fun s j => if j = last.1 then onDesc j (fun e => { e with merged := true }) s
      else unplace j (onDesc j (fun e => { e with merged := true }) s)) s
    onLane o (fun l => { l with holders := live ++ [i] })
      (onDesc i (fun e => { e with merged := true }) (if last.1 = i then s else unplace i s))
  else
    let s := live.foldl (fun s j => match desc s j with
      | some e =>
        let s := if o < 36 ∧ cdField s o (CD_CFG_ENABLE o) = 1 then count (CD_COUNT_NOT_SAMPLED o) 1 (unplace j s)
          else unplace j s
        complete j (if o < 36 ∧ cdField s o (CD_CFG_ENABLE o) = 1 then some (closingWord s o 1 3 0)
          else some (closingWithout s o e false)) s
      | none => s) s
    onLane o (fun l => { l with holders := [i] }) (if live = [] then s else onDesc i (fun e => { e with merged := true }) s)

/-- t_e of an event with start `ts` and trim `t`: its duration with the trim is at least one cycle (R131, closing R272). -/
def trimmedEnd (ts : Nat) (d : Desc) (t : Int) : Nat := max (ts + 1) (((ts + d.duration : Nat) : Int) + t).toNat

/-- The start of descriptor `i` fires now: LATE where it is late, the lane rises or is taken over, and its end is placed (R19,
R133, R136, R137, drive R212, pulse R177). (log entry 40, DEDUCED) -/
def fireStart (i : Nat) (s : State) : State :=
  match desc s i with
  | none => s
  | some d =>
    let o := d.output
    let s := onPair d.pair (fun p => p.forget i) s
    let te := if d.toothLocked then trimmedEnd s.cyc d d.trim else d.te
    let note := if d.late = 0 then d.note else setBit d.note flLate true
    let s := setDesc i { d with stage := .running, onAt := some s.cyc, te, note, startTime := if d.toothLocked then s.cyc else d.startTime } s
    let s := if d.late = 0 then s else sendNote i { type := ntLate, delay := d.late } (maxTo SEQ_MAX_LATE_MAX d.late s)
    let s := placeEnd i s
    let l := laneAt s o
    let s := if !l.on then onLane o (fun l => { l with holders := [i], pulse := none }) s
      else if l.holders = [] then
        let s := dropStakes d.pair (fun x => x.target == outTarget o) (onDesc i (fun e => { e with merged := true }) s)
        onLane o (fun l => { l with holders := [i], pulse := none }) s
      else mergeHolders o i te s
    laneOn o d.serial (beginReserved o d.serial s)

/-- A start or end stake of descriptor `i` fires `late` cycles after the cycle it was meant for (R19, R20). -/
def fireStake (x : Stake) (s : State) : State :=
  if x.start then fireStart x.desc s
  else
    let late := s.cyc - x.meant
    let s := if late = 0 then s
      else
        let s := onDesc x.desc (fun d => { d with note := setBit d.note flLate true, late := d.late + late }) s
        sendNote x.desc { type := ntLate, delay := late } (maxTo SEQ_MAX_LATE_MAX late s)
    fireEnd x.desc s

/-! ### Failed checks (architecture R24) -/

/-- The check at `hop` fails on descriptor `i`: withdrawn with SUPPRESSED, a running event's lane lowered at once. -/
def suppress (i hop code : Nat) (s : State) : State :=
  match desc s i with
  | none => s
  | some d =>
    let act := actEvent + if d.onAt.isSome then actOff else 0
    let s := raise code (outSource d.output) (hopDetail s d.serial hop) act s
    cutEvent i ntSuppressed hop (onDesc i (fun d => if hop = 3 then { d with lastOne := true } else d) s)

/-! ### Loss of sync, reversal (wheel R62, R63, R75) -/

/-- Near descriptors return to the angle wheel. (log entry 43, DEDUCED) -/
def nearToWheel (f : Desc → Bool) (s : State) : State :=
  (s.seq.descs.filter (fun p => p.2.stage == .near && f p.2 && !p.2.frozen s)).foldl (fun s p =>
    setDesc p.1 { p.2.updated with stage := .waiting, place := reviewPlace s p.2.updated }
      (onPair p.2.pair (fun q => q.forget p.1) s)) s

/-- Events at a loss of sync whose coast window ends at cycle `coast` (wheel Table 2-11, pulse Table 5-7). -/
def seqSyncLost (coast : Frac) (s : State) : State :=
  let s := cutAll (fun d => (d.toothLocked && d.stage == .armed) || !(Frac.int d.te).le coast) ntCutSync 0 s
  let s := nearToWheel (fun _ => true) s
  let s := (List.range 4).foldl (fun s p => onPair p (fun q => { q with reviews := [], recompute := [] }) s) s
  pulseSyncLost { s with seq := { s.seq with slot := none } }

/-- A change of direction in PHASED ends every Armed and Running event (wheel R62, R63). (log entry 27, DEDUCED) -/
def seqReversed (s : State) : State := cutAll (fun _ => true) ntCutReverse 0 s

/-! ### A lost session (host link Table 13-6c) -/

/-- FINISH: Armed and Running events of client `c` complete and are freed; the others are freed at once. -/
def seqFinish (c : Nat) (s : State) : State :=
  (s.seq.descs.filter (fun p => p.2.client == c)).foldl (fun s p =>
    if p.2.stage.fixed then onDesc p.1 (fun d => { d with lastOne := true }) s
    else endWith p.1 { type := ntCutSafety, reason := 1 } (onDesc p.1 (fun d => { d with lastOne := true }) s)) s

/-- CUT: every descriptor of client `c` is ended and freed. -/
def seqCut (c : Nat) (s : State) : State :=
  (s.seq.descs.filter (fun p => p.2.client == c)).foldl (fun s p =>
    let s := onDesc p.1 (fun d => { d with lastOne := true }) s
    if p.2.stage.fixed then cutEvent p.1 ntCutSafety 1 s else endWith p.1 { type := ntCutSafety, reason := 1 } s) s

/-- Pulse contexts of the pairs that client `c` owns stop, as by `PULSE_STOP (0x0153)`. -/
def plsStopOwned (c : Nat) (s : State) : State :=
  (List.range 64).foldl (fun s n =>
    if rd s (PLS_CTRL_OWNER (n / 16)) = c ∧ (ctxAt s n).runs then pulseHalt n s else s) s

/-! ### Holding and naming -/

/-- Client `c` holds a descriptor (host link R391). -/
def holdsDescriptor (s : State) (c : Nat) : Bool := s.seq.descs.any (fun p => p.2.client == c)

/-- A descriptor of client `c` names output `o`, in any stage, bank or set (host link R392). -/
def ownerNamesOutput (s : State) (c o : Nat) : Bool :=
  s.seq.descs.any (fun p => p.2.client == c && p.2.output == o)

/-- The grant of output `o` is withdrawn: a pulse-driven lane falls and its stakes go (pulse Table 5-7). -/
def grantWithdrawn (o : Nat) (s : State) : State := pulseRelease o s

/-! ### A halted tally pair (architecture R30) -/

/-- The outputs of tally pair `p` (architecture Table 1-7). -/
def pairOutputs (p : Nat) : List Nat := (List.range 52).filter (fun o => pairOf o == p)

/-- Tally pair `p` halts: its outputs fall through their lanes, and nothing of it runs on. The notices that wait for a closing
measurement are not sent, and their descriptors stay (architecture R30). -/
def haltPair (p : Nat) (s : State) : State :=
  let s := { s with seq := { s.seq with waiting := s.seq.waiting.filter (fun x => pairOf x.channel != p) } }
  let s := onPair p (fun q => { q with halted := true, stakes := [], tooth := [], reviews := [], recompute := [] }) s
  let s := (pairOutputs p).foldl (fun s o => laneOff o false none s) s
  let s := (List.range 6).foldl (fun s g => setGpo (6 * p + g) false s) s
  let s := (List.range 16).foldl (fun s n =>
    if (ctxAt s (16 * p + n)).runs then onCtx (16 * p + n) (fun x => { x with run := .halted, wait := none, limit := none }) s else s) s
  onPls p (fun q => { q with stakes := [] }) s

end Sys2Proof.Machine
end

