-- ==== Sys2Proof/Machine/Conflict.lean ====
section
/-! DEFINITION. Conflicts between events at arming: banks, boost supplies, tooth stakes (scheduling R141 to R143, drive R190,
R194, protection R237, R238). -/
namespace Sys2Proof.Machine

/-- Start and end of an event as they stand or as predicted. -/
structure Span where
  ts : Nat
  te : Nat
  deriving DecidableEq, Repr

/-- A predicted time as a cycle: not before 0. -/
def cycleOf (t : Frac) : Nat := t.round.toNat

/-- The span of a stored descriptor: fixed when Armed or Running, predicted when Near (R124, R131). -/
def spanOf (s : State) (w : Wheel) (d : Desc) : Span :=
  if d.stage = .running then ⟨d.onAt.getD d.ts, d.te⟩
  else if d.stage = .armed ∧ !d.toothLocked then ⟨d.ts, d.te⟩
  else
    let t := cycleOf (timeOf s w d.start)
    ⟨t, t + d.duration⟩

/-- The boost window of `d` in cycles; 0 for an auxiliary output and for an event that runs from battery (R141). -/
def Desc.boostTime (s : State) (d : Desc) : Nat :=
  if 36 ≤ d.output ∨ bitOf d.note flDegraded then 0 else boostWindow (profileWords s d.profile)

/-- The other Armed, Running and Near events on outputs for which `f` holds (R142). -/
def rivals (s : State) (i o : Nat) (f : Nat → Bool) : List Desc :=
  (s.seq.descs.filter (fun p => p.1 != i && p.2.stage != .waiting && p.2.output != o && f p.2.output && !p.2.frozen s)).map
    (fun p => p.2)

/-- `d` yields to `r`: `r` ranks higher, or is already Armed or Running (R142). -/
def yieldsTo (d r : Desc) : Bool := r.stage.fixed || outranks r.cls r.serial d.cls d.serial

/-- Bit 7 of `REASON`: every event that displaces `d` ranks below it (`ARMED_FIRST`, Table 4-8). (log entry 43, DEDUCED) -/
def armedFirst (d : Desc) (l : List Desc) : Nat :=
  if l.any (fun r => outranks r.cls r.serial d.cls d.serial) then 0 else 128

/-! ### Banks -/

/-- With spans `a` and `b` and boost windows `x` and `y`, the boost window of either overlaps the other's energised interval. -/
def bankMeets (a : Span) (x : Nat) (b : Span) (y : Nat) : Bool :=
  (decide (0 < x) && spansMeet a.ts (a.ts + x) b.ts b.te) || (decide (0 < y) && spansMeet b.ts (b.ts + y) a.ts a.te)

/-- A span delayed by `n` cycles. -/
def Span.shift (a : Span) (n : Nat) : Span := ⟨a.ts + n, a.te + n⟩

/-- The bank slip limit of the bank of channel `c` in cycles (drive R194). -/
def slipLimit (s : State) (c : Nat) : Nat := 400 * (if c < 32 then s.seq.slips.1 else s.seq.slips.2)

/-- The smallest delay within `limit` that clears `a` of every rival; none where there is none. -/
def bankDelay (a : Span) (x limit : Nat) (l : List (Span × Nat)) : Option Nat :=
  let clear (n : Nat) : Bool := l.all (fun r => !bankMeets (a.shift n) x r.1 r.2)
  let tries := 0 :: l.flatMap (fun r => [r.1.te - a.ts, r.1.ts + r.2 - a.ts])
  (tries.filter (fun n => decide (n ≤ limit) && clear n)).foldl (fun b n => some (match b with
    | none => n
    | some m => min m n)) none

/-! ### Boost supplies (protection R237, R238) -/

/-- 0.5 × `CBANK` × V² in µJ, for V in volts. -/
def bankEnergy (s : State) (b : Nat) (v : Frac) : Frac := (Frac.make (rd s (BST_CAP_CBANK b)) 2).mul (v.mul v)

/-- P_R in µJ per cycle: min(60 W, 0.45 × VBAT × `ILIM`). -/
def rechargePower (s : State) (b : Nat) : Frac :=
  let p := Frac.make (45 * s.drive.vbat * rd s (BST_CFG_ILIM b) : Nat) 1000
  (if p.lt (Frac.int 60) then p else Frac.int 60).mul (Frac.make 1 400)

/-- The higher-ranked events on controller `b` whose boost windows begin before `t` and end after the decision. -/
def drawers (s : State) (t : Nat) (l : List (Desc × Span)) : List (Desc × Span) :=
  l.filter (fun r => decide (0 < r.1.boostTime s) && decide (r.2.ts < t) && decide (s.cyc < r.2.ts + r.1.boostTime s))

/-- ΣG_j of those events. -/
def drawSum (s : State) (b : Nat) (l : List (Desc × Span)) : Nat := l.foldl (fun a r => a + drawOf s r.1.profile b) 0

/-- t_first of R238. -/
def firstDraw (s : State) (l : List (Desc × Span)) : Nat :=
  max s.cyc (l.foldl (fun a r => match a with
    | none => some r.2.ts
    | some m => some (min m r.2.ts)) none |>.getD s.cyc)

/-- E(t) of R238 in µJ, with draws of `g` in all and the first at `first`. -/
def energyAt (s : State) (b t first g : Nat) : Frac :=
  let set := bankEnergy s b (Frac.int (rd s (BST_CFG_VSET b)))
  let now := bankEnergy s b (Frac.make (vcap s b) 10)
  let e := (now.sub (Frac.int g)).add ((rechargePower s b).mul (Frac.int ((t : Int) - first)))
  if e.lt set then e else set

/-- 0.5 × `CBANK` × V_ready². -/
def readyEnergy (s : State) (b : Nat) : Frac :=
  bankEnergy s b (Frac.make (rd s (BST_CFG_READY b) * rd s (BST_CFG_VSET b) : Nat) 64)

/-- The draws of the events in `l` leave controller `b` short at `t`, and it would not be short without them (R238). -/
def boostShort (s : State) (b t : Nat) (l : List (Desc × Span)) : Bool :=
  let ds := drawers s t l
  let first := firstDraw s ds
  (energyAt s b t first (drawSum s b ds)).lt (readyEnergy s b) && !(energyAt s b t first 0).lt (readyEnergy s b)

/-- The first cycle from `t` on at which controller `b` is predicted ready; draws that begin meanwhile count. -/
def rechargeTime (s : State) (b : Nat) (l : List (Desc × Span)) : Nat → Nat → Option Nat
  | 0, _ => none
  | n + 1, t =>
    let ds := drawers s t l
    let g := drawSum s b ds
    let first := firstDraw s ds
    if !(energyAt s b t first g).lt (readyEnergy s b) then some t
    else
      let p := rechargePower s b
      if p.num ≤ 0 then none
      else
        let lack := (readyEnergy s b).sub ((bankEnergy s b (Frac.make (vcap s b) 10)).sub (Frac.int g))
        rechargeTime s b l n (max (t + 1) ((first : Int) + (Frac.div lack p).ceil).toNat)

/-! ### Decisions (Table 4-8) -/

/-- What Table 4-8 decides for an event at its arming: run after a delay, with the notices of its rows, or not run, with one. A
notice is reason, outcome and delay. -/
structure Decision where
  run : Bool
  delay : Nat := 0
  battery : Bool := false
  notes : List (Nat × Nat × Nat) := []
  deriving DecidableEq, Repr

/-- Reasons of DISPLACED. -/
def rsBank : Nat := 1
def rsBoost : Nat := 2
def rsTooth : Nat := 3

/-- The occurrence is not run. -/
def skipped (reason : Nat) : Decision := { run := false, notes := [(reason, ocSkipped, 0)] }

/-- The bank rows for event `d` with span `a` (drive R190, R194). -/
def decideBank (s : State) (w : Wheel) (i : Nat) (d : Desc) (a : Span) : Decision :=
  let o := d.output
  if o < 28 ∨ 36 ≤ o then { run := true }
  else
    let l := (rivals s i o (fun c => c ∈ bankOf o)).filter (yieldsTo d)
    let spans := l.map (fun r => (spanOf s w r, r.boostTime s))
    let hit := l.filter (fun r => bankMeets a (d.boostTime s) (spanOf s w r) (r.boostTime s))
    if hit = [] then { run := true }
    else
      let reason := rsBank + armedFirst d hit
      if d.toothLocked then skipped reason
      else match bankDelay a (d.boostTime s) (slipLimit s o) spans with
        | some n => { run := true, delay := n, notes := [(reason, ocSlipped, n)] }
        | none => skipped reason

/-- The boost rows for event `d` with span `a`, on top of what the bank rows left. A start that is delayed for recharge and then meets
a bank conflict is skipped with that row's reason. (log entry 97, DESIGN CHOICE) -/
def decideBoost (s : State) (w : Wheel) (i : Nat) (d : Desc) (a : Span) (x : Decision) : Decision :=
  let o := d.output
  if !x.run ∨ d.boostTime s = 0 then x
  else
    let b := boostOf o
    let l := ((rivals s i o (fun c => decide (c < 36) && boostOf c == b)).filter (yieldsTo d)).map (fun r => (r, spanOf s w r))
    let t := a.ts + x.delay
    if !boostShort s b t l then x
    else
      let p := profileWords s d.profile
      let reason := rsBoost + armedFirst d ((drawers s t l).map (fun r => r.1))
      if boostPolicy p = 1 then { x with battery := true, notes := x.notes ++ [(reason, ocDegraded, 0)] }
      else if boostPolicy p = 2 ∨ d.toothLocked then skipped reason
      else match rechargeTime s b l (l.length + 2) t with
        | none => skipped reason
        | some u =>
          if boostWait p < u - t then skipped reason
          else
            let n := u - a.ts
            let again := decideBank s w i d (a.shift n)
            if again.run ∧ again.delay = 0 then
              { x with delay := n, notes := x.notes ++ [(reason, ocSlipped, u - t)] }
            else skipped (match again.notes with
              | (r, _, _) :: _ => r
              | [] => rsBank)

/-- A tooth-locked event needs a tooth stake and finds all eight of its pair taken, or due to higher-ranked events with which it
would be loaded together (R142). -/
def toothStakesShort (s : State) (i : Nat) (d : Desc) : Bool :=
  let back := reversed s
  let held := (pairAt s d.pair).tooth.length
  let near := (s.seq.descs.filter (fun p => p.1 != i && p.2.pair == d.pair && p.2.stage == .near && p.2.toothLocked &&
    outranks p.2.cls p.2.serial d.cls d.serial &&
    (reached s p.2.arm || decide (ahead back (chain s) p.2.arm < ahead back (chain s) d.start)))).length
  decide (8 ≤ held + near)

/-- Every row of Table 4-8 for descriptor `i` at its arming, with the span that R133 leaves. (log entry 43, DEDUCED) -/
def decide4_8 (s : State) (w : Wheel) (i : Nat) (d : Desc) (a : Span) : Decision :=
  if d.toothLocked ∧ toothStakesShort s i d then
    let holders := (pairAt s d.pair).tooth.filterMap (fun x => desc s x.2)
    skipped (rsTooth + if holders.length = 8 then armedFirst d holders else 0)
  else if 36 ≤ d.output then { run := true }
  else decideBoost s w i d a (decideBank s w i d a)

end Sys2Proof.Machine
end

