-- ==== Sys2Proof/Machine/Arming.lean ====
section
/-! DEFINITION. The injection microcode of a tally pair: stake loads, arming, slot reviews, near-list recompute, coarse moves, and
its 60 cycles of each pace (scheduling R123 to R145, architecture R17 to R21). -/
namespace Sys2Proof.Machine

/-! ### Which descriptors take part (R126, R149 to R151, wheel R62, R63) -/

/-- The astern set is in use. -/
def asternSet (s : State) : Bool := isSet s WHL_STATUS_ASTERN

/-- `SEQ_CYCLE` as it will stand when the chain reaches angle `a`. -/
def cycleAt (s : State) (a : Nat) : Nat :=
  let back := reversed s
  let d := ahead back (chain s) a
  let ended := if back then decide (chain s < d) else decide (turn ≤ chain s + d)
  rd s SEQ_CYCLE_CYCLE + if d < turn / 2 ∧ ended then 1 else 0

/-- The bank of client `c`'s set that is active in cycle `n` (R149, R151). -/
def bankIn (s : State) (c : Nat) (astern : Bool) (n : Nat) : Nat :=
  let (act, pend, at_) := if astern then (CLI_BANK_ASTERN_ACTIVE c, CLI_BANK_ASTERN_PEND c, CLI_SWITCH_ASTERN_CYCLE c)
    else (CLI_BANK_AHEAD_ACTIVE c, CLI_BANK_AHEAD_PEND c, CLI_SWITCH_AHEAD_CYCLE c)
  if isSet s pend && decide (rd s at_ ≤ n) then 1 - rd s act else rd s act

/-- `d` belongs to the active bank and set for the cycle in which angle `arm` falls. -/
def inUse (s : State) (d : Desc) (arm : Nat) : Bool :=
  d.astern == asternSet s && d.bank == bankIn s d.client d.astern (cycleAt s arm)

/-- The module arms events: PHASED, not in reverse on an engine that does not reverse, beyond a reversal angle, below the
overspeed limit, and in cam limp only where the wheel description lets it (wheel R62, R69, R72). -/
def armsEvents (s : State) (w : Wheel) : Bool :=
  phased s && (w.reversible || !reversed s) && s.angle.reversal.isNone && !s.angle.fast && (!limping s || w.limpEvents)

/-- Descriptors on the near list of pair `p`. -/
def nearOf (s : State) (p : Nat) : List (Nat × Desc) :=
  s.seq.descs.filter (fun x => x.2.pair == p && x.2.stage == .near)

/-! ### Lateness -/

/-- An event is DROPPED with `reason` (R20, R133): at most one `F_0111` per cycle. -/
def dropEvent (i reason : Nat) (s : State) : State :=
  match desc s i with
  | none => s
  | some d =>
    endWith i { type := ntDropped, reason, closing := closingWithout s d.output d true }
      (raisePerCycle 0x0111 0 (outSource d.output) 0 actEvent (unplace i s))

/-! ### Arming (R130 to R137, R142 to R145) -/

/-- Send the notices of a conflict decision. -/
def sendNotes (i : Nat) (l : List (Nat × Nat × Nat)) (s : State) : State :=
  l.foldl (fun s (r, o, n) => sendNote i { type := ntDisplaced, reason := r, outcome := o, delay := n } s) s

/-- The trim that the event of `d` receives if it arms now (R131, closing R268, R271). -/
def armTrim (s : State) (d : Desc) : Int := if d.output < 36 ∧ !d.noTrim then (trimForArming d.output s).1 else 0

/-- Descriptor `i` is Armed with start `ts`, unless the trim's two halves differ (closing R267, architecture Table 1-6 hop 4): the trim is added, the converter reserved, the frame sent, and the start placed
(R131, R137, closing R263, R271, drive R201). -/
def commitArm (i ts late slip : Nat) (battery : Bool) (s : State) : State :=
  match desc s i with
  | none => s
  | some d =>
    if d.output < 36 ∧ !d.noTrim ∧ !trimSound s d.output then suppress i 4 0x0204 s else
    let (t, s) := if d.output < 36 ∧ !d.noTrim then trimForArming d.output s else (0, s)
    let te := trimmedEnd ts d t
    let note := setBit (setBit (setBit d.note flTrimmed (t != 0)) flSlipped (decide (0 < slip))) flDegraded battery
    let d := { d with stage := .armed, ts, te, late, slip, trim := t, note, startTime := ts }
    let d := { d with place := if d.toothLocked then .stake else timePlace s ts }
    let s := setDesc i d s
    let s := if d.toothLocked then
        match (List.range 8).find? (fun k => (Tbl.find (pairAt s d.pair).tooth k).isNone) with
        | some k => onPair d.pair (fun p => { p with tooth := Tbl.insert p.tooth k i }) s
        | none => s
      else s
    let s := sendFrame d.output d.serial d.profile 0 battery (reserveConverter i d s)
    if d.notifyArm then sendNote i { type := ntArmed } s else s

/-- The conflict decision for descriptor `i` at start `ts`, then arming or the skipped occurrence (R142, R143).
(log entries 43, DEDUCED, 97, DESIGN CHOICE) -/
def resolveArm (w : Wheel) (i ts late : Nat) (s : State) : State :=
  match desc s i with
  | none => s
  | some d =>
    let x := decide4_8 s w i d ⟨ts, trimmedEnd ts d (armTrim s d)⟩
    if x.run then commitArm i (ts + x.delay) late x.delay x.battery (sendNotes i x.notes s)
    else
      let (r, o) := match x.notes with
        | (r, o, _) :: _ => (r, o)
        | [] => (0, ocSkipped)
      endWith i { type := ntDisplaced, reason := r, outcome := o } s

/-- A start at `ts` does not fit in the time wheels yet (R132, R134). -/
def tooFar (s : State) (ts : Nat) : Bool :=
  decide (paceNow s + 2097151 < ts / 100) || decide (paceNow s / 256 + 8191 < loadPace ts / 256)

/-- An arming more than one slot past the arm angle is counted and told (R130). -/
def countBacklog (d : Desc) (s : State) : State :=
  if 1024 < ahead (reversed s) d.arm (chain s) then
    flag SEQ_STATUS_BACKLOG (raisePerCycle 0x0112 0 (outSource d.output) 0 0 (count SEQ_EVT_CNT2_BACKLOG 1 s))
  else s

/-- The tally pair arms Near descriptor `i`, whose arm angle is reached (R130 to R134, R145). -/
def armDesc (w : Wheel) (i : Nat) (s : State) : State :=
  match desc s i with
  | none => s
  | some d =>
    if bitOf s.seq.inhibit d.output ∧ d.cls = 1 then endWith i { type := ntCutSafety } s
    else
      let ts := cycleOf (timeOf s w d.start)
      if !d.toothLocked && tooFar s ts then s
      else
        let s := countBacklog d s
        let first := 100 * (paceNow s + 1)
        if d.toothLocked ∨ first ≤ ts then resolveArm w i ts 0 s
        else if 100 * d.lateLim < first - ts then dropEvent i 0x11 s
        else resolveArm w i first (first - ts) s

/-- Descriptor `d` is due to arm: its arm angle is reached, and its bank is active now (R130, R151). -/
def armDue (s : State) (d : Desc) : Bool :=
  reached s d.arm && d.astern == asternSet s && d.bank == bankIn s d.client d.astern (rd s SEQ_CYCLE_CYCLE)

/-! ### Review and recompute (R126 to R129) -/

/-- The slot that will be dequeued next. (log entry 44, DEDUCED) -/
def nextSlot (s : State) : Nat :=
  let k := s.seq.slot.getD (chain s / 1024)
  if reversed s then (k + 16383) % 16384 else (k + 1) % 16384

/-- Slots from slot `k` to slot `n` in the direction of rotation. -/
def slotGap (back : Bool) (k n : Nat) : Nat := if back then (k + 16384 - n) % 16384 else (n + 16384 - k) % 16384

/-- The order of a slot's queue, as numbers compared in turn: how far back from slot `n`, dequeued last, the slot lies, then the
review angle, taken from half a cycle before the slot on, the class and the serial (R122). (log entry 99, DEDUCED) -/
def queueKey (back : Bool) (n : Nat) (d : Desc) : List Nat :=
  match d.place with
  | .angle k a =>
    [16384 - slotGap back k n, ahead back ((1024 * k + turn / 2) % turn) a, d.cls, d.serial]
  | _ => [0, 0, d.cls, d.serial]

/-- Not after, number by number. (log entry 99, DEDUCED) -/
def keyLe : List Nat → List Nat → Bool
  | a :: l, b :: m => decide (a < b) || (a == b && keyLe l m)
  | _, _ => true

/-- Insertion of `x` into a list sorted by `le`. -/
def insertBy {α : Type} (le : α → α → Bool) (x : α) : List α → List α
  | [] => [x]
  | y :: ys => if le x y then x :: y :: ys else y :: insertBy le x ys

/-- The list sorted by `le`; equal elements keep their order. -/
def sortBy {α : Type} (le : α → α → Bool) (l : List α) : List α := l.foldr (insertBy le) []

/-- Descriptor `i` stands in a slot that is dequeued: it joins its pair's reviews, the oldest slot first, in the order of the slot's
queue (R122, R123, R139). -/
def queueReview (n i : Nat) (s : State) : State :=
  match desc s i with
  | none => s
  | some d =>
    let key := fun j => match desc s j with
      | some e => queueKey (reversed s) n e
      | none => []
    onPair d.pair (fun q =>
      if i ∈ q.reviews then q
      else { q with reviews := insertBy (fun a b => keyLe (key a) (key b) && a != b) i q.reviews }) s

/-- Descriptor `i` of slot `k` is inserted again in slot `m` with review angle `a`. A slot that the chain has passed since, as after a
jump, is dequeued after `k` in its turn and reviews it again (R123, R126, R128). -/
def reinsert (i k m a : Nat) (s : State) : State :=
  let s := onDesc i (fun d => { d with place := .angle m a }) s
  match s.seq.slot with
  | none => s
  | some n =>
    let x := slotGap (reversed s) k m
    if 0 < x ∧ x ≤ slotGap (reversed s) k n ∧ slotGap (reversed s) k n ≤ 8192 then queueReview n i s else s

/-- R129: the offset is too long at the present prediction. (log entry 43, DEDUCED) -/
def dropLong (i : Nat) (s : State) : State := endWith i { type := ntDropped, reason := 0x12 } s

/-- Review descriptor `i` of a dequeued slot `k` (R126, R128, R141). -/
def review (w : Wheel) (i : Nat) (s : State) : State :=
  match desc s i with
  | none => s
  | some d =>
    match d.place with
    | .angle k a =>
      let d := { d with cls := if isSafety s d.client then 0 else 1 }
      let s := setDesc i d s
      match anglesOf s w d with
      | none => if d.astern == asternSet s && d.bank == bankIn s d.client d.astern (rd s SEQ_CYCLE_CYCLE) then dropLong i s else s
      | some (start, arm) =>
        if !inUse s d arm then s
        else
          let back := reversed s
          let far := if back then 1024 * k else 1024 * (k + 1) % turn
          let x := ahead back far arm
          if reviewDistance s w ≤ x ∧ x < turn / 2 then
            let a := before d.astern arm (reviewDistance s w)
            reinsert i k (a / 1024) a s
          else if 64 ≤ (nearOf s d.pair).length then
            let s := reinsert i k (if back then (k + 16383) % 16384 else (k + 1) % 16384) a s
            flag SEQ_STATUS_NEAR_FULL (raisePerCycle 0x0113 0 (0x50 + d.pair) 0 0 s)
          else setDesc i { d with stage := .near, place := .near, start, arm } s
    | _ => s

/-- Recompute Near descriptor `i` from the prediction of the latest tooth, with the values of an update (R127, R147). -/
def recomputeNear (w : Wheel) (i : Nat) (s : State) : State :=
  match desc s i with
  | none => s
  | some d =>
    if d.stage ≠ .near then s
    else
      let d := d.updated
      match anglesOf s w d with
      | none => dropLong i (setDesc i d s)
      | some (start, arm) => setDesc i { d with start, arm } s

/-! ### One pace of microcode (R139, R140) -/

/-- The microcode of one pair in one pace: the state, cycles used, and the loads, recomputes and moves made. (log entry 42, DEDUCED) -/
structure Share where
  s : State
  used : Nat := 8
  loads : Nat := 0
  recs : Nat := 0
  moves : Nat := 0

/-- Work of `cost` cycles fits before the end of the injection share. -/
def Share.fits (x : Share) (cost : Nat) : Bool := decide (x.used + cost ≤ 60)

/-- `f` done at `cost` cycles. -/
def Share.spend (x : Share) (cost : Nat) (f : State → State) : Share := { x with s := f x.s, used := x.used + cost }

/-- The cycle that the next stake of `d` is for. -/
def Desc.due (d : Desc) : Nat := if d.stage = .running then d.te else d.ts

/-- Order of loads: class, firing cycle, serial (R136). -/
def loadsBefore (a b : Nat × Desc) : Bool :=
  decide (a.2.cls < b.2.cls) || (a.2.cls == b.2.cls && (decide (a.2.due < b.2.due) || (a.2.due == b.2.due && decide (a.2.serial ≤ b.2.serial))))

/-- Loads of pair `p` that are due, in their order. -/
def dueLoads (s : State) (p : Nat) : List (Nat × Desc) :=
  sortBy loadsBefore (s.seq.descs.filter (fun x => x.2.pair == p && match x.2.place with
    | .fine l => decide (l ≤ paceNow s)
    | _ => false))

/-- The cycle in which the stake of a start or end fires: its own, or for one whose loading pace is past no earlier than the place
that the budget used leaves it in this pace. -/
def loadCycle (d : Desc) (used : Nat) (s : State) : Nat :=
  let overdue : Bool := match d.place with
    | .fine l => decide (l < paceNow s)
    | _ => false
  if overdue then max d.due (100 * paceNow s + used) else d.due

/-- A load of a pace that is over is an overrun of that pace (R136, R139). -/
def loadMissed (d : Desc) (s : State) : State :=
  match d.place with
  | .fine l => if l < paceNow s ∧ paceNow s < l + 4096 then overrun l s else s
  | _ => s

/-- The load for descriptor `i` completes `used` cycles into the pace (R19, R20). (log entries 41, DEDUCED, 96, DEDUCED) -/
def loadDue (i : Nat) (d : Desc) (used : Nat) (s : State) : State :=
  let fire := loadCycle d used s
  let late := fire - d.due
  let start := d.stage != .running
  let s := loadMissed d s
  if start ∧ 0 < late ∧ 100 * d.lateLim < d.late + late then dropEvent i 0x10 s
  else match loadStake i start fire d.due s with
    | some s => if start then onDesc i (fun e => { e with late := e.late + late }) s else s
    | none => s

/-- Stake loads of pair `p`, at most 16 in a pace. (log entry 42, DEDUCED) -/
def loadPass (p : Nat) (x : Share) : Share :=
  (dueLoads x.s p).foldl (fun x (i, d) =>
    if 16 ≤ x.loads ∨ !x.fits 2 ∨ (freeStake x.s p).isNone then x
    else { x.spend 2 (loadDue i d (x.used + 2)) with loads := x.loads + 1 }) x

/-- Armings due on pair `p`, furthest past their arm angle first, then by rank. (log entry 41, DEDUCED) -/
def armOrder (s : State) (a b : Nat × Desc) : Bool :=
  let x := ahead (reversed s) a.2.arm (chain s)
  let y := ahead (reversed s) b.2.arm (chain s)
  decide (y < x) || (x == y && (decide (a.2.cls < b.2.cls) || (a.2.cls == b.2.cls && decide (a.2.serial ≤ b.2.serial))))

/-- Arming of pair `p`. -/
def armPass (w : Wheel) (p : Nat) (x : Share) : Share :=
  (sortBy (armOrder x.s) ((nearOf x.s p).filter (fun y => armDue x.s y.2))).foldl (fun x y =>
    if x.fits 6 then x.spend 6 (armDesc w y.1) else x) x

/-- One review, and the arming of a descriptor that it finds past its arm angle, in the same pace (R130). -/
def reviewOne (w : Wheel) (p i : Nat) (x : Share) : Share :=
  let x := x.spend 5 (fun s => review w i (onPair p (fun q => { q with reviews := q.reviews.filter (fun j => j != i) }) s))
  match desc x.s i with
  | some d =>
    if d.stage = .near ∧ armsEvents x.s w ∧ armDue x.s d ∧ x.fits 6 then x.spend 6 (armDesc w i) else x
  | none => x

/-- At most `n` reviews of pair `p`, each the first that waits. -/
def reviewMost (w : Wheel) (p : Nat) : Nat → Share → Share
  | 0, x => x
  | n + 1, x =>
    match (pairAt x.s p).reviews with
    | [] => x
    | i :: _ => if x.fits 5 then reviewMost w p n (reviewOne w p i x) else x

/-- Reviews of pair `p`, the oldest due slot first: 60 cycles have room for no more than ten. -/
def reviewPass (w : Wheel) (p : Nat) (x : Share) : Share :=
  reviewMost w p 10 x

/-- Near-list recompute of pair `p`, at most 8 in a pace. -/
def recomputePass (w : Wheel) (p : Nat) (x : Share) : Share :=
  (pairAt x.s p).recompute.foldl (fun x i =>
    if x.recs < 8 ∧ x.fits 4 then
      { x.spend 4 (fun s => recomputeNear w i (onPair p (fun q => { q with recompute := q.recompute.filter (fun j => j != i) }) s))
        with recs := x.recs + 1 }
    else x) x

/-- The loading pace of a coarse place. -/
def Place.coarsePace : Place → Option Nat
  | .coarse l => some l
  | _ => none

/-- Starts and ends of pair `p` whose coarse slot is due to move, oldest slot first, within a slot by firing cycle, class and serial
(R122, R132, R140). (log entry 99, DEDUCED) -/
def dueMoves (s : State) (p : Nat) : List (Nat × Nat) :=
  let l := (s.seq.descs.filter (fun x => x.2.pair == p)).filterMap (fun x => x.2.place.coarsePace.map (fun l => (x.1, l, x.2)))
  let key := fun (x : Nat × Nat × Desc) => [x.2.1 / 256, x.2.2.due, x.2.2.cls, x.2.2.serial]
  (sortBy (fun a b => keyLe (key a) (key b)) (l.filter (fun x => decide (x.2.1 / 256 ≤ paceNow s / 256 + 31)))).map
    (fun x => (x.1, x.2.1))

/-- A start or end moves into the fine wheel; after its loading pace it is late (R140). -/
def moveFine (i l : Nat) (s : State) : State :=
  let s := onDesc i (fun d => { d with place := .fine l }) s
  if l < paceNow s then
    let p := match desc s i with
      | some d => d.pair
      | none => 0
    overrun l (flag SEQ_STATUS_BACKLOG (raisePerCycle 0x0115 0 (0x50 + p) 0 0 s))
  else s

/-- Coarse-to-fine moves of pair `p`, at most 4 in a pace. -/
def movePass (p : Nat) (x : Share) : Share :=
  (dueMoves x.s p).foldl (fun x (i, l) =>
    if x.moves < 4 ∧ x.fits 2 then { x.spend 2 (moveFine i l) with moves := x.moves + 1 } else x) x

/-- The state after the share, with what it used noted for loads that become due later in the pace. -/
def Share.close (x : Share) (p : Nat) : State :=
  let n := paceNow x.s
  onPair p (fun q => { q with sharePace := some n, loads := x.loads, used := x.used }) x.s

/-- The injection share of tally pair `p` in this pace. -/
def pairWork (p : Nat) (s : State) : State :=
  if (pairAt s p).halted ∨ !domainOn s (4 + 2 * p) then s
  else
    let x := loadPass p { s }
    (match s.angle.wheel with
    | none => loadPass p (movePass p x)
    | some w =>
      let x := if armsEvents x.s w then loadPass p (armPass w p x) else x
      loadPass p (movePass p (recomputePass w p (loadPass p (reviewPass w p x))))).close p

/-! ### Slots (R123) -/

/-- The descriptors of the slots from after `k` to `n` in the direction of rotation, oldest slot first, within a slot by review
order, become due for review. (log entry 99, DEDUCED) -/
def dequeue (back : Bool) (k : Option Nat) (n : Nat) (s : State) : State :=
  let from_ := k.getD (if back then (n + 1) % 16384 else (n + 16383) % 16384)
  let gap := slotGap back from_ n
  let due := s.seq.descs.filter (fun x => match x.2.place with
    | .angle m _ =>
      let g := slotGap back from_ m
      decide (0 < g) && decide (g ≤ gap) && decide (gap ≤ 8192)
    | _ => false)
  due.foldl (fun s x => queueReview n x.1 s) s

/-- The snapshot's slots are dequeued, in PHASED, in the direction of rotation; a step against the last one is a change of
direction and dequeues nothing. -/
def dequeueSlots (s : State) : State :=
  if !phased s then wrB SEQ_STATUS_ACTIVE false { s with seq := { s.seq with slot := none } }
  else
    let n := chain s / 1024
    wrB SEQ_STATUS_ACTIVE true (dequeue (reversed s) s.seq.slot n { s with seq := { s.seq with slot := some n } })

/-- The chain has passed the reversal angle going forward: arming begins again beyond it, and what the angle had already passed
waits for its next occurrence (wheel R62). -/
def passReversal (s : State) : State :=
  match s.angle.reversal with
  | none => s
  | some a =>
    if reversed s ∨ !reached s a then s
    else
      let s := { s with angle := { s.angle with reversal := none } }
      nearToWheel (fun d => decide (ahead false d.arm a < turn / 2)) s

/-- The injection microcode of the four tally pairs in this pace. -/
def microcode (s : State) : State :=
  let s := passReversal (dequeueSlots (overrunAge s))
  let s := (List.range 4).foldl (fun s p => pairWork p s) s
  let missed := s.seq.descs.any (fun x => !x.2.frozen s && x.2.place == .fine (paceNow s))
  overrunSettle (if missed then overrun (paceNow s) s else s)

end Sys2Proof.Machine
end

