-- ==== Sys2Proof/Machine/PulseExec.lean ====
section
/-! DEFINITION. What each pulse instruction does to its context (pulse R163 to R175), and the commands that execute one
instruction on a context. -/
namespace Sys2Proof.Machine

/-! ### Registers and times -/

/-- Register `c` of a context. -/
def PCtx.reg (x : PCtx) (c : Nat) : Nat := Tbl.get 0 x.regs c

/-- Register `c` takes a 32-bit value. -/
def PCtx.setReg (x : PCtx) (c v : Nat) : PCtx := { x with regs := Tbl.set 0 x.regs c (v % 2 ^ 32) }

/-- Context `n` writes `v` to register `c` and goes on to the next address. -/
def putReg (n c v : Nat) (s : State) : State := onCtx n (fun x => { x.setReg c v with pc := x.pc + 1 }) s

/-- Context `n` goes on to the next address. (log entry 50, DEDUCED) -/
def stepOn (n : Nat) (s : State) : State := onCtx n (fun x => { x with pc := x.pc + 1 }) s

/-- The cycle counter value nearest to `now` whose low 32 bits are `x` (R169). (log entry 53, DEDUCED) -/
def nearestTime (now x : Nat) : Nat :=
  let d := (x + 2 ^ 32 - now % 2 ^ 32) % 2 ^ 32
  if d < 2 ^ 31 ∨ now + d < 2 ^ 32 then now + d else now + d - 2 ^ 32

/-- Farthest pace that a time may name, beyond the present one (R167). -/
def pulseSpan : Nat := 2097151

/-- `t` lies beyond the span at cycle `now`. (log entry 50, DEDUCED) -/
def beyondSpan (now t : Nat) : Bool := decide (now / 100 + pulseSpan < t / 100)

/-- The client granted the pulse resources of pair `p` (R158). -/
def plsOwner (s : State) (p : Nat) : Nat := rd s (PLS_CTRL_OWNER p)

/-! ### Operands -/

/-- The second operand of an arithmetic instruction. -/
def argValue (x : PCtx) (b : PArg) : Nat :=
  match b with
  | .reg c => x.reg c.val
  | .imm i => (i.signExtend 32).toNat

/-- Table 5-4's arithmetic. -/
def Alu.apply (f : Alu) (a b : Nat) : Nat :=
  match f with
  | .add => (a + b) % 2 ^ 32
  | .sub => (a + 2 ^ 32 - b % 2 ^ 32) % 2 ^ 32
  | .and => a &&& b
  | .or => a ||| b
  | .xor => a ^^^ b
  | .shl => a * 2 ^ (b % 32) % 2 ^ 32
  | .shr => a % 2 ^ 32 / 2 ^ (b % 32)
  | .mul16 => (a % 2 ^ 16) * (b % 2 ^ 16)

/-! ### Parameter memory (R166) -/

/-- The word at a parameter address and its complement. (log entry 5, DESIGN CHOICE) -/
def paramAt (s : State) (p a : Nat) : Nat × Nat := Tbl.get (0, 2 ^ 32 - 1) (plsAt s p).params a

/-- Store a word with its complement. -/
def setParam (p a v : Nat) (s : State) : State :=
  onPls p (fun x => { x with params := Tbl.set (0, 2 ^ 32 - 1) x.params a (v % 2 ^ 32, 2 ^ 32 - 1 - v % 2 ^ 32) }) s

/-- LDP: its pair check comes first; nothing is written on a mismatch. -/
def pulseLdp (n cd ca off : Nat) (s : State) : State :=
  let a := ((ctxAt s n).reg ca + off) % 2 ^ 32
  if 2048 ≤ a then pulseFault 0x0132 n s
  else
    let (v, c) := paramAt s (n / 16) a
    if v + c = 2 ^ 32 - 1 then putReg n cd v s else pulseFault 0x0130 n s

/-- STP. -/
def pulseStp (n cd ca off : Nat) (s : State) : State :=
  let a := ((ctxAt s n).reg ca + off) % 2 ^ 32
  if 2048 ≤ a then pulseFault 0x0132 n s else stepOn n (setParam (n / 16) a ((ctxAt s n).reg cd) s)

/-! ### Waits (R167 to R173) -/

/-- Context `n` waits for `w`, with a status for register `cd` and a limit. -/
def pulseWait (n cd now : Nat) (w : PWait) (limit : Option Nat) (s : State) : State :=
  onCtx n (fun x => { x with
    run := .waiting, wait := some w, cd, issued := now / 100, from_ := now, limit, pc := x.pc + 1, steps := 0 }) s

/-- Context `n` does not wait: it resumes in the next pace with `status` in `cd`. (log entry 50, DEDUCED) -/
def pulseResume (n cd now status : Nat) (s : State) : State :=
  onCtx n (fun x => { x with
    run := .ready 3 now (now / 100 + 1) (some status), wait := none, cd, limit := none, pc := x.pc + 1, steps := 0 }) s

/-- The loading pace of an optional limit register; `none` when it lies beyond the span (R167, R172). -/
def limitPace (x : PCtx) (now : Nat) (limit : Option Nat) : Option (Option Nat) :=
  match limit with
  | none => some none
  | some c =>
    let t := nearestTime now (x.reg c)
    if beyondSpan now t then none else some (some (loadPace t))

/-- WAITA (R168, R172). -/
def pulseWaita (n cd ca : Nat) (limit : Option Nat) (now : Nat) (s : State) : State :=
  let x := ctxAt s n
  match limitPace x now limit with
  | none => pulseResume n cd now 0x80000005 s
  | some l => pulseWait n cd now (.angle (x.reg ca % turn)) l s

/-- WAITT (R169): a loading pace already passed answers at once, as does the present one. -/
def pulseWaitt (n cd ca : Nat) (rel : Bool) (now : Nat) (s : State) : State :=
  let v := (ctxAt s n).reg ca
  let t := if rel then 100 * (now / 100) + v else nearestTime now v
  if beyondSpan now t then pulseResume n cd now 0x80000005 s
  else if t / 100 ≤ now / 100 then pulseResume n cd now 0xFFFFFFFF s
  else if t / 100 = now / 100 + 1 then pulseResume n cd now 0 s
  else pulseWait n cd now (.time t) none s

/-- The present level of edge source `k` (R170). (log entry 53, DEDUCED) -/
def edgeLevel (s : State) (k : Nat) : Bool :=
  if k < 4 then (Tbl.get {} s.angle.sensors k : Sensor).level else bitOf s.pulse.pads (k - 8)

/-- The detector as a wait on source `k` finds it: a new source gives its present level (R171). -/
def Detector.attach (d : Detector) (k : Nat) (level : Bool) : Detector :=
  if d.source = some k then { d with hit := none } else { d with source := some k, level, hit := none }

/-- WAITE (R170 to R172). (log entry 50, DEDUCED) -/
def pulseWaite (n cd : Nat) (limit : Option Nat) (det : Bool) (kind source now : Nat) (s : State) : State :=
  match limitPace (ctxAt s n) now limit with
  | none => pulseResume n cd now 0x80000005 s
  | some l =>
    let v := edgeLevel s source
    pulseWait n cd now (.edge det kind) l (onCtx n (fun x =>
      if det then { x with det1 := x.det1.attach source v } else { x with det0 := x.det0.attach source v }) s)

/-- Queue `q` of pair `p`, oldest entry first. -/
def queueAt (s : State) (p q : Nat) : List Nat := Tbl.get [] (plsAt s p).queues q

/-- Queue `q` of pair `p` becomes `l`; an entry for an empty queue and a place in a full one are noted. -/
def setQueue (p q : Nat) (l : List Nat) (s : State) : State :=
  let was := queueAt s p q
  onPls p (fun x =>
    { x with
      queues := Tbl.set [] x.queues q l
      fed := if was.isEmpty ∧ !l.isEmpty then Tbl.set 0 x.fed q s.cyc else x.fed
      freed := if 32 ≤ was.length ∧ l.length < 32 then Tbl.set 0 x.freed q s.cyc else x.freed }) s

/-- Append `v` to queue `q`; a host queue that becomes non-empty raises vector 6 of the pair's owner (R173, DMA R425). -/
def pushQueue (p q v : Nat) (s : State) : State :=
  let l := queueAt s p q
  let s := setQueue p q (l ++ [v % 2 ^ 32]) s
  if 12 ≤ q ∧ l = [] then vector (plsOwner s p) 6 (intRaise (370 + p) s) else s

/-- Queue `q` of pair `p` has been read: the pair's interrupt request falls once its host queues 12 to 15 are all empty. -/
def queueDrained (p q : Nat) (s : State) : State :=
  if 12 ≤ q ∧ [12, 13, 14, 15].all (fun q => (queueAt s p q).isEmpty) then intFall (370 + p) s else s

/-- QIN: it takes the head, or waits; true when it completed. -/
def takeQueue (n q cd : Nat) (s : State) : Option State :=
  match queueAt s (n / 16) q with
  | v :: l => some (onCtx n (fun x => x.setReg cd v) (queueDrained (n / 16) q (setQueue (n / 16) q l s)))
  | [] => none

/-- QOUT: it appends, or waits. -/
def giveQueue (n q v : Nat) (s : State) : Option State :=
  if (queueAt s (n / 16) q).length < 32 then some (pushQueue (n / 16) q v s) else none

/-! ### Stakes (R174, R175) -/

/-- A free pulse stake of pair `p`. -/
def freePulseStake (s : State) (p : Nat) : Option Nat :=
  (List.range 32).find? (fun k => (Tbl.find (plsAt s p).stakes k).isNone)

/-- Table 5-6a up to SEQ_HOLDS for binding slot `x` of context `n` with `action`. -/
def slotStatus (s : State) (n : Nat) (x : PSlot) (action : Nat) : Option Nat :=
  if x.target = 0xFF then some 0x80000007
  else
    let starts := action == 1 || action == 2
    match targetOut x.target with
    | some o =>
      if !owns s (plsOwner s (n / 16)) o then some 0x80000008
      else if starts && bitOf s.seq.inhibit o then some 0x80000003
      else if starts && x.gated && !phased s then some 0x80000006
      else if starts && seqHolds s o then some 0x80000004
      else none
    | none => if starts && x.gated && !phased s then some 0x80000006 else none

/-- The status of a load for time `t` by context `n` in cycle `now`, and the cycle the stake fires in where one is loaded. -/
def loadStatus (s : State) (n t now : Nat) : Nat × Option Nat :=
  if beyondSpan now t then (0x80000005, none)
  else if (freePulseStake s (n / 16)).isNone then (0x80000001, none)
  else if now < t then (0, some t)
  else
    let late := now + 1 - t
    if 100 * (bindOf s n).late < late then (0x80000002, none) else (late, some (now + 1))

/-- A stake of target `target` and action `action` that fires at `fire` takes a free place of the pair. -/
def placePulseStake (n target action : Nat) (fire : Option Nat) (s : State) : State :=
  match fire, freePulseStake s (n / 16) with
  | some c, some k =>
    onPls (n / 16) (fun p => { p with stakes := Tbl.insert p.stakes k ⟨n, target, action, c⟩ }) s
  | _, _ => s

/-- The status of a stake and the cycle in which it fires: a status found before stands, and nothing fires. -/
def loadOutcome (s : State) (n t now : Nat) : Option Nat → Nat × Option Nat
  | some st => (st, none)
  | none => loadStatus s n t now

/-- Load a pulse stake for `target` and write the status to `cd`; a refusal counts. -/
def pulseLoad (n cd target action t now : Nat) (before : Option Nat) (s : State) : State :=
  let o := loadOutcome s n t now before
  let s := if 0x80000000 ≤ o.1 then count (PLS_COUNT_STK_REFUSED (n / 16)) 1 s else s
  putReg n cd o.1 (placePulseStake n target action o.2 s)

/-- STK. -/
def pulseStk (n cd ca slot action now : Nat) (s : State) : State :=
  let x := (bindOf s n).slots.getD slot {}
  pulseLoad n cd x.target action (nearestTime now ((ctxAt s n).reg ca)) now (slotStatus s n x action) s

/-- ADCT. -/
def pulseAdct (n cd ca line now : Nat) (s : State) : State :=
  pulseLoad n cd (256 + line) 3 (nearestTime now ((ctxAt s n).reg ca)) now
    (if bitOf (bindOf s n).lines line then none else some 0x80000007) s

/-! ### Captures (Table 5-5) -/

/-- The value of capture source `k` with argument `a`. -/
def captValue (s : State) (n k a now : Nat) : Nat :=
  let x := ctxAt s n
  match k with
  | 0 => now % 2 ^ 32
  | 1 => x.hi
  | 2 => now / 100 % 2 ^ 32
  | 3 => snapChain s
  | 4 => (roundDiv (snapRate s) 2048).toNat % 2 ^ 32
  | 5 => syncState s + (reversed s).toNat * 4 + (limping s).toNat * 8 + rd s WHL_STATUS_ASTERN * 16
  | 6 =>
    match s.angle.wheel with
    | some w => if phased s then ofSigned 32 (timeOf s w (a % turn)).round else 2 ^ 32 - 1
    | none => 2 ^ 32 - 1
  | 7 => rd s WHL_STATUS_TOOTH_POS
  | 8 => x.det0.edge % 2 ^ 32
  | 9 => x.det1.edge % 2 ^ 32
  | 10 => (queueAt s (n / 16) (a % 16)).length
  | 11 => n
  | _ => 32 - (plsAt s (n / 16)).stakes.length

/-- CAPT; CYCLE_LO latches the high word too. -/
def pulseCapt (n cd ca source now : Nat) (s : State) : State :=
  let v := captValue s n source ((ctxAt s n).reg ca) now
  let s := if source = 0 then onCtx n (fun x => { x with hi := now / 2 ^ 32 % 2 ^ 32 }) s else s
  putReg n cd v s

/-! ### Branches and ends of steps -/

/-- Branch to `t` if `b`. -/
def pulseBranch (n : Nat) (b : Bool) (t : Nat) (s : State) : State :=
  if b then onCtx n (fun x => { x with pc := t }) s else stepOn n s

/-- BRC: the counter in register `c` falls by one, and the branch is taken unless it is then 0 (Table 5-4). -/
def pulseBrc (n c t : Nat) (s : State) : State :=
  let v := ((ctxAt s n).reg c + 2 ^ 32 - 1) % 2 ^ 32
  pulseBranch n (v != 0) t (onCtx n (fun x => x.setReg c v) s)

/-- The step of context `n` ends and the context is due in the next pace (R161). -/
def pulseYield (n now : Nat) (s : State) : State :=
  let s := { s with pulse := { s.pulse with ended := s.pulse.ended + 1 } }
  onCtx n (fun x => { x with run := .ready 4 s.pulse.ended (now / 100 + 1) none, steps := 0 }) s

/-- HALT: stakes stay loaded (R179). -/
def pulseStop (n : Nat) (s : State) : State :=
  onCtx n (fun x => { x with run := .halted, wait := none, limit := none }) s

/-! ### One instruction -/

/-- Context `n` executes `op`, which completes in cycle `now`; true when the step goes on. -/
def pulseExec (n : Nat) (op : POp) (now : Nat) (s : State) : State × Bool :=
  let x := ctxAt s n
  match op with
  | .alu f cd ca b => (putReg n cd (f.apply (x.reg ca) (argValue x b)) s, true)
  | .ldp cd ca off => (pulseLdp n cd ca off s, true)
  | .stp cd ca off => (pulseStp n cd ca off s, true)
  | .waita cd ca limit => (pulseWaita n cd ca limit now s, false)
  | .waitt cd ca rel => (pulseWaitt n cd ca rel now s, false)
  | .waite cd limit det kind source => (pulseWaite n cd limit det kind source now s, false)
  | .stk cd ca slot action => (pulseStk n cd ca slot action now s, true)
  | .adct cd ca line => (pulseAdct n cd ca line now s, true)
  | .capt cd ca source => (pulseCapt n cd ca source now s, true)
  | .qin cd q =>
    match takeQueue n q cd s with
    | some s => (stepOn n s, true)
    | none => (pulseWait n cd now (.qin q cd) none s, false)
  | .qout ca q =>
    match giveQueue n q (x.reg ca) s with
    | some s => (stepOn n s, true)
    | none => (pulseWait n 0 now (.qout q (x.reg ca)) none s, false)
  | .br t => (pulseBranch n true t s, true)
  | .brz ca t => (pulseBranch n (x.reg ca == 0) t s, true)
  | .brn ca t => (pulseBranch n (bitOf (x.reg ca) 31) t s, true)
  | .brc c t => (pulseBrc n c t s, true)
  | .yield => (pulseYield n now (stepOn n s), false)
  | .halt => (pulseStop n s, false)

/-- After an instruction that lets the step go on: the program counter stays in the bank, and the 24th instruction ends the
step (R160, R165). True when the step goes on. -/
def pulseSettle (n now : Nat) (s : State) : State × Bool :=
  let x := ctxAt s n
  if !x.runs then (s, false)
  else if 4095 < x.pc then (pulseFault 0x0132 n s, false)
  else if 24 ≤ x.steps then (pulseYield n now (count (PLS_COUNT_FORCED_YIELD (n / 16)) 1 s), false)
  else (s, true)

/-- Context `n` executes one instruction as part of its step: an illegal one is a context fault (R163). -/
def pulseStep (n : Nat) (op : Option POp) (now : Nat) (s : State) : State × Bool :=
  match op with
  | none => (pulseFault 0x0131 n s, false)
  | some op =>
    let (s, go) := pulseExec n op now (onCtx n (fun x => { x with steps := x.steps + 1 }) s)
    if go then pulseSettle n now s else (s, false)

/-! ### The instruction commands -/

/-- Context `n` is able to execute: it runs, does not wait, and its pair is not halted (architecture R30). (log entry 52, DESIGN CHOICE) -/
def canExecute (s : State) (n : Nat) : Bool :=
  (match (ctxAt s n).run with
    | .ready _ _ _ _ => true
    | _ => false) && !(pairAt s (n / 16)).halted

end Sys2Proof.Machine
end

