-- ==== Sys2Proof/Machine/PulseRun.lean ====
section
/-! DEFINITION. The pulse share of a pace, waking, pulse stakes that fire, and the bank exchange (pulse R160 to R162, R167 to R181). -/
namespace Sys2Proof.Machine

/-! ### Starting a context (R157, R179, drive R201) -/

/-- The frames of the solenoid and auxiliary slots of a binding, for lanes that are not ON. (log entry 54, DEDUCED) -/
def sendSlots (l : List PSlot) (s : State) : State :=
  l.foldl (fun s x => match targetOut x.target with
    | some o => if (laneAt s o).on then s else pulseFrame o s
    | none => s) s

/-- Context `n` starts at its entry point with every register at 0, due in the next pace; its frames are sent. (log entry 51, DEDUCED) -/
def startCtx (n : Nat) (s : State) : State :=
  let s := { s with pulse := { s.pulse with ended := s.pulse.ended + 1 } }
  let b := bindOf s n
  sendSlots b.slots (onCtx n (fun _ => { pc := b.entry, run := .ready 4 s.pulse.ended (paceNow s + 1) none }) s)

/-! ### The share (R160 to R162) -/

/-- The instructions of one step of context `n`, with `used` cycles of the share spent before: the state, the cycles spent
after, and whether the step was cut. An instruction's cycle is the last one of its cost. (log entry 109, DESIGN CHOICE) -/
def stepLoop (n : Nat) : Nat → Nat → State → State × Nat × Bool
  | 0, used, s => (s, used, false)
  | k + 1, used, s =>
    if 4095 < (ctxAt s n).pc then (pulseFault 0x0132 n s, used, false)
    else
      let op := decodePulse (BitVec.ofNat 32 (Tbl.get 0 (plsBank s (n / 16)).code (ctxAt s n).pc))
      let cost := match op with
        | some x => x.cost
        | none => 1
      if 40 < used + cost then
        (onCtx n (fun x => { x with run := .ready 1 0 (paceNow s + 1) none }) s, used, true)
      else
        let r := pulseStep n op (100 * paceNow s + 59 + used + cost) s
        if r.2 then stepLoop n k (used + cost) r.1 else (r.1, used + cost, false)

/-- What dispatch completes: the status of a wait, or the queue instruction that waited; `none` when the queue still makes it
wait (R167, R173). It costs nothing beyond the dispatch. (log entry 109, DESIGN CHOICE) -/
def completeWait (n : Nat) (status : Option Nat) (s : State) : Option State :=
  let x := ctxAt s n
  let done (s : State) : State := onCtx n (fun x => { x with wait := none }) s
  match x.wait with
  | some (.qin q cd) => (takeQueue n q cd s).map done
  | some (.qout q v) => (giveQueue n q v s).map done
  | _ => match status with
    | some v => some (onCtx n (fun x => x.setReg x.cd v) s)
    | none => some s

/-- Dispatch context `n` for 2 cycles and run its step. (log entry 109, DESIGN CHOICE) -/
def dispatchCtx (n used : Nat) (s : State) : State × Nat × Bool :=
  match (ctxAt s n).run with
  | .ready g _ since status =>
    let s := if g = 1 then s else maxTo (PLS_STATUS_MAX_LAG (n / 16)) (paceNow s - since) s
    match completeWait n status (onCtx n (fun x => { x with steps := if g = 1 then x.steps else 0 }) s) with
    | some s => stepLoop n 25 (used + 2) s
    | none => (onCtx n (fun x => { x with run := .waiting, issued := paceNow s }) s, used + 2, false)
  | _ => (s, used, false)

/-- Dispatch a list of contexts until the share is spent or a step is cut. -/
def shareLoop : List Nat → Nat → State → State × Nat
  | [], used, s => (s, used)
  | n :: l, used, s =>
    if 40 < used + 2 then (s, used)
    else
      let r := dispatchCtx n used s
      if r.2.2 then (r.1, 40) else shareLoop l r.2.1 r.1

/-- Order of two due contexts: group, then how long they are due, then the key within the group, then number (R161). (log entry 51, DEDUCED) -/
def dueBefore (a b : Nat × Nat × Nat × Nat) : Bool :=
  decide (a.1 < b.1) || (a.1 == b.1 && (decide (a.2.1 < b.2.1) || (a.2.1 == b.2.1 &&
    (decide (a.2.2.1 < b.2.2.1) || (a.2.2.1 == b.2.2.1 && decide (a.2.2.2 ≤ b.2.2.2))))))

/-- The contexts of pair `p` that are due in this pace, in the order of R161. -/
def dueCtxs (s : State) (p : Nat) : List Nat :=
  let l := (List.range 16).filterMap (fun i => match (ctxAt s (16 * p + i)).run with
    | .ready g k since _ => if since ≤ paceNow s then some (g, since, k, 16 * p + i) else none
    | _ => none)
  (sortBy dueBefore l).map (fun x => x.2.2.2)

/-- The pulse share of pair `p` in this pace: its due contexts in their order. (log entry 52, DESIGN CHOICE) -/
def pulseShare (p : Nat) (s : State) : State :=
  if (pairAt s p).halted ∨ !domainOn s (4 + 2 * p) then s else (shareLoop (dueCtxs s p) 0 s).1

/-! ### Waking (R167 to R173) -/

/-- Context `n` is woken in `group` with `key` and `status`. -/
def wake (n group key : Nat) (status : Option Nat) (s : State) : State :=
  onCtx n (fun x => { x with
    run := .ready group key (paceNow s) status, limit := none
    wait := match x.wait with
      | some (.qin q cd) => some (.qin q cd)
      | some (.qout q v) => some (.qout q v)
      | _ => none }) s

/-- The condition that context `x` of pair `p` awaits has occurred: group, key and status. `prev` is the chain of the snapshot
before this one, where both were taken in PHASED. (log entry 51, DEDUCED) -/
def wakeOf (s : State) (prev : Option Nat) (p : Nat) (x : PCtx) : Option (Nat × Nat × Option Nat) :=
  if paceNow s ≤ x.issued then none
  else match x.wait with
    | some (.angle a) =>
      match prev with
      | some c =>
        let back := reversed s
        if phased s && !decide (ahead back a c ≤ turn / 2) && reached s a then some (2, ahead back c a, some 0) else none
      | none => none
    | some (.time t) => if loadPace t ≤ paceNow s then some (2, turn + t, some 0) else none
    | some (.edge det _) =>
      match (if det then x.det1 else x.det0).hit with
      | some e => if e + 2 ≤ 100 * paceNow s + 60 then some (3, e, some 0) else none
      | none => none
    | some (.qin q _) => if (queueAt s p q).isEmpty then none else some (3, Tbl.get 0 (plsAt s p).fed q, none)
    | some (.qout q _) => if (queueAt s p q).length < 32 then some (3, Tbl.get 0 (plsAt s p).freed q, none) else none
    | none => none

/-- Wake context `n` if its condition has occurred; its limit is withdrawn with it (R172). -/
def wakeCtx (prev : Option Nat) (n : Nat) (s : State) : State :=
  if (ctxAt s n).run ≠ .waiting then s
  else match wakeOf s prev (n / 16) (ctxAt s n) with
    | some (g, k, st) => wake n g k st s
    | none => s

/-- The time limit of context `n` has come, and its condition has not: it wakes with status 0xFFFF_FFFF (R167, R172). -/
def limitCtx (n : Nat) (s : State) : State :=
  if (ctxAt s n).run ≠ .waiting then s
  else match (ctxAt s n).limit with
    | some l => if l ≤ paceNow s ∧ (ctxAt s n).issued < paceNow s then wake n 3 (100 * paceNow s) (some 0xFFFFFFFF) s else s
    | none => s

/-- A wake token of angle or time, which the injection microcode dequeues (R121, R168, R169). -/
def PCtx.hasToken (x : PCtx) : Bool :=
  match x.wait with
  | some (.angle _) | some (.time _) => true
  | _ => false

/-- The microcode of a pace dequeues the wake tokens whose time or angle has come, and the pulse shares of the pace are to come. -/
def tokenPass (s : State) : State :=
  let prev := s.pulse.snap
  let s := (List.range 64).foldl (fun s n =>
    if (pairAt s (n / 16)).halted || !(ctxAt s n).hasToken then s else wakeCtx prev n s) s
  { s with pulse := { s.pulse with snap := (if phased s then some (chain s) else none), due := some (paceNow s) } }

/-- What has happened up to the first cycle of the share wakes context `n`: its condition, or else its limit (R167, R170, R173). -/
def shareWake (n : Nat) (s : State) : State := limitCtx n (wakeCtx none n s)

/-- The pulse shares of the present pace: edges, queues and limits wake their contexts, then each pair dispatches what is due
(R161). (log entry 52, DESIGN CHOICE) -/
def runShares (s : State) : State :=
  let s := { s with pulse := { s.pulse with due := none } }
  (List.range 4).foldl (fun s p => pulseShare p ((List.range 16).foldl (fun s i =>
    if (pairAt s p).halted then s else shareWake (16 * p + i) s) s)) s

/-- The present cycle is the first of a pulse share. (log entry 51, DEDUCED) -/
def shareBegins (s : State) : Bool := s.cyc % 100 == 60

/-! ### Stakes that fire (R25, R174, R176) -/

/-- The actions that fired on target `t` in this cycle. -/
def firedOn (s : State) (t : Nat) : PFired :=
  let f : PFired := Tbl.get {} s.pulse.fired t
  if f.cyc = s.cyc then f else { cyc := s.cyc }

/-- Note an action on target `t` in this cycle. (log entry 55, DEDUCED) -/
def noteFired (t action : Nat) (s : State) : State :=
  let f := firedOn s t
  let f := { f with off := f.off || action == 0, on := f.on || action == 1 }
  { s with pulse := { s.pulse with fired := Tbl.set {} s.pulse.fired t f } }

/-- A stake with `action` on target `t` fires in this cycle, or has fired. (log entry 55, DEDUCED) -/
def firesNow (s : State) (p t action : Nat) : Bool :=
  (plsAt s p).stakes.any (fun x => x.2.target == t && x.2.cycle == s.cyc && x.2.action == action) ||
    (if action = 0 then (firedOn s t).off else (firedOn s t).on)

/-- Trigger line `k` is raised for one pace from now on; a line that is raised already does not rise. (log entry 55, DEDUCED) -/
def raiseLine (k : Nat) (s : State) : State :=
  let up := decide (s.cyc < Tbl.get 0 s.pulse.lines k)
  let s := { s with pulse := { s.pulse with lines := Tbl.set 0 s.pulse.lines k (s.cyc + 100) } }
  if up then s else acqLine k s

/-- A pulse stake of pair `p` fires: OFF before ON before TOGGLE (R176). -/
def firePulse (p : Nat) (x : PStake) (s : State) : State :=
  if 256 ≤ x.target then raiseLine (x.target - 256) s
  else
    let s := noteFired x.target x.action s
    match x.action with
    | 0 => pulseOff x.target false s
    | 1 => if firesNow s p x.target 0 then s else pulseOn x.target x.ctx s
    | _ =>
      if firesNow s p x.target 0 || firesNow s p x.target 1 then s
      else if pulseIsOn s x.target then pulseOff x.target false s else pulseOn x.target x.ctx s

/-- A pulse stake fails its check: it does not fire, and its target is driven OFF (R174). -/
def failPulse (p : Nat) (x : PStake) (s : State) : State :=
  let src := match targetOut x.target with
    | some o => outSource o
    | none => 0x50 + p
  let act := if pulseIsOn s x.target then actOff else 0
  raise 0x0205 src (wd (5 * 256 + x.ctx % 16)) act (if 256 ≤ x.target then s else pulseOff x.target true s)

/-! ### The bank exchange (R181) -/

/-- What the exchange does to context `n`, bound by `old` before and `new` now. (log entry 54, DEDUCED) -/
def exchangeCtx (n : Nat) (old new : PBind) (s : State) : State :=
  match (ctxAt s n).run with
  | .halted => s
  | .disabled => if new.enable then startCtx n s else s
  | _ =>
    if new.enable then
      sendSlots (new.slots.filter (fun x => x ∉ old.slots)) (onCtx n (fun x => { x with pc := new.entry, steps := 0 }) s)
    else pulseTargetsOff old (pulseStop n s)

/-- Pair `p` exchanges its banks. -/
def exchange (p : Nat) (s : State) : State :=
  let old := plsBank s p
  let s := wrB (PLS_CTRL_BANK p) (!isSet s (PLS_CTRL_BANK p)) s
  let new := plsBank s p
  let s := wrB (PLS_CTRL_LOADED p) false (wrB (PLS_CTRL_SWITCH_PEND p) false s)
  (List.range 16).foldl (fun s i => exchangeCtx (16 * p + i) (old.binds.getD i {}) (new.binds.getD i {}) s) s

end Sys2Proof.Machine
end

