-- ==== Sys2Proof/Machine/Event.lean ====
section
/-! DEFINITION. How time passes from one command to the next, and what happens meanwhile: the pulse shares from cycle 60 of a pace on
and what a cycle leaves to the next (architecture R18, pulse R160 to R162, timers R348, R365). -/
namespace Sys2Proof.Machine

/-- The first cycle of the pulse shares that are still to come is over before `dt` more cycles have passed. -/
def sharePending (dt : Nat) (s : State) : Bool :=
  match s.pulse.due with
  | some p => decide (100 * p + 60 < s.cyc + dt)
  | none => false

/-- What the present cycle leaves to the next comes within `dt` cycles (timers R348, R365). -/
def settles (dt : Nat) (s : State) : Bool := decide (0 < dt) && unsettled s

/-- The core clock runs, and nothing of what the passage of time brings falls within the next `dt` cycles. -/
def steady (dt : Nat) (s : State) : Bool := awake s && !sharePending dt s && !settles dt s

/-- `dt` cycles pass: the pulse shares that begin meanwhile run, with cycle 60 as the present one. -/
def passShares (dt : Nat) (s : State) : State :=
  if sharePending dt s then
    let s' := runShares (tick (100 * (s.pulse.due.getD 0) + 60 - s.cyc) s)
    tick (s.cyc + dt - s'.cyc) s'
  else tick dt s

/-- `dt` cycles pass, with what the first of them takes over from the present one. (log entry 52, DESIGN CHOICE) -/
def passTime (dt : Nat) (s : State) : State :=
  if settles dt s then passShares (dt - 1) (settle (passShares 1 s)) else passShares dt s

/-- A timed event of the hardware: time moves on by `dt`; while the core clock stands nothing happens.
(log entries 2, DESIGN CHOICE, 7, DESIGN CHOICE, 94, DESIGN CHOICE) -/
def event (dt : Nat) (f : State → State) (s : State) : Host.Outcome State Fault Refusal :=
  .next (if awake s then f (passTime dt s) else s)

/-- An event in a steady interval is its effect on the state in which the time has passed. -/
theorem event_steady {dt : Nat} {s : State} (h : steady dt s = true) (f : State → State) :
    event dt f s = .next (f (tick dt s)) := by
  simp only [steady, Bool.and_eq_true, Bool.not_eq_true'] at h
  simp [event, passTime, passShares, h.1.1, h.1.2, h.2]

end Sys2Proof.Machine
end

