-- ==== Sys2Proof/Machine/Crc.lean ====
section
/-! DEFINITION. The CRC-32 of IEEE 802.3 and the byte order of words (start-up R440, pairing R297, DMA R413). -/
namespace Sys2Proof.Machine

/-- One bit of the reflected CRC-32. -/
def crcBit (c : Word) : Word := if c &&& 1 = 1 then (c >>> 1) ^^^ 0xEDB88320 else c >>> 1

/-- One byte of the CRC-32. -/
def crcByte (c : Word) (b : Byte) : Word :=
  (List.range 8).foldl (fun c _ => crcBit c) (c ^^^ b.setWidth 32)

/-- CRC-32 of IEEE 802.3 over a byte list. -/
def crc32 (l : List Byte) : Word := ~~~ l.foldl crcByte 0xFFFFFFFF

/-- The bytes of words, each least significant byte first. (log entry 66, DEDUCED) -/
def bytesOf (l : List Word) : List Byte :=
  l.flatMap (fun w => [w.extractLsb' 0 8, w.extractLsb' 8 8, w.extractLsb' 16 8, w.extractLsb' 24 8])

end Sys2Proof.Machine
end

