-- ==== Sys2Proof/Machine/Dma.lean ====
section
/-! DEFINITION. The DMA channels: start checks, bursts of the two engines, reshuffling, ends, aborts, retries and grants (DMA
R408 to R417). -/
namespace Sys2Proof.Machine

/-- DMA state changed by `f`. -/
def onDma (f : Dma → Dma) (s : State) : State := { s with dma := f s.dma }

/-- The transfer of channel `ch`. (log entry 92, DESIGN CHOICE) -/
def dmaXfer (s : State) (ch : Nat) : Option DmaXfer := Tbl.get none s.dma.xfers ch

/-- The transfer of channel `ch` becomes `x`. -/
def setXfer (ch : Nat) (x : Option DmaXfer) (s : State) : State :=
  onDma (fun d => { d with xfers := Tbl.set none d.xfers ch x }) s

/-- The client to which PF0 has granted channel `ch` (R408). -/
def dmaOwner (s : State) (ch : Nat) : Option Nat :=
  if isSet s (DMA_GRANT_VALID ch) then some (rd s (DMA_GRANT_OWNER ch)) else none

/-- Channel `ch` is RUNNING, RETRY_WAIT or ABORTING. -/
def dmaActive (s : State) (ch : Nat) : Bool :=
  let st := rd s (DMA_STATUS_STATE ch)
  st == 1 || st == 2 || st == 3

/-- `STATE` of channel `ch`, with its bit of `DMA_GSTAT.ACTIVE`. -/
def setDmaState (ch st : Nat) (s : State) : State :=
  wr DMA_GSTAT_ACTIVE (setBit (rd s DMA_GSTAT_ACTIVE) ch (st == 1 || st == 2 || st == 3)) (wr (DMA_STATUS_STATE ch) st s)

/-! ### The configuration of a channel -/

def dmaLen (s : State) (ch : Nat) : Nat := rd s (DMA_LEN_LEN ch)

/-- The host address `DST`. -/
def dmaDst (s : State) (ch : Nat) : Nat := rd s (DMA_DST_LO_DST ch) + rd s (DMA_DST_HI_DST ch) * 2 ^ 32

/-- The record address `STAT_ADDR`. -/
def dmaStat (s : State) (ch : Nat) : Nat := rd s (DMA_STAT_LO_STAT_ADDR ch) + rd s (DMA_STAT_HI_STAT_ADDR ch) * 2 ^ 32

/-- The channel reshuffles. -/
def dmaShuf (s : State) (ch : Nat) : Bool := isSet s (DMA_SHUF_SHUF_EN ch)

/-- `WAYS`: 1 to 16. -/
def dmaWays (s : State) (ch : Nat) : Nat := rd s (DMA_SHUF_WAYS ch) + 1

/-- Element size in bytes. -/
def dmaElem (s : State) (ch : Nat) : Nat := if isSet s (DMA_SHUF_ELEM ch) then 4 else 2

/-- The readable end of acquisition list `l`, in bytes from its read pointer: the first run reserved and not yet filled, else the
write pointer (R409). -/
def listReadable (s : State) (l : Nat) : Nat :=
  let size := (acqList s l).bytes
  let rp := rd s (ACQ_RP_RP l)
  let from_ := fun a => (a + size - rp % size) % size
  let pend := (s.acq.pend.filter (fun e => e.list == l)).filterMap AcqEntry.addr
  let conv := s.acq.convs.filterMap (fun x => match x.2 with
    | some ⟨some e, _⟩ => if e.list = l then e.addr else none
    | _ => none)
  let knock := match (acqList s l).knock with
    | some k => k.addr.toList
    | none => []
  (pend ++ conv ++ knock).foldl (fun m a => min m (from_ a)) (from_ (rd s (ACQ_WP_WP l)))

/-- Readable bytes of list `l` from offset `off` of its buffer on. (log entry 78, DEDUCED) -/
def readableFrom (s : State) (l off : Nat) : Nat :=
  let size := (acqList s l).bytes
  listReadable s l - (off + size - rd s (ACQ_RP_RP l) % size) % size

/-- The first start check of Table 14-1 that fails, as its end code. -/
def dmaRefusal (s : State) (ch : Nat) : Option Nat :=
  let len := dmaLen s ch
  let stride := rd s (DMA_SHUF_STRIDE ch)
  let l := rd s (DMA_SRC_LIST ch)
  let off := rd s (DMA_SRC_SRC_OFF ch)
  let fromList := isSet s (DMA_SRC_SRC_MODE ch)
  if len = 0 ∨ len % 2 = 1 ∨ 1048576 < len ∨ dmaDst s ch % 8 ≠ 0 ∨ stride % 8 ≠ 0
      ∨ (!fromList ∧ 1048576 < off + len) ∨ (fromList ∧ !acqLoaded s l)
      ∨ (dmaShuf s ch ∧ (len % (dmaWays s ch * dmaElem s ch) ≠ 0 ∨ stride < len / dmaWays s ch)) then some 8
  else if fromList && decide (readableFrom s l off < len) then some 9
  else if Tbl.get Domain.on s.power.domains 79 ≠ .on ∨ Tbl.get Domain.on s.power.domains 80 ≠ .on then some 10
  else none

/-- Source byte `i` of the transfer (R409). -/
def dmaByte (s : State) (ch i : Nat) : Byte :=
  let off := rd s (DMA_SRC_SRC_OFF ch) + i
  sampleByte s (if isSet s (DMA_SRC_SRC_MODE ch) then (acqList s (rd s (DMA_SRC_LIST ch))).addr off else off)

/-- Runs of a full chunk: Q of R412. -/
def dmaChunk (s : State) (ch : Nat) : Nat := 16384 / (dmaWays s ch * dmaElem s ch)

/-- Runs of the chunk in hand, or of the next one. -/
def chunkRuns (s : State) (ch : Nat) (x : DmaXfer) : Nat :=
  min (dmaChunk s ch) (dmaLen s ch / (dmaWays s ch * dmaElem s ch) - x.runs)

/-- Source offset at which the chunk in hand ends. -/
def chunkEnd (s : State) (ch : Nat) (x : DmaXfer) : Nat :=
  (x.runs + chunkRuns s ch x) * (dmaWays s ch * dmaElem s ch)

/-- Slots of the shared buffer that a read burst of `n` bytes takes anew: one for a plain channel, and for a reshuffling one all
that its chunk needs, with its first burst. (log entry 77, DEDUCED) -/
def slotsNeeded (s : State) (ch : Nat) (x : DmaXfer) : Nat :=
  if dmaShuf s ch then
    if x.slots = 0 then (chunkEnd s ch x - x.read + 511) / 512 else 0
  else 1

/-- Slots in use by every channel. -/
def slotsUsed (s : State) : Nat :=
  s.dma.xfers.foldl (fun n x => n + match x.2 with
    | some y => y.slots
    | none => 0) 0

/-- The length of the next read burst of a transfer, 0 when there is none to make (R411, R412). -/
def readBurst (s : State) (ch : Nat) (x : DmaXfer) : Nat :=
  if dmaShuf s ch then min 512 (chunkEnd s ch x - x.read)
  else if x.slots < 8 then min 512 (dmaLen s ch - x.read)
  else 0

/-- The address and the length of the next write burst of a transfer, length 0 when there is none to make (R411, R412). -/
def writeBurst (s : State) (ch : Nat) (x : DmaXfer) : Nat × Nat :=
  let clip := fun (a n : Nat) => (a % 2 ^ 64, min (min 512 n) (4096 - a % 4096))
  if dmaShuf s ch then
    let e := dmaElem s ch
    let a := dmaDst s ch + x.way * rd s (DMA_SHUF_STRIDE ch) + x.runs * e + x.off
    if x.read = chunkEnd s ch x ∧ x.buf ≠ [] then clip a (chunkRuns s ch x * e - x.off) else (a, 0)
  else clip (dmaDst s ch + x.written) x.buf.length

/-- The bytes that the write burst in flight carries. -/
def writeBytes (s : State) (ch : Nat) (x : DmaXfer) : List Byte :=
  let n := x.wlen
  if dmaShuf s ch then
    let e := dmaElem s ch
    let w := dmaWays s ch
    (List.range n).map (fun i =>
      let k := x.off + i
      x.buf.getD (k / e * (w * e) + x.way * e + k % e) 0)
  else x.buf.take n

/-! ### The engines (R411) -/

/-- The channel is free to issue bursts. (log entry 77, DEDUCED) -/
def mayIssue (s : State) (ch : Nat) : Bool := rd s (DMA_STATUS_STATE ch) == 1

/-- Channel `ch` has work for the read engine and slots to use. -/
def readWork (s : State) (ch : Nat) : Bool :=
  match dmaXfer s ch with
  | some x => mayIssue s ch && decide (0 < readBurst s ch x) && decide (slotsUsed s + slotsNeeded s ch x ≤ 64)
  | none => false

/-- Channel `ch` has work for the write engine. -/
def writeWork (s : State) (ch : Nat) : Bool :=
  match dmaXfer s ch with
  | some x => mayIssue s ch && decide (0 < (writeBurst s ch x).2)
  | none => false

/-- The next channel round robin after `last` that has work. -/
def nextChannel (work : Nat → Bool) (last : Nat) : Option Nat :=
  ((List.range 12).map (fun i => (last + 1 + i) % 12)).find? work

/-- An idle read engine issues the next burst; its slots are taken. -/
def readKick (s : State) : State :=
  if s.dma.reading.isSome then s
  else match nextChannel (readWork s) s.dma.lastRead with
    | none => s
    | some ch =>
      let s := match dmaXfer s ch with
        | some x => setXfer ch (some { x with slots := x.slots + slotsNeeded s ch x }) s
        | none => s
      onDma (fun d => { d with reading := some ch, lastRead := ch }) s

/-- An idle write engine issues the next burst. -/
def writeKick (s : State) : State :=
  if s.dma.writing.isSome then s
  else match nextChannel (writeWork s) s.dma.lastWrite with
    | none => s
    | some ch =>
      let s := match dmaXfer s ch with
        | some x => setXfer ch (some { x with wlen := (writeBurst s ch x).2 }) s
        | none => s
      onDma (fun d => { d with writing := some ch, lastWrite := ch }) s

/-- Each idle engine serves the next channel that has work. -/
def dmaKick (s : State) : State := writeKick (readKick s)

/-! ### Ends (R413 to R416) -/

/-- The 16-byte status record of Table 14-2. (log entry 78, DEDUCED) -/
def dmaRecord (s : State) (ch code residue runs : Nat) : List Byte :=
  bytesOf [BitVec.ofNat 32 (ch * 2 ^ 24 + code * 2 ^ 20 + rd s (DMA_STATUS_RETRIES ch) * 2 ^ 17 + 2 ^ 16 + rd s (DMA_CTRL_TAG ch)),
    BitVec.ofNat 32 residue, BitVec.ofNat 32 runs, BitVec.ofNat 32 s.cyc]

/-- Runs of which every way has been written: those of whole chunks, and those of the last way's part (R412). (log entry 78, DEDUCED) -/
def runsWritten (s : State) (ch : Nat) (x : DmaXfer) : Nat :=
  if dmaShuf s ch then x.runs + (if x.way + 1 = dmaWays s ch then x.off / dmaElem s ch else 0) else 0

/-- The transfer ends with `code`, `residue` and `runs`: record, status fields, vector 5 (R413). -/
def dmaEnd (ch owner code residue runs : Nat) (s : State) : State :=
  let s := if dmaStat s ch = 0 then s
    else { s with out := .hostWrite (dmaStat s ch) (dmaRecord s ch code residue runs) :: s.out }
  let s := setDmaState ch (if code = 2 ∨ code = 3 then 4 else 0) (wr (DMA_STATUS_END ch) code s)
  let s := setXfer ch none (wr (DMA_RESIDUE_RESIDUE ch) residue (wr (DMA_RUNS_RUNS ch) runs s))
  let s := intPulse (260 + ch) s
  if isSet s (DMA_CTRL_IE ch) then vector owner 5 s else s

/-- A write burst of `ch` reaches the host (R411, R412). -/
def dmaWritten (ch : Nat) (x : DmaXfer) (s : State) : State :=
  let a := (writeBurst s ch x).1
  let n := x.wlen
  let bs := writeBytes s ch x
  let y :=
    if dmaShuf s ch then
      let e := dmaElem s ch
      if x.off + n < chunkRuns s ch x * e then { x with off := x.off + n }
      else if x.way + 1 < dmaWays s ch then { x with off := 0, way := x.way + 1 }
      else { x with off := 0, way := 0, runs := x.runs + chunkRuns s ch x, buf := [], slots := 0 }
    else
      let b := x.buf.drop n
      { x with buf := b, slots := x.slots - ((x.buf.length + 511) / 512 - (b.length + 511) / 512) }
  let y := { y with written := x.written + n }
  wr (DMA_RUNS_RUNS ch) (runsWritten s ch y) (setXfer ch (some y) { s with out := .hostWrite a bs :: s.out })

/-- The engines let go of channel `ch`: a write burst already issued is posted and reaches the host, a read is dropped. -/
def dmaLetGo (ch : Nat) (s : State) : State :=
  let s := if s.dma.writing = some ch then
      let s := match dmaXfer s ch with
        | some x => dmaWritten ch x s
        | none => s
      onDma (fun d => { d with writing := none }) s
    else s
  if s.dma.reading = some ch then onDma (fun d => { d with reading := none }) s else s

/-- The transfer of `ch` ends with `code` where it stands. (log entry 77, DEDUCED) -/
def dmaFinish (ch code : Nat) (s : State) : State :=
  let s := dmaLetGo ch s
  match dmaXfer s ch with
  | none => s
  | some x => dmaKick (dmaEnd ch x.owner code (dmaLen s ch - x.written) (runsWritten s ch x) s)

/-- Neither engine has a burst of channel `ch` in flight. -/
def dmaQuiet (s : State) (ch : Nat) : Bool := s.dma.reading != some ch && s.dma.writing != some ch

/-- The owner starts channel `ch` (R410). -/
def dmaStart (ch : Nat) (s : State) : State :=
  let owner := (dmaOwner s ch).getD 0
  let s := wr (DMA_STATUS_RETRIES ch) 0 (wr (DMA_RUNS_RUNS ch) 0 s)
  match dmaRefusal s ch with
  | some code => dmaEnd ch owner code (dmaLen s ch) 0 s
  | none => dmaKick (setDmaState ch 1 (setXfer ch (some { owner }) s))

/-- The owner aborts channel `ch` (R414): a running one ends when the bursts in flight complete, a waiting one at once. -/
def dmaAbort (ch : Nat) (s : State) : State :=
  match dmaXfer s ch with
  | none => s
  | some x =>
    match rd s (DMA_STATUS_STATE ch) with
    | 1 =>
      let s := setDmaState ch 3 (setXfer ch (some { x with abortAt := some s.cyc }) s)
      if dmaQuiet s ch then dmaFinish ch 1 s else s
    | 2 => dmaFinish ch 1 s
    | _ => s

/-- The owner's function `fn` writes `x` to `DMA_CTRL` of channel `ch`: while the channel is active only `ABORT` acts, and a
discarded write sets `CFG_REJ` (R410, R414). A block in another window discards every write (R408). (log entry 78, DEDUCED) -/
def dmaCtrlWrite (fn ch : Nat) (x : Word) (s : State) : State :=
  if dmaOwner s ch ≠ some fn then s
  else if dmaActive s ch then
    let start := bitOf x.toNat 31
    let abort := bitOf x.toNat 30
    let s := if start || !abort then flag (DMA_STATUS_CFG_REJ ch) s else s
    if abort then dmaAbort ch s else s
  else
    let s := wr (DMA_CTRL_IE ch) (bits x 29 29) (wr (DMA_CTRL_RETRY_N ch) (bits x 18 16) (wr (DMA_CTRL_TAG ch) (bits x 15 0) s))
    if bitOf x.toNat 31 then dmaStart ch s else s

/-- `DMA_START_WRITE`: the owner writes `DMA_CTRL` with `START` = 1 and the other bits of `x` (R410). -/
def execDmaStartWrite (dt : Nat) (fn : Fin 256) (ch : Fin 12) (x : Word) (s : State) : Host.Outcome State Fault Refusal :=
  event dt (writes fn (DMA_CTRL ch) (dmaCtrlWrite fn ch (x ||| 0x80000000))) s

/-- `DMA_ABORT_WRITE`: the owner writes `DMA_CTRL` with `ABORT` = 1 and the other bits of `x` (R414). -/
def execDmaAbortWrite (dt : Nat) (fn : Fin 256) (ch : Fin 12) (x : Word) (s : State) : Host.Outcome State Fault Refusal :=
  event dt (writes fn (DMA_CTRL ch) (dmaCtrlWrite fn ch (x ||| 0x40000000))) s

/-- A burst of channel `ch` has failed (R415): no retry once aborted; a retry in 10 µs while any is left; else the channel halts
with `F_0820`. (log entry 77, DEDUCED) -/
def dmaError (ch : Nat) (write : Bool) (x : DmaXfer) (s : State) : State :=
  if x.abortAt.isSome then (if dmaQuiet s ch then dmaFinish ch 1 s else s)
  else if rd s (DMA_STATUS_RETRIES ch) < rd s (DMA_CTRL_RETRY_N ch) then
    setDmaState ch 2 (setXfer ch (some { x with retryAt := some (s.cyc + 4000) })
      (wr (DMA_STATUS_RETRIES ch) (rd s (DMA_STATUS_RETRIES ch) + 1) s))
  else
    let code := if write then 2 else 3
    dmaFinish ch code (raise 0x0820 (0x90 + ch) (BitVec.ofNat 32 (code * 16 + write.toNat)) actHalt s)

/-- A burst of `ch` has completed: an aborted transfer ends once no burst is in flight, DONE if its last byte went out in the
cycle of the abort (R414); any other ends DONE with its last byte. -/
def dmaAfter (ch : Nat) (s : State) : State :=
  match dmaXfer s ch with
  | none => s
  | some x =>
    if x.written = dmaLen s ch ∧ (x.abortAt = none ∨ x.abortAt = some s.cyc) then dmaFinish ch 0 s
    else if x.abortAt.isSome && dmaQuiet s ch then dmaFinish ch 1 s
    else s

/-- The read engine's burst completes: its bytes are in the buffer. -/
def dmaReadDone (ch : Nat) (good : Bool) (s : State) : State :=
  let s := onDma (fun d => { d with reading := none }) s
  match dmaXfer s ch with
  | none => s
  | some x =>
    if good then
      let n := if dmaShuf s ch then readBurst s ch x else min 512 (dmaLen s ch - x.read)
      let new := (List.range n).map (fun i => dmaByte s ch (x.read + i))
      dmaAfter ch (setXfer ch (some { x with read := x.read + n, buf := x.buf ++ new }) s)
    else
      let back := if dmaShuf s ch then (if x.buf = [] then 0 else x.slots) else x.slots - 1
      dmaError ch false { x with slots := back } (setXfer ch (some { x with slots := back }) s)

/-- The write engine's burst completes. -/
def dmaWriteDone (ch : Nat) (good : Bool) (s : State) : State :=
  let s := onDma (fun d => { d with writing := none }) s
  match dmaXfer s ch with
  | none => s
  | some x => if good then dmaAfter ch (dmaWritten ch x s) else dmaError ch true x s

/-- `DMA_BURST_DONE`: the burst that the read engine, or the write engine (`write`), has in flight completes; `good` is false for
an uncorrectable error of the sample memory, or a burst that Bus Master Enable at 0 keeps from being issued (R411, R415). -/
def execDmaBurstDone (dt : Nat) (write good : Bool) (s : State) : Host.Outcome State Fault Refusal :=
  event dt (fun s =>
    if write then
      match s.dma.writing with
      | some ch => dmaKick (dmaWriteDone ch good s)
      | none => s
    else
      match s.dma.reading with
      | some ch => dmaKick (dmaReadDone ch good s)
      | none => s) s

/-- `DMA_RETRY`: 10 µs after an error the channel issues the burst again (R415). -/
def execDmaRetry (dt : Nat) (ch : Fin 12) (s : State) : Host.Outcome State Fault Refusal :=
  event dt (fun s =>
    match dmaXfer s ch with
    | none => s
    | some x =>
      match x.retryAt with
      | none => s
      | some t =>
        if s.cyc < t then s else dmaKick (setDmaState ch 1 (setXfer ch (some { x with retryAt := none }) s))) s

/-- Channel `ch` ends with LINK_LOST: no record, no vector (R416). -/
def dmaLinkLost (ch : Nat) (s : State) : State :=
  match dmaXfer s ch with
  | none => s
  | some x =>
    let s := onDma (fun d =>
      { d with
        reading := if d.reading = some ch then none else d.reading
        writing := if d.writing = some ch then none else d.writing }) s
    let s := wr (DMA_RESIDUE_RESIDUE ch) (dmaLen s ch - x.written) (wr (DMA_STATUS_END ch) 4 s)
    dmaKick (setXfer ch none (setDmaState ch 4 s))

/-- The fields of channel `ch`'s block. (log entry 90, DEDUCED) -/
def dmaBlock (ch : Nat) : List Fld := (List.range 11).flatMap (fun i => dmaFields (64 * ch + 4 * i))

/-- The host channels whose owner satisfies `who` lose their link; with `reset` their blocks return to reset values (R416). (log entry 78, DEDUCED) -/
def dmaDrop (who : Nat → Bool) (reset : Bool) (s : State) : State :=
  (List.range 12).foldl (fun s ch =>
    match dmaOwner s ch with
    | none => s
    | some c =>
      if who c then
        let s := dmaLinkLost ch s
        if reset then resetFields (dmaBlock ch) s else s
      else s) s

/-- PF0 writes `x` to `DMA_GRANT` of channel `ch`; discarded while the channel is active (R416). -/
def dmaGrantWrite (ch : Nat) (x : Word) (s : State) : State :=
  if dmaActive s ch then flag DMA_GSTAT_CFG_REJ s
  else wrB (DMA_GRANT_VALID ch) (bitOf x.toNat 31) (wr (DMA_GRANT_OWNER ch) (bits x 7 0) s)

/-- `DMA_GRANT_WRITE`: PF0 grants or withdraws a channel (R408, R416). -/
def execDmaGrantWrite (dt : Nat) (ch : Fin 12) (x : Word) (s : State) : Host.Outcome State Fault Refusal :=
  event dt (writes 0 (DMA_GRANT ch) (dmaGrantWrite ch x)) s

end Sys2Proof.Machine
end

