-- ==== Sys2Proof/Machine/Domains.lean ====
section
/-! DEFINITION. Power domains: votes, holds, isolation, power-up and what it resets (architecture R35, power R447 to R449,
timers R342, register reference R531). -/
namespace Sys2Proof.Machine

/-- Domain `d` is in state `x`. -/
def setDomain (d : Nat) (x : Domain) (s : State) : State :=
  let s := { s with power := { s.power with domains := Tbl.set Domain.on s.power.domains d x } }
  if 46 ≤ d ∧ d < 68 then pinsRefresh s else s

/-- The state of domain `d`. -/
def domainAt (s : State) (d : Nat) : Domain := Tbl.get Domain.on s.power.domains d

/-- The first domain of each group of Table 1-8, and the end of the last. -/
def groupStarts : List Nat := [0, 4, 12, 44, 46, 54, 62, 68, 72, 73, 74, 78, 79, 81, 117, 133, 135, 143]

/-- First domain of group `g`. -/
def groupStart (g : Nat) : Nat := groupStarts.getD g 143

/-- The group of domain `d`, by its bit of Table 16-1. -/
def groupOf (d : Nat) : Nat := ((List.range 17).filter (fun g => decide (groupStart g ≤ d))).length - 1

/-- The domains of group `g`. -/
def groupDomains (g : Nat) : List Nat :=
  (List.range (groupStart (g + 1) - groupStart g)).map (fun i => groupStart g + i)

/-- Output `o` is enabled by its own bit. -/
def enableBit (s : State) (o : Nat) : Bool :=
  if o < 32 then bitOf (rd s DRV_CH_EN0_EN) o
  else if o < 36 then bitOf (rd s DRV_CH_EN1_EN) (o - 32)
  else bitOf (rd s AUX_EN_EN) (o - 36)

/-- A binding on CAN FD controller `c` is enabled. -/
def canBound (s : State) (c : Nat) : Bool :=
  (List.range 16).any (fun k => isSet s (CAN_BIND_EN k) && rd s (CAN_BIND_CTRL k) == c)

/-- The module holds the domain that stands at place `i` of group `g` (Table 16-1). -/
def holds (s : State) (g i : Nat) : Bool :=
  match g with
  | 0 => i == 0
  | 1 =>
    let p := i / 2
    rotating s || (List.range 52).any (fun o => pairOf o == p && enableBit s o)
      || (List.range 16).any (fun k => (ctxAt s (16 * p + k)).runs)
  | 2 => s.seq.descs.any (fun x => x.1 / 1024 == i)
  | 3 => rotating s || !s.seq.descs.isEmpty
  | 4 => isSet s (PE_CTRL_RUN i)
  | 5 => i == 7 || (List.range 4).any (fun t => timerRuns s (4 * i + t))
  | 9 => true
  | 10 => canBound s i
  | 11 => isSet s PAIR_CFG_ENABLE
  | 12 => (List.range 12).any (dmaActive s)
  | 13 => enableBit s i
  | 14 => enableBit s (36 + i)
  | 15 => isSet s (BST_CFG_ENABLE i) || boostState s i == 5
  | 16 => (List.range 36).any (fun c => converterOf c == i && isSet s (CD_CFG_ENABLE c))
  | _ => false

/-- Domain `d` is held. -/
def held (s : State) (d : Nat) : Bool := holds s (groupOf d) (d - groupStart (groupOf d))

/-- Every group that a client's vote or `PWR_BASE` names (R447, R448). -/
def votes (s : State) : Nat :=
  (List.range 256).foldl (fun a c => a ||| rd s (CLI_PWR_VOTE_VOTE c)) (rd s PWR_BASE_BASE)

/-- Domain `d` is to be powered, the groups `v` being voted. -/
def wanted (s : State) (v d : Nat) : Bool := bitOf v (groupOf d) || held s d

/-- The isolation of domain `d` closes: lists on a converter stop, the ADC reference is no longer settled (acquisition R330,
R331). -/
def isolateDomain (d : Nat) (s : State) : State :=
  let s := setDomain d (.isolated s.cyc) s
  if 68 ≤ d ∧ d < 72 then acqDomainOff (d - 68) s
  else if d = 72 then refUnsettle s
  else s

/-- What domain `d` does about its votes and holds. -/
def domainStep (v d : Nat) (s : State) : State :=
  match domainAt s d with
  | .on => if wanted s v d then s else isolateDomain d s
  | .off => if wanted s v d then setDomain d .rising s else s
  | _ => s

/-- Votes and holds may have changed: domains that nothing keeps are isolated, and domains that something wants rise (R447 to
R449). Votes wait while a swap of firmware is under way (start-up Table 15-6). (log entry 127, DEDUCED) -/
def powerUpdate (s : State) : State :=
  if s.boot.swap.isSome ∨ (s.power.domains = [] ∧ rd s PWR_BASE_BASE = 0x1FFFF) then s
  else
    let v := votes s
    (List.range 143).foldl (fun s d => domainStep v d s) s

/-- The registers that stand in CAN FD controller `c` and its bindings back at reset (R531). -/
def canReset (c : Nat) (s : State) : State :=
  let mine := (List.range 16).filter (fun k => rd s (CAN_BIND_CTRL k) == c)
  let s := mine.foldl (fun s k => resetFields (globalFields (CAN_BIND k) ++ globalFields (CAN_BINDR k)) s) s
  let s := { s with can := { s.can with bindings := s.can.bindings.filter (fun x => !mine.contains x.1) } }
  [CAN_CTRL c, CAN_NBT c, CAN_DBT c, CAN_TDC c, CAN_TP c, CAN_STAT c].foldl (fun s o => resetFields (globalFields o) s) s

/-- The registers inside domain `d` are lost; they come back at their reset values (R342, R449, R531). (log entry 81, DEDUCED) -/
def domainLost (d : Nat) (s : State) : State :=
  match groupOf d with
  | 4 => peReset (d - 46) s
  | 5 => (List.range 4).foldl (fun s t => timerReset (4 * (d - 54) + t) s) s
  | 6 => posReset (d - 62) s
  | 10 => canReset (d - 74) s
  | _ => s

/-- The domain that is always switched together with domain `d`: the other core of its tally pair, the other angle tracker, or
itself (architecture R35). -/
def partnerOf (d : Nat) : Nat := if (4 ≤ d ∧ d < 12) ∨ d = 44 ∨ d = 45 then d / 2 * 2 + (1 - d % 2) else d

/-- Domain `d` and its partner are in state `x`. -/
def setDomains (d : Nat) (x : Domain) (s : State) : State := setDomain (partnerOf d) x (setDomain d x s)

/-- `DOMAIN_SWITCH_OPEN`: 1 µs after its isolation the switch of domain `d` opens (R449), and that of its partner with it
(architecture R35). -/
def execDomainSwitchOpen (dt : Nat) (d : Fin 143) (s : State) : Host.Outcome State Fault Refusal :=
  event dt (fun s =>
    match domainAt s d with
    | .isolated t => if s.cyc < t + 400 then s else powerUpdate (setDomains d .off (domainLost d s))
    | _ => s) s

/-- `DOMAIN_RAIL_GOOD`: the rail of domain `d`, with that of its partner, is good; reset and isolation are released (R449), the ADC
reference settles anew (acquisition R330), and an auxiliary output whose lane is ON is energised (auxiliary R278). -/
def execDomainRailGood (dt : Nat) (d : Fin 143) (s : State) : Host.Outcome State Fault Refusal :=
  event dt (fun s =>
    match domainAt s d with
    | .rising =>
      let s := setDomains d .on s
      let s := if (d : Nat) = 72 then refUnsettle s else if 117 ≤ (d : Nat) ∧ (d : Nat) < 133 then auxEnergise (d - 117) s else s
      powerUpdate s
    | _ => s) s

/-- `PWR_ON`: groups with a domain whose switch is closed. (log entry 81, DEDUCED) -/
def powerOn (s : State) : Nat :=
  (List.range 17).foldl (fun a g => if (groupDomains g).any (fun d => domainAt s d != .off) then a + 2 ^ g else a) 0

/-- `PWR_HELD`: groups with a domain held. -/
def powerHeld (s : State) : Nat :=
  (List.range 17).foldl (fun a g => if (groupDomains g).any (held s) then a + 2 ^ g else a) 0

end Sys2Proof.Machine
end

