-- ==== Sys2Proof/Machine/HostLink.lean ====
section
/-! DEFINITION. The host link: rings, message checks and dispatch, sessions and versions, classes and grants, loss of the
host, load shedding (host link R369 to R399). -/
namespace Sys2Proof.Machine

/-- Vector 2 of client `c`: `REQ_HALT`, `RING_ERR`, `SESSION_LOST` or `MP_SAT` changed (Table 13-6b). -/
def hostVector (c : Nat) (s : State) : State := vector c 2 s

/-- `RING_ERR` of client `c` is set. -/
def ringErr (c : Nat) (s : State) : State := hostVector c (flag (CLI_HL_STATUS_RING_ERR c) s)

/-- The request ring of client `c` is halted (R381). -/
def haltRing (c : Nat) (s : State) : State := hostVector c (wrB (CLI_HL_STATUS_REQ_HALT c) true s)

/-- The module moves `CLI_REQ_HEAD` on by `n` entries and writes its shadow (R373, R375). -/
def moveHead (c n : Nat) (s : State) : State :=
  shadowWrite c (wr (CLI_REQ_HEAD_HEAD c) ((rd s (CLI_REQ_HEAD_HEAD c) + n) % reqSize s c) s)

/-! ### Ends of sessions (R399) -/

/-- The end of client `c`'s session: `SESSION_LOST`, votes cleared, responses of its outstanding requests void, and the
loss policy of Table 13-6c. `ring` tells whether its ring still works for the policy's notices. (log entry 14, DEDUCED) -/
def endSession (c : Nat) (ring : Bool) (s : State) : State :=
  if !sessionOpen s c then s
  else
    let s := wrB (CLI_HL_STATUS_SESSION c) false s
    let s := hostVector c (flag (CLI_HL_STATUS_SESSION_LOST c) s)
    let s := wr (CLI_PWR_VOTE_VOTE c) 0 s
    let loss := rd s (HL_CLIENT_LOSS c)
    let s := onClient c (fun x =>
      { x with ringLeft := ring && loss != 0, requests := x.requests.map (fun r => { r with dead := true }) }) s
    let s := if loss = 1 then seqFinish c s else if loss = 2 then plsStopOwned c (seqCut c s) else s
    powerUpdate s

/-- Sessions of every client served over PCI Express end; `F_0802`, `LINK_LOST` (R399). -/
def endPcieSessions (s : State) : State :=
  let s := raise 0x0802 0xE1 0 0 (flag HL_STATUS_LINK_LOST s)
  (List.range 256).foldl (fun s c => if canBindingOf s c = none then endSession c false s else s) s

/-- The client registers of Table 13-6, which PERST#, a hot reset and a Function Level Reset return to reset. -/
def hostRegs (c : Nat) : List Fld :=
  (List.range 20).flatMap (fun i => clientFields c (0x100 + 4 * i))

/-- The MSI-X coalescing registers of a function (R425). -/
def msixRegs (c : Nat) : List Fld := (List.range 8).flatMap (fun v => [CLI_MSIX_COAL_TIME c v, CLI_MSIX_COAL_COUNT c v])

/-- The registers of client `c` return to reset. -/
def resetClient (c : Nat) (s : State) : State :=
  resetFields (hostRegs c) (if (client s c).owed.isEmpty then s else onClient c (fun x => { x with owed := [] }) s)

/-- `GOODBYE (0x0002)`: answered, and then the session ends (R390). -/
def execGoodbye (m : Msg) (s : State) : Host.Outcome State Fault Refusal :=
  command 0x0002 m (fun s => endSession m.client true (ok 0x0002 m s)) s

/-- `LEASE_EXPIRY`: no doorbell, keep-alive or CAN FD frame has come for `LEASE` × 10 ms; the session ends with `F_0801`. -/
def execLeaseExpiry (dt : Nat) (c : Fin 256) (s : State) : Host.Outcome State Fault Refusal :=
  event dt (fun s =>
    let l := rd s (HL_CLIENT_LEASE c)
    if sessionOpen s c && l != 0 && decide ((client s c).alive + l * 4000000 ≤ s.cyc) then
      endSession c true (raise 0x0801 0xE0 (detailClient c) 0 s)
    else s) s

/-- `DATA_LINK_DOWN`: every PCI Express session ends (R399). -/
def execDataLinkDown (dt : Nat) (s : State) : Host.Outcome State Fault Refusal :=
  event dt (fun s => dmaDrop (fun _ => true) false (endPcieSessions s)) s

/-- A reset of PF0 empties its paired-write slots without counting a reject (register reference R534). -/
def clearSlots (s : State) : State := wrB (CLI_REG_STATUS_PW_PEND 0) false { s with slots := [] }

/-- The virtual functions are there no more, and PF0's settings of configuration space, with `all`, return to reset (R369, R399). -/
def dropFns (all : Bool) (s : State) : State :=
  { s with host := { s.host with vfEnable := false, pcie := s.host.pcie.filter (fun x => !all && x.1 == 0) } }

/-- Every function is reset in this cycle. -/
def resetsAll (s : State) : State := (List.range 256).foldl (fun s c => resetsFn c s) s

/-- The registers of every client return to reset. -/
def resetClients (s : State) : State := (List.range 256).foldl (fun s c => resetClient c s) s

/-- A reset of PF0 or of the endpoint: every PCI Express session ends, the slots empty, and every DMA channel lets go (R399,
DMA R425). -/
def dropAll (s : State) : State := dmaDrop (fun _ => true) true (clearSlots (endPcieSessions s))

/-- The endpoint answers Configuration Requests with Request Retry Status from now on (R436). -/
def unconfigure (s : State) : State := { s with boot := { s.boot with configReady := false } }

/-- PERST# changes to `asserted`. -/
def perst (asserted : Bool) (s : State) : State :=
  let s := { s with host := { s.host with perst := asserted } }
  if asserted then dropFns true (resetClients (unconfigure (dropAll (resetsAll s)))) else s

/-- `PERST`: at its assertion every PCI Express session ends and the client registers return to reset; at its release the
endpoint starts towards configuration ready (R399, R436). -/
def execPerst (dt : Nat) (asserted : Bool) (s : State) : Host.Outcome State Fault Refusal := event dt (perst asserted) s

/-- `HOT_RESET`: every PCI Express session ends and the client registers return to reset (R399). -/
def execHotReset (dt : Nat) (s : State) : Host.Outcome State Fault Refusal :=
  event dt (fun s => dropFns true (resetClients (resetsAll (dropAll s)))) s

/-- What the configuration space held of function `fn` is at its reset value again (R399). -/
def forgetFn (fn : Nat) (s : State) : State := { s with host := { s.host with pcie := Tbl.erase s.host.pcie fn } }

/-- Function `fn` is reset by itself: PF0's reset empties the slots and ends every PCI Express session, a virtual function's ends its
own (R399, R425). -/
def functionReset (fn : Nat) (s : State) : State :=
  let s := if fn = 0 then dropFns true (clearSlots (endPcieSessions s))
    else if canBindingOf s fn = none then endSession fn false s else s
  let s := forgetFn fn s
  resetsFn fn (resetFields (msixRegs fn) (resetClient fn (dmaDrop (fun c => c == fn) true s)))

/-- `FUNCTION_LEVEL_RESET` of function `fn`: its session ends and its registers return to reset; PF0's ends every PCI
Express session (R399, R425). -/
def execFunctionLevelReset (dt : Nat) (fn : Fin 256) (s : State) : Host.Outcome State Fault Refusal :=
  event dt (functionReset fn) s

/-- `VF_ENABLE_CLEAR`: every PCI Express session ends, and the virtual functions answer no more (R369, R399). -/
def execVfEnableClear (dt : Nat) (s : State) : Host.Outcome State Fault Refusal := event dt (fun s => dropFns false (endPcieSessions s)) s

/-- The host sets what it finds in configuration space: VF Enable, and the settings `fns` of the functions; a message that MSI-X Enable
has kept back goes out (R369, R395). (log entry 120, DESIGN CHOICE) -/
def configure (vf : Bool) (fns : List (Fin 256 × PcieFn)) (s : State) : State :=
  let s := { s with
    boot := { s.boot with configReady := true }
    host := { s.host with vfEnable := vf, pcie := fns.foldl (fun t x => Tbl.set {} t x.1.val x.2) s.host.pcie } }
  fns.foldl (fun s x => (List.range 8).foldl (fun s v => msixRelease x.1 v s) s) s

/-- `PCIE_CONFIG_READY`: the endpoint stops answering Configuration Requests with Request Retry Status, and the host configures it (R369,
R436). -/
def execPcieConfigReady (dt : Nat) (vf : Bool) (fns : List (Fin 256 × PcieFn)) (s : State) : Host.Outcome State Fault Refusal :=
  event dt (fun s => if s.host.perst then s else configure vf fns s) s

/-! ### Client registers -/

/-- A write of `CLI_REQ_TAIL`, the doorbell: a value with bits at or above `REQ_LOG2` is discarded with `RING_ERR` (R373). It
renews the lease and ends DOZE (R399, power R452). -/
def doorbell (fn : Nat) (x : Word) (s : State) : State :=
  let s := leaveDoze (onClient fn (fun c => { c with alive := s.cyc }) s)
  let v := bits x 11 0
  if reqSize s fn ≤ v then ringErr fn s
  else intRaise (4 + fn) (wr (CLI_REQ_TAIL_TAIL fn) v s)

/-- `DOORBELL`: function `fn` writes `x` to `CLI_REQ_TAIL` (R373). -/
def execDoorbell (dt : Nat) (fn : Fin 256) (x : Word) (s : State) : Host.Outcome State Fault Refusal :=
  event dt (writes fn (CLI_REQ_TAIL fn) (doorbell fn x)) s

/-- The host returns entries of the response ring: responses that wait for them are written (R374, R385). -/
def rspHeadWrite (fn : Nat) (x : Word) (s : State) : State :=
  let s := wr (CLI_RSP_HEAD_HEAD fn) (bits x 11 0) s
  if (client s fn).owed.isEmpty then s else rspFlush fn (client s fn).owed s

/-- `CLI_RSP_HEAD_WRITE`: the host returns response ring entries (R374). -/
def execCliRspHeadWrite (dt : Nat) (fn : Fin 256) (x : Word) (s : State) : Host.Outcome State Fault Refusal :=
  event dt (writes fn (CLI_RSP_HEAD fn) (rspHeadWrite fn x)) s

/-- `CLI_FLT_HEAD_WRITE`: the host returns fault ring entries (R374). -/
def execCliFltHeadWrite (dt : Nat) (fn : Fin 256) (x : Word) (s : State) : Host.Outcome State Fault Refusal :=
  event dt (writes fn (CLI_FLT_HEAD fn) (wr (CLI_FLT_HEAD_HEAD fn) (bits x 11 0))) s

/-- Every index of client `c` at 0, both phases at 1 (R372). -/
def startRings (c : Nat) (s : State) : State :=
  let s := wr (CLI_REQ_TAIL_TAIL c) 0 (wr (CLI_REQ_HEAD_HEAD c) 0 s)
  let s := wr (CLI_RSP_TAIL_TAIL c) 0 (wr (CLI_RSP_HEAD_HEAD c) 0 (wr (CLI_RSP_TAIL_PHASE c) 1 s))
  wr (CLI_FLT_TAIL_TAIL c) 0 (wr (CLI_FLT_HEAD_HEAD c) 0 (wr (CLI_FLT_TAIL_PHASE c) 1 s))

/-- The three ring sizes of a written `CLI_RING_CFG` lie in 4 to 12. -/
def ringCfgOk (x : Word) : Bool :=
  [bits x 11 8, bits x 7 4, bits x 3 0].all (fun n => decide (4 ≤ n) && decide (n ≤ 12))

/-- A write of `CLI_RING_CFG`: with `ENABLE` at 1 only a write of `ENABLE` = 0 acts, and it ends the session; otherwise the sizes
are checked, and a rise of `ENABLE` starts the rings at index 0 (R372, R399). (log entry 13, DEDUCED) -/
def ringCfgWrite (fn : Nat) (x : Word) (s : State) : State :=
  if isSet s (CLI_RING_CFG_ENABLE fn) then
    if bitOf x.toNat 31 then flag (CLI_HL_STATUS_CFG_REJ fn) s
    else wrB (CLI_RING_CFG_ENABLE fn) false (onClient fn (fun c => { c with owed := [] }) (endSession fn false s))
  else if !ringCfgOk x then flag (CLI_HL_STATUS_CFG_REJ fn) s
  else
    let s := swWrite (CLI_RING_CFG fn) (clientFields fn 0x120) x s
    if bitOf x.toNat 31 then startRings fn s else s

/-- `CLI_RING_CFG_WRITE`: function `fn` writes `x` to `CLI_RING_CFG` (R372). -/
def execCliRingCfgWrite (dt : Nat) (fn : Fin 256) (x : Word) (s : State) : Host.Outcome State Fault Refusal :=
  event dt (writes fn (CLI_RING_CFG fn) (ringCfgWrite fn x)) s

/-- A write of `CLI_REQ_RESUME`: a halted ring resumes at an index from head to tail; another index sets `RING_ERR` (R381). (log entry 13, DEDUCED) -/
def resumeWrite (fn : Nat) (x : Word) (s : State) : State :=
  let v := bits x 11 0
  let size := reqSize s fn
  let h := rd s (CLI_REQ_HEAD_HEAD fn)
  let t := rd s (CLI_REQ_TAIL_TAIL fn)
  if !isSet s (CLI_HL_STATUS_REQ_HALT fn) then s
  else if v < size ∧ (v + size - h) % size ≤ (t + size - h) % size then
    hostVector fn (wrB (CLI_HL_STATUS_REQ_HALT fn) false (shadowWrite fn (wr (CLI_REQ_HEAD_HEAD fn) v s)))
  else ringErr fn s

/-- `CLI_REQ_RESUME_WRITE`: function `fn` writes `x` to `CLI_REQ_RESUME` (R381). -/
def execCliReqResumeWrite (dt : Nat) (fn : Fin 256) (x : Word) (s : State) : Host.Outcome State Fault Refusal :=
  event dt (writes fn (CLI_REQ_RESUME fn) (resumeWrite fn x)) s

/-- A write of `CLI_KEEPALIVE`: `KICK` renews the lease (R399). -/
def keepAliveWrite (fn : Nat) (x : Word) (s : State) : State :=
  if bitOf x.toNat 0 then onClient fn (fun c => { c with alive := s.cyc }) s else s

/-- `CLI_KEEPALIVE_WRITE`: function `fn` writes `x` to `CLI_KEEPALIVE` (R399). -/
def execCliKeepaliveWrite (dt : Nat) (fn : Fin 256) (x : Word) (s : State) : Host.Outcome State Fault Refusal :=
  event dt (writes fn (CLI_KEEPALIVE fn) (keepAliveWrite fn x)) s

/-- A write of `CLI_PWR_VOTE`: the client's votes; discarded below version 3.1 (power R448). -/
def voteWrite (fn : Nat) (x : Word) (s : State) : State :=
  if versionOf s fn < 0x31 then s else powerUpdate (wr (CLI_PWR_VOTE_VOTE fn) (bits x 16 0) s)

/-- `CLI_PWR_VOTE_WRITE`: function `fn` writes `x` to `CLI_PWR_VOTE` (power R448). -/
def execCliPwrVoteWrite (dt : Nat) (fn : Fin 256) (x : Word) (s : State) : Host.Outcome State Fault Refusal :=
  event dt (writes fn (CLI_PWR_VOTE fn) (voteWrite fn x)) s

/-! ### Classes and grants (R391, R392) -/

/-- Client `c` owns an output. (log entry 15, DEDUCED) -/
def holdsGrant (s : State) (c : Nat) : Bool :=
  (List.range 52).any (fun o => ownerOf s o == some c)

/-- A write of `HL_CLIENT_n`: class, loss policy and lease of client `n`, with the refusals of R391. -/
def hlClientWrite (n : Nat) (x : Word) (s : State) : State :=
  let cls := bits x 1 0
  let second : Bool := cls == 0 && match safetyClient s with
    | some c => c != n
    | none => false
  if cls = 3 ∨ bits x 3 2 = 3 ∨ second ∨ (cls = 2 ∧ (holdsDescriptor s n || holdsGrant s n)) then
    flag HL_STATUS_CFG_REJ s
  else wr (HL_CLIENT_LEASE n) (bits x 15 8) (wr (HL_CLIENT_LOSS n) (bits x 3 2) (wr (HL_CLIENT_CLASS n) cls s))

/-- `HL_CLIENT_WRITE`: PF0 writes `x` to `HL_CLIENT_n` (R391). -/
def execHlClientWrite (dt : Nat) (n : Fin 256) (x : Word) (s : State) : Host.Outcome State Fault Refusal :=
  event dt (writes 0 (HL_CLIENT n) (hlClientWrite n x)) s

/-- A write of `HL_OWN_c`: the grant of output `o`, with the refusals of R392; a withdrawal acts on pulse bindings. (log entry 15, DEDUCED) -/
def hlOwnWrite (o : Nat) (x : Word) (s : State) : State :=
  let v := bitOf x.toNat 31
  let c := bits x 7 0
  let held : Bool := match ownerOf s o with
    | some p => (!v || p != c) && ownerNamesOutput s p o
    | none => false
  if oddMember s o || held then flag HL_STATUS_CFG_REJ s
  else
    let was := ownerOf s o
    let s := wr (HL_OWN_OWNER o) c (wrB (HL_OWN_VALID o) v s)
    if was.isSome && was != ownerOf s o then grantWithdrawn o s else s

/-- `HL_OWN_WRITE`: PF0 writes `x` to `HL_OWN_c` of output `o` (R392). -/
def execHlOwnWrite (dt : Nat) (o : Fin 52) (x : Word) (s : State) : Host.Outcome State Fault Refusal :=
  event dt (writes 0 (HL_OWN o) (hlOwnWrite o x)) s

/-! ### Requests (R376 to R385) -/

/-- Words of `n` ring entries. -/
def entryWords : Nat := 16

/-- Opcodes whose request buffer holds an image checked by its own CRC-32, not paired words (R379). -/
def rawBuffer (opcode : Nat) : Bool := opcode == 0x0150 || opcode == 0x0500

/-- The value words of a paired payload, or none where a pair fails (R377). -/
def pairedValues : List Word → Option (List Word)
  | [] => some []
  | [_] => none
  | v :: c :: r => if c = ~~~v then (pairedValues r).map (v :: ·) else none

/-- A request is answered with a transport refusal without having been dispatched. -/
def refuseRead (c opcode seq status detail : Nat) (s : State) : State :=
  let s := count (CLI_HL_COUNT_REFUSED c) 1 s
  sendResponse ⟨c, seq, false, [], 0, 0⟩
    { client := c, opcode, seq, status, detail, unsol := false, words := [] } s

/-- A pair of client `c`'s message or its header fails at hop 1: `F_0201`, no descriptor concerned (architecture R24, Table 17-5). -/
def hop1 (c : Nat) (s : State) : State := raise 0x0201 0xE0 (BitVec.ofNat 32 (0xFFFF0000 + c * 256 + 1)) actEvent s

/-- The indirect descriptor's fields lie in their ranges (Table 13-3). -/
def indirectOk (v : List Word) : Bool :=
  let w := fun i => (v.getD i 0).toNat
  v.length == 6 && w 0 % 8 == 0 && decide (8 ≤ w 2) && decide (w 2 ≤ 65536) && w 2 % 8 == 0 &&
    w 3 % 8 == 0 && decide (w 5 ≤ 65536) && w 5 % 8 == 0

/-- The version that a flag needs: `INDIRECT` 2.0, `FENCE` 2.1 (Table 13-6a). -/
def flagsDenied (s : State) (c flags : Nat) : Bool :=
  sessionOpen s c &&
    ((bitOf flags 0 && decide (versionOf s c < 0x20)) || (bitOf flags 1 && decide (versionOf s c < 0x21)))

/-- A checked message joins client `c`'s requests and is dispatched when its turn comes. -/
def takeRequest (c opcode seq flags : Nat) (v : List Word) (s : State) : State :=
  let ind := bitOf flags 0
  let w := fun i => (v.getD i 0).toNat
  let msg : Msg :=
    { client := c, seq, urgent := bitOf flags 2, words := if ind then [] else v
      rspLen := if ind then w 5 else 0, rspAddr := if ind then w 3 + w 4 * 2 ^ 32 else 0 }
  let r : Request :=
    { opcode, fence := bitOf flags 1, msg, since := s.cyc, fetched := !ind, dispatched := false, dead := false }
  let s := if ind then { s with out := .hostRead (w 0 + w 1 * 2 ^ 32) (w 2) :: s.out } else s
  dispatch c (onClient c (fun x => { x with requests := x.requests ++ [r] }) s)

/-- The message at the head of a transport passes the checks of Table 13-4 in order. `ws` are its words from the header
on, `can` tells that CAN FD carries it, `consume` moves the transport past the whole message. (log entry 19, DEDUCED) -/
def checkRequest (c : Nat) (can : Bool) (ws : List Word) (consume : State → State) (s : State) : State :=
  let h0 := ws.getD 0 0
  let h1 := ws.getD 1 0
  let opcode := bits h0 31 16
  let len := bits h0 15 0
  let seq := bits h1 23 8
  let flags := bits h1 7 0
  let ind := bitOf flags 0
  let pay := (ws.drop 4).take (len / 4)
  let no := fun st d s => refuseRead c opcode seq st d (consume s)
  if bits h1 31 24 ≠ c then no 0x1E 0 s
  else if 8 ≤ flags ∨ (bitOf flags 2 ∧ opcode / 256 ≠ 3) then no 0x12 0 s
  else match pairedValues pay with
    | none => no 0x01 1 (hop1 c s)
    | some v =>
      if ind && !indirectOk v then no 0x14 0 s
      else if opRow opcode = none then no 0x16 0 s
      else if opcode ≠ 1 ∧ !sessionOpen s c then no 0x17 0 s
      else if flagsDenied s c flags then no 0x1A 0 s
      else if ind && can then
        let m : Msg := { client := c, seq, urgent := bitOf flags 2, words := [], rspLen := 0, rspAddr := 0 }
        match commonCheck opcode m s with
        | some (st, d) => if st = 0x0B then no 0x1D 0 s else no st d s
        | none => no 0x1D 0 s
      else takeRequest c opcode seq flags v (consume s)

/-- A halting refusal consumes one entry and halts the ring (R378, R380). -/
def refuseHalt (c opcode seq status : Nat) (s : State) : State :=
  haltRing c (refuseRead c opcode seq status 0 (moveHead c 1 s))

/-- The ring may be read: enabled, in service, not halted, entries handed over, room for one response (R372, R381, R385). -/
def ringReadable (s : State) (c : Nat) : Bool :=
  isSet s GLB_BOOT_FW_READY && isSet s (CLI_RING_CFG_ENABLE c) && !isSet s (CLI_HL_STATUS_REQ_HALT c) &&
    (canBindingOf s c).isNone && decide (rd s (CLI_REQ_HEAD_HEAD c) ≠ rd s (CLI_REQ_TAIL_TAIL c)) &&
    decide (rspReserved s c + 1 ≤ rspFree s c)

/-- Firmware requests of client `c` dispatched and not yet answered (R384). -/
def firmwareOut (s : State) (c : Nat) : Nat :=
  ((client s c).requests.filter (fun r => isFirmware r.opcode)).length

/-- The words read from client `c`'s request ring are checked and its first message taken or refused. -/
def readRing (c : Nat) (ws : List Word) (s : State) : State :=
  let h0 := ws.getD 0 0
  let seq := bits (ws.getD 1 0) 23 8
  let opcode := bits h0 31 16
  let len := bits h0 15 0
  let ind := bitOf (ws.getD 1 0).toNat 0
  let size := reqSize s c
  let e := (16 + len + 63) / 64
  let avail := (rd s (CLI_REQ_TAIL_TAIL c) + size - rd s (CLI_REQ_HEAD_HEAD c)) % size
  if ws.getD 3 0 ≠ ~~~h0 then refuseHalt c opcode seq 0x10 (hop1 c s)
  else if len % 8 ≠ 0 ∨ 1008 < len ∨ (ind ∧ len ≠ 48) then refuseHalt c opcode seq 0x11 s
  else if 16 < e ∨ size < 2 * e then refuseHalt c opcode seq 0x13 s
  else if avail < e ∨ ws.length < 16 * e then s
  else if isFirmware opcode && (decide (16 ≤ firmwareOut s c) || !readsFirmware s) then s
  else if rspFree s c < rspReserved s c + rspEntries s c opcode (if ind then List.replicate 16 0xFFFFFFFF
      else (pairedValues ((ws.drop 4).take (len / 4))).getD []) then s
  else checkRequest c false ws (moveHead c e) s

/-- `REQUEST_READ`: the words of client `c`'s request ring from its head on, `none` for a read that ended in an error, which
halts the ring with `F_0800` (R380 to R385). (log entry 11, DEDUCED) -/
def execRequestRead (dt : Nat) (c : Fin 256) (ws : Option (List Word)) (s : State) : Host.Outcome State Fault Refusal :=
  event dt (fun s =>
    if ringReadable s c then
      match ws with
      | none => ringErr c (haltRing c (raise 0x0800 0xE0 (detailClient c) actHalt s))
      | some ws => readRing c ws s
    else s) s

/-- The request waiting for its buffer. -/
def awaitsFetch (seq : Nat) (r : Request) : Bool := r.msg.seq == seq && !r.fetched

/-- The first request of the list that waits for its buffer, changed by `f`. -/
def fillFirst (seq : Nat) (f : Request → Request) : List Request → List Request
  | [] => []
  | r :: rs => if awaitsFetch seq r then f r :: rs else r :: fillFirst seq f rs

/-- `INDIRECT_FETCH_DONE`: the request buffer of client `c`'s message has been read (`none`: it ended in an error); its
pairs are checked as hop 1, and the message is dispatched (R379, R380). -/
def execIndirectFetchDone (dt : Nat) (c : Fin 256) (seq : BitVec 16) (ws : Option (List Word)) (s : State) :
    Host.Outcome State Fault Refusal :=
  event dt (fun s =>
    match (client s c).requests.find? (awaitsFetch seq.toNat) with
    | none => s
    | some r =>
      match ws with
      | none => refuse r.opcode r.msg 0x14 s
      | some ws =>
        match if rawBuffer r.opcode then some ws else pairedValues ws with
        | none =>
          respond r.opcode r.msg 0x01 1 [] (hop1 c s)
        | some v =>
          dispatch c (onClient c (fun x =>
            { x with requests := fillFirst seq.toNat (fun r =>
                { r with fetched := true, msg := { r.msg with words := v } }) x.requests }) s)) s

/-- `HELD_NOTICE_WRITE`: response ring space has appeared; the oldest held notice is written, or `NOTICES_LOST (0x0281)` when
none is held and some were lost (R393). (log entry 14, DEDUCED) -/
def execHeldNoticeWrite (dt : Nat) (c : Fin 256) (s : State) : Host.Outcome State Fault Refusal :=
  event dt (fun s =>
    let x := client s c
    let room := fun n => decide (n + rspReserved s c ≤ rspFree s c) && isSet s (CLI_RING_CFG_ENABLE c)
    if (canBindingOf s c).isSome then s
    else match x.held with
    | m :: rest =>
      if room (entries m.words.length) then
        rspWrite c (entries m.words.length) false m (onClient c (fun x => { x with held := rest }) s)
      else s
    | [] =>
      if x.lost = 0 || !room 1 then s
      else
        let n := if versionOf s c < 0x32 then 0 else x.lost
        let m : ModMsg :=
          { client := c, opcode := 0x0281, seq := 0, status := 0, detail := 0, unsol := true
            words := [BitVec.ofNat 32 n, BitVec.ofNat 32 x.lostFirst, BitVec.ofNat 32 x.lostLast, 0] }
        rspWrite c 1 false m (onClient c (fun x => { x with lost := 0, lostFirst := 0, lostLast := 0 }) s)) s

/-! ### Sessions (R387) -/

/-- Versions of firmware 3.2.0, highest first, as 16 × major + minor (R387). -/
def supported : List Nat := [0x32, 0x31, 0x30, 0x23, 0x22, 0x21, 0x20, 0x10]

/-- The highest supported version from `lo` to `hi` (each 256 × major + minor); SAFETY is given 3.0 or later. -/
def chooseVersion (lo hi : Nat) (safety : Bool) : Option Nat :=
  supported.find? (fun v =>
    let w := v / 16 * 256 + v % 16
    decide (lo ≤ w) && decide (w ≤ hi) && (!safety || decide (0x30 ≤ v)))

/-- The features that version `v` carries: INDIRECT, FENCE, SHADOW, FAULT_RING, URGENT (Tables 13-5, 13-6a). -/
def versionFeatures (v : Nat) : Nat :=
  (if 0x20 ≤ v then 1 else 0) + (if 0x21 ≤ v then 2 else 0) + (if 0x23 ≤ v then 4 + 8 else 0) + (if 0x30 ≤ v then 16 else 0)

/-- `HELLO (0x0001)`: opens a session at the highest common version with the features it carries (R387). (log entry 125, DEDUCED) -/
def execHello (m : Msg) (s : State) : Host.Outcome State Fault Refusal :=
  command 0x0001 m (fun s =>
    let c := m.client
    match reservedBad m [0xFFFFFFFF, 0x1F, 0] with
    | some i => respond 0x0001 m 0x0B i [] s
    | none =>
      if sessionOpen s c then refuse 0x0001 m 0x18 s
      else match chooseVersion (bits (word m 0) 31 16) (bits (word m 0) 15 0) (isSafety s c) with
        | none => refuse 0x0001 m 0x19 s
        | some v =>
          let feat := (word m 1).toNat &&& versionFeatures v
          let s := wr (CLI_HL_STATUS_VERSION c) v (wrB (CLI_HL_STATUS_SESSION c) true s)
          let s := onClient c (fun x => { x with features := feat, alive := s.cyc, ringLeft := false }) s
          let can := if (canBindingOf s c).isSome then 1 else 0
          respond 0x0001 m 0 0
            [BitVec.ofNat 32 (v / 16 * 256 + v % 16 + classOf s c * 2 ^ 16), BitVec.ofNat 32 feat,
             BitVec.ofNat 32 (c + can * 256), BitVec.ofNat 32 (rd s (SEQ_QUOTA_QUOTA c)), wordNow s (globalFields 4), 0] s) s

/-- `ECHO (0x0300)`: returns the value words, in order, up to 16 (R524). -/
def execEcho (m : Msg) (s : State) : Host.Outcome State Fault Refusal :=
  command 0x0300 m (fun s =>
    if 16 < m.words.length then respond 0x0300 m 0x0B 0xFF [] s else respond 0x0300 m 0 0 m.words s) s

/-! ### Load and restarts of the management cores (R396 to R398) -/

/-- The level changes to `n`: entering level 1 raises `F_0803`, and a change of `MP_SAT` raises vector 2 everywhere. (log entry 16, DESIGN CHOICE) -/
def setLevel (n : Nat) (s : State) : State :=
  let old := rd s HL_STATUS_LEVEL
  let s := wr HL_STATUS_LEVEL n s
  let s := if old = 0 ∧ n = 1 then raise 0x0803 0x7C 0 0 s else s
  if (old = 0) ≠ (n = 0) then vectorAll 2 s else s

/-- `LOAD_WINDOW`: a 10 ms window ended with a mean load of `load` percent; the level rises after three windows above 90 % and
falls after three below 70 % (R396). A swap of firmware stands instead of the shedding (start-up Table 15-6). (log entry 127, DEDUCED) -/
def execLoadWindow (dt : Nat) (load : Nat) (s : State) : Host.Outcome State Fault Refusal :=
  event dt (fun s =>
    if s.boot.swap.isSome then s else
    let s := maxTo HL_LOAD_MAX load (wr HL_LOAD_LOAD load s)
    let hi := if 90 < load then s.host.hiRun + 1 else 0
    let lo := if load < 70 then s.host.loRun + 1 else 0
    let level := rd s HL_STATUS_LEVEL
    let set := fun hi lo => { s with host := { s.host with hiRun := hi, loRun := lo } }
    if hi = 3 then setLevel (min 3 (level + 1)) (set 0 lo)
    else if lo = 3 then setLevel (level - 1) (set hi 0)
    else set hi lo) s

/-- A request of class `cls` and opcode `op` is shed at `level` (R397). (log entry 17, DEDUCED) -/
def isShed (level cls op : Nat) (urgent : Bool) : Bool :=
  cls != 0 && isFirmware op &&
    ((decide (1 ≤ level) && cls == 2) || (decide (2 ≤ level) && op / 256 == 3 && !urgent) ||
      (decide (3 ≤ level) && cls == 1 && op / 256 != 3))

/-- A write of `HL_SHED_CFG`, discarded outside the ranges of Table 13-7. (log entry 123, DESIGN CHOICE) -/
def shedCfgWrite (x : Word) (s : State) : State :=
  if 1 ≤ bits x 23 16 ∧ bits x 23 16 ≤ 50 ∧ 10 ≤ bits x 15 0 ∧ bits x 15 0 ≤ 10000 then
    swWrite HL_SHED_CFG [HL_SHED_CFG_OBS_SHARE, HL_SHED_CFG_SHED_TIMEOUT] x s
  else flag HL_STATUS_CFG_REJ s

/-- `SHED_TIMEOUT`: a shed request of client `c` has waited `SHED_TIMEOUT` since dispatch; it is answered `MP_SATURATED` and
not executed (R397). (log entry 127, DEDUCED) -/
def execShedTimeout (dt : Nat) (c : Fin 256) (opcode seq : BitVec 16) (s : State) : Host.Outcome State Fault Refusal :=
  event dt (fun s =>
    match (client s c).requests.find? (fun r => r.opcode == opcode.toNat && r.msg.seq == seq.toNat && r.dispatched) with
    | none => s
    | some r =>
      if isShed (rd s HL_STATUS_LEVEL) (classOf s c) r.opcode r.msg.urgent &&
          s.boot.swap.isNone && decide (r.since + rd s HL_SHED_CFG_SHED_TIMEOUT * 400000 ≤ s.cyc) then
        refuse r.opcode r.msg 0x1B s
      else s) s

/-- `WATCHDOG_EXPIRY`: core `k` is reset alone; the firmware command it was running, if any, is interrupted (R398). -/
def execWatchdogExpiry (dt : Nat) (k : Fin 4) (running : Option (Fin 256 × BitVec 16 × BitVec 16)) (s : State) :
    Host.Outcome State Fault Refusal :=
  event dt (fun s =>
    if s.boot.swap.isSome || !isSet s GLB_BOOT_FW_READY then s
    else
      let cut : List Request := match running with
        | none => []
        | some (c, op, q) =>
          ((client s c).requests.filter (fun r => r.opcode == op.toNat && r.msg.seq == q.toNat)).take 1
      let s := cut.foldl (fun s r => cutShort r.msg s) s
      let s := { s with host := { s.host with restarting := Tbl.insert s.host.restarting k cut } }
      raise 0x0807 (0x7C + k) 0 actRestart s) s

/-- `CORE_RESTART_DONE`: core `k` is back; the interrupted command is answered `CORE_RESTART` (R398). -/
def execCoreRestartDone (dt : Nat) (k : Fin 4) (s : State) : Host.Outcome State Fault Refusal :=
  event dt (fun s =>
    match Tbl.find s.host.restarting k with
    | none => s
    | some cut =>
      let s := { s with host := { s.host with restarting := Tbl.erase s.host.restarting k } }
      cut.foldl (fun s r => refuse r.opcode r.msg 0x1C s) s) s

end Sys2Proof.Machine
end

