-- ==== Sys2Proof/Machine/Can.lean ====
section
/-! DEFINITION. CAN FD as second transport: bindings, ISO 15765-2 reception and transmission, bus-off (host link R400 to
R404). -/
namespace Sys2Proof.Machine

/-- Four bytes of a word, least significant first. -/
def wordBytes (w : Word) : List Byte :=
  [w.extractLsb' 0 8, w.extractLsb' 8 8, w.extractLsb' 16 8, w.extractLsb' 24 8]

/-- Little-endian words of a byte list; a last incomplete word is dropped. -/
def bytesWords : List Byte → List Word
  | a :: b :: c :: d :: r => (d ++ c ++ b ++ a : BitVec 32) :: bytesWords r
  | _ => []

/-- A message of the module as it travels: header and payload words (R376, R386). -/
def modWords (sat : Bool) (m : ModMsg) : List Word :=
  let w0 := BitVec.ofNat 32 (m.opcode * 65536 + 4 * m.words.length)
  let flags := (if sat then 64 else 0) + (if m.unsol then 32 else 0)
  w0 :: BitVec.ofNat 32 (m.client * 2 ^ 24 + m.seq * 256 + flags) ::
    BitVec.ofNat 32 (m.status * 65536 + m.detail * 256) :: (~~~w0) :: m.words

/-- Transport state of binding `k`. -/
def canB (s : State) (k : Nat) : CanBinding := Tbl.get {} s.can.bindings k

/-- Binding `k` changed by `f`. -/
def onCanB (k : Nat) (f : CanBinding → CanBinding) (s : State) : State :=
  { s with can := { s.can with bindings := Tbl.set {} s.can.bindings k (f (canB s k)) } }

/-- Payload sizes of a CAN FD frame from 8 bytes on. -/
def fdSize (n : Nat) : Nat :=
  if n ≤ 8 then 8 else if n ≤ 12 then 12 else if n ≤ 16 then 16 else if n ≤ 20 then 20 else if n ≤ 24 then 24
  else if n ≤ 32 then 32 else if n ≤ 48 then 48 else 64

/-- Pad with 0xCC (R402). (log entry 18, PRESUMED) -/
def pad (b : List Byte) : List Byte := b ++ List.replicate (fdSize b.length - b.length) 0xCC

/-- Binding `k` sends a frame on its response identifier. (log entry 19, DEDUCED) -/
def canSend (k : Nat) (b : List Byte) (s : State) : State :=
  let o := Out.canFrame (rd s (CAN_BIND_CTRL k)) (isSet s (CAN_BINDR_IDE k)) (rd s (CAN_BINDR_RSP_ID k))
    (isSet s (CAN_BINDR_BRS k)) (pad b)
  { s with out := o :: s.out }

/-- Take the next message of binding `k` to send: responses first, then notices, then fault records (R403). -/
def canNext (k : Nat) (s : State) : Option (ModMsg × State) :=
  let c := 240 + k
  match (canB s k).responses with
  | r :: rest => some (r, onCanB k (fun b => { b with responses := rest }) s)
  | [] =>
    match (client s c).held with
    | n :: rest => some (n, onClient c (fun x => { x with held := rest }) s)
    | [] =>
      let x := client s c
      if x.lost ≠ 0 then
        let n := if versionOf s c < 0x32 then 0 else x.lost
        let m : ModMsg :=
          { client := c, opcode := 0x0281, seq := 0, status := 0, detail := 0, unsol := true
            words := [BitVec.ofNat 32 n, BitVec.ofNat 32 x.lostFirst, BitVec.ofNat 32 x.lostLast, 0] }
        some (m, onClient c (fun x => { x with lost := 0, lostFirst := 0, lostLast := 0 }) s)
      else match x.faultsHeld with
        | f :: rest => some (f, onClient c (fun x => { x with faultsHeld := rest }) s)
        | [] => none

/-- Start a message: a single frame where it fits, otherwise a first frame of 64 bytes (ISO 15765-2, TX_DL = 64). -/
def canStart (k : Nat) (s : State) : State :=
  match canNext k s with
  | none => s
  | some (m, s) =>
    let b := (modWords (mpSat s) m).flatMap wordBytes
    let n := b.length
    if n ≤ 62 then
      onCanB k (fun x => { x with tx := some { bytes := [], next := 0, waitFc := false, left := none, since := s.cyc } })
        (canSend k (0 :: BitVec.ofNat 8 n :: b) s)
    else
      onCanB k (fun x => { x with tx := some { bytes := b.drop 62, next := 1, waitFc := true, left := none, since := s.cyc } })
        (canSend k (BitVec.ofNat 8 (16 + n / 256) :: BitVec.ofNat 8 n :: b.take 62) s)

/-- Send the next consecutive frame of binding `k`'s message. -/
def canConsecutive (k : Nat) (t : CanTx) (s : State) : State :=
  let left := t.left.map (· - 1)
  let s := canSend k (BitVec.ofNat 8 (32 + t.next) :: t.bytes.take 63) s
  let t' : CanTx :=
    { bytes := t.bytes.drop 63, next := (t.next + 1) % 16, left
      waitFc := left == some 0 && decide (63 < t.bytes.length), since := s.cyc }
  onCanB k (fun x => { x with tx := some t' }) s

/-- `CAN_FRAME_SENT`: the controller has sent a frame of binding `k` and STmin is over: the next consecutive frame goes out,
or the message is over and the next held one starts; with nothing in transit the first held message starts (R402, R403). -/
def execCanFrameSent (dt : Nat) (k : Fin 16) (s : State) : Host.Outcome State Fault Refusal :=
  event dt (fun s =>
    let c := rd s (CAN_BIND_CTRL k)
    if !isSet s (CAN_BIND_EN k) || !isSet s (CAN_CTRL_ENABLE c) || isSet s (CAN_STAT_BUS_OFF c) then s
    else match (canB s k).tx with
      | none => canStart k s
      | some t =>
        if t.bytes = [] then canStart k (onCanB k (fun x => { x with tx := none }) s)
        else if t.waitFc then s else canConsecutive k t s) s

/-- A transport error on binding `k` is counted, and `F_0806` raised at most once per second per controller (R402). -/
def tpCount (k : Nat) (s : State) : State :=
  let c := rd s (CAN_BIND_CTRL k)
  let s := count (CAN_STAT_TP_ERRORS c) 1 s
  if oncePerSecond (Tbl.get none s.can.f0806At c) s.cyc then
    raise 0x0806 (0x78 + c) (detailClient (240 + k)) 0
      { s with can := { s.can with f0806At := Tbl.set none s.can.f0806At c (some s.cyc) } }
  else s

/-- A reception error on binding `k`: the message being received is discarded (R402). -/
def tpError (k : Nat) (s : State) : State := tpCount k (onCanB k (fun x => { x with rx := none }) s)

/-- A whole message has come in on binding `k`: it passes the checks of Table 13-4 and is dispatched (R402). A message that
its header refuses is answered and nothing halts; one beyond 16 firmware requests waits undispatched (R384). Before firmware
is ready nothing reads the bindings, and the message is lost. (log entry 19, DEDUCED) -/
def canMessage (k : Nat) (b : List Byte) (s : State) : State :=
  let c := 240 + k
  let ws := bytesWords b
  let h0 := ws.getD 0 0
  let opcode := bits h0 31 16
  let len := bits h0 15 0
  let seq := bits (ws.getD 1 0) 23 8
  if !isSet s GLB_BOOT_FW_READY then s
  else if ws.getD 3 0 ≠ ~~~h0 then refuseRead c opcode seq 0x10 0 (hop1 c s)
  else if len % 8 ≠ 0 ∨ 1008 < len ∨ b.length < 16 + len ∨ (bitOf (ws.getD 1 0).toNat 0 ∧ len ≠ 48) then
    refuseRead c opcode seq 0x11 0 s
  else checkRequest c true ws id s

/-- Flow control sent by the module: continue to send, with the block size and STmin of `CAN_TP_c` (R402). (log entry 18, PRESUMED) -/
def canFlow (k : Nat) (s : State) : State :=
  let c := rd s (CAN_BIND_CTRL k)
  canSend k [0x30, BitVec.ofNat 8 (rd s (CAN_TP_BS c)), BitVec.ofNat 8 (rd s (CAN_TP_STMIN c))] s

/-- A single frame: its message is complete; lengths below 16 are not accepted (R402). (log entry 18, PRESUMED) -/
def canSingle (k : Nat) (b : List Byte) (s : State) : State :=
  let s := if (canB s k).rx.isSome then tpError k s else s
  let n0 := (b.getD 0 0).toNat % 16
  let esc := n0 == 0
  let n := if esc then (b.getD 1 0).toNat else n0
  let data := (b.drop (if esc then 2 else 1)).take n
  if n < 16 ∨ data.length < n then s else canMessage k data s

/-- A first frame: above 1,024 bytes it is answered with OVFLW; otherwise reception starts and flow control goes out. (log entry 18, PRESUMED) -/
def canFirst (k : Nat) (b : List Byte) (s : State) : State :=
  let s := if (canB s k).rx.isSome then tpError k s else s
  let n12 := (b.getD 0 0).toNat % 16 * 256 + (b.getD 1 0).toNat
  let esc := n12 == 0
  let n := if esc then
      (((b.getD 2 0).toNat * 256 + (b.getD 3 0).toNat) * 256 + (b.getD 4 0).toNat) * 256 + (b.getD 5 0).toNat
    else n12
  if 1024 < n then canSend k [0x32, 0, 0] s
  else
    let bs := rd s (CAN_TP_BS (rd s (CAN_BIND_CTRL k)))
    let rx : CanRx := { bytes := b.drop (if esc then 6 else 2), len := n, next := 1, left := bs, since := s.cyc }
    canFlow k (onCanB k (fun x => { x with rx := some rx }) s)

/-- A consecutive frame: the right sequence number extends the message, and a block's last one is answered with flow
control (R402). -/
def canConsec (k : Nat) (b : List Byte) (s : State) : State :=
  match (canB s k).rx with
  | none => tpError k s
  | some rx =>
    if (b.getD 0 0).toNat % 16 ≠ rx.next then tpError k s
    else
      let data := rx.bytes ++ b.drop 1
      if rx.len ≤ data.length then
        let s := onCanB k (fun x => { x with rx := none }) s
        if rx.len < 16 then s else canMessage k (data.take rx.len) s
      else
        let bs := rd s (CAN_TP_BS (rd s (CAN_BIND_CTRL k)))
        let ended := rx.left == 1
        let rx := { rx with bytes := data, next := (rx.next + 1) % 16, left := if ended then bs else rx.left - 1, since := s.cyc }
        let s := onCanB k (fun x => { x with rx := some rx }) s
        if ended then canFlow k s else s

/-- Flow control of the host: 0 continue, 1 wait, 2 overflow (ISO 15765-2). -/
def canFlowIn (k : Nat) (b : List Byte) (s : State) : State :=
  match (canB s k).tx with
  | none => s
  | some t =>
    if !t.waitFc then s
    else match (b.getD 0 0).toNat % 16 with
      | 0 =>
        let bs := (b.getD 1 0).toNat
        canConsecutive k { t with waitFc := false, left := if bs = 0 then none else some bs } s
      | 1 => onCanB k (fun x => { x with tx := some { t with since := s.cyc } }) s
      | _ => onCanB k (fun x => { x with tx := none }) s

/-- The enabled binding that a frame's controller and identifier name. -/
def bindingFor (s : State) (c : Nat) (ext : Bool) (ident : Nat) : Option Nat :=
  (List.range 16).find? (fun k =>
    isSet s (CAN_BIND_EN k) && rd s (CAN_BIND_CTRL k) == c && rd s (CAN_BIND_REQ_ID k) == ident &&
      isSet s (CAN_BINDR_IDE k) == ext)

/-- `CAN_FRAME_RECEIVED`: a frame on a bound identifier renews the lease and is taken into reassembly; a classical frame is
ignored and counted (R400, R402). -/
def execCanFrameReceived (dt : Nat) (c : Fin 4) (ext : Bool) (ident : BitVec 29) (fd : Bool) (b : List Byte) (s : State) :
    Host.Outcome State Fault Refusal :=
  event dt (fun s =>
    if !isSet s (CAN_CTRL_ENABLE c) || isSet s (CAN_STAT_BUS_OFF c) then s
    else match bindingFor s c ext ident.toNat with
      | none => s
      | some k =>
        if !fd then count (CAN_STAT_IGNORED c) 1 s
        else
          let s := onClient (240 + k) (fun x => { x with alive := s.cyc }) s
          match (b.getD 0 0).toNat / 16 with
          | 0 => canSingle k b s
          | 1 => canFirst k b s
          | 2 => canConsec k b s
          | 3 => canFlowIn k b s
          | _ => tpError k s) s

/-- N_Bs and N_Cr, 1,000 ms, in core cycles (R402). -/
def canTimeout : Nat := 400000000

/-- `CAN_TP_TIMEOUT`: N_Cr of the message being received on binding `k`, or N_Bs of the one being sent, has run out (R402). -/
def execCanTpTimeout (dt : Nat) (k : Fin 16) (s : State) : Host.Outcome State Fault Refusal :=
  event dt (fun s =>
    let b := canB s k
    let late := fun t => decide (t + canTimeout ≤ s.cyc)
    let s := match b.rx with
      | some rx => if late rx.since then tpError k s else s
      | none => s
    match b.tx with
    | some t => if t.waitFc && late t.since then tpCount k (onCanB k (fun x => { x with tx := none }) s) else s
    | none => s) s

/-- `CAN_BUS_OFF`: the controller leaves the bus, and every message it was sending or receiving is discarded (R404). -/
def execCanBusOff (dt : Nat) (c : Fin 4) (s : State) : Host.Outcome State Fault Refusal :=
  event dt (fun s =>
    let s := raise 0x0805 (0x78 + c) 0 actHalt (wrB (CAN_STAT_BUS_OFF c) true s)
    (List.range 16).foldl (fun s k =>
      if rd s (CAN_BIND_CTRL k) = c then onCanB k (fun x => { x with rx := none, tx := none }) s else s) s) s

/-- `CAN_REJOIN`: recovery is over; with `AUTO_REC`, or after a `RESTART`, the controller is on the bus again (R404). -/
def execCanRejoin (dt : Nat) (c : Fin 4) (s : State) : Host.Outcome State Fault Refusal :=
  event dt (fun s =>
    if isSet s (CAN_STAT_BUS_OFF c) && (isSet s (CAN_CTRL_AUTO_REC c) || isSet s (CAN_CTRL_RESTART c)) then
      wrB (CAN_STAT_BUS_OFF c) false (wrB (CAN_CTRL_RESTART c) false s)
    else s) s

/-- `RESTART` = 1 lets a bus-off controller rejoin (R404); on the bus it is ignored. -/
def canRestart (c : Nat) (s : State) : State :=
  if isSet s (CAN_STAT_BUS_OFF c) then wrB (CAN_CTRL_RESTART c) true s else s

/-- `CAN_RESTART_WRITE`: PF0 writes `RESTART` = 1 to `CAN_CTRL_c` (R404). -/
def execCanRestartWrite (dt : Nat) (c : Fin 4) (s : State) : Host.Outcome State Fault Refusal :=
  event dt (writes 0 (CAN_CTRL c) (canRestart c)) s

/-- Another enabled binding than `k` has the controller `ctrl` and the request identifier `ident`, 29 bits wide with `ide` (R401).
(log entry 122, DEDUCED) -/
def bindingDoubles (s : State) (k ctrl : Nat) (ide : Bool) (ident : Nat) : Bool :=
  (List.range 16).any (fun j =>
    j != k && isSet s (CAN_BIND_EN j) && rd s (CAN_BIND_CTRL j) == ctrl && isSet s (CAN_BINDR_IDE j) == ide &&
      rd s (CAN_BIND_REQ_ID j) == ident)

/-- A write of the first (`hi` false) or second word of binding `k`; a write that enables it is discarded while the client's VF has an
open session, and one by which two enabled bindings would share a controller and identifier always (R401). (log entries 81, DEDUCED, 122, DEDUCED) -/
def canBindWrite (k : Nat) (hi : Bool) (x : Word) (s : State) : State :=
  if hi then
    if isSet s (CAN_BIND_EN k) && bindingDoubles s k (rd s (CAN_BIND_CTRL k)) (bitOf x.toNat 31) (rd s (CAN_BIND_REQ_ID k)) then
      flag HL_STATUS_CFG_REJ s
    else swWrite (CAN_BINDR k) [CAN_BINDR_IDE k, CAN_BINDR_BRS k, CAN_BINDR_RSP_ID k] x s
  else
    let en := bitOf x.toNat 31
    if en && ((!isSet s (CAN_BIND_EN k) && sessionOpen s (240 + k)) ||
        bindingDoubles s k (bits x 30 29) (isSet s (CAN_BINDR_IDE k)) (bits x 28 0)) then
      flag HL_STATUS_CFG_REJ s
    else if !(Tbl.get Domain.on s.power.domains (74 + bits x 30 29) == .on) then s
    else powerUpdate (swWrite (CAN_BIND k) [CAN_BIND_EN k, CAN_BIND_CTRL k, CAN_BIND_REQ_ID k] x s)

/-- `CAN_BIND_WRITE`: PF0 writes `x` to `CAN_BIND_k` or, with `hi`, to its second word (R401). -/
def execCanBindWrite (dt : Nat) (k : Fin 16) (hi : Bool) (x : Word) (s : State) : Host.Outcome State Fault Refusal :=
  event dt (writes 0 (if hi then CAN_BINDR k else CAN_BIND k) (canBindWrite k hi x)) s

/-- A write of a bit-timing register of controller `c`: only while it is off the bus (Table 13-7). (log entry 123, DESIGN CHOICE) -/
def canTimingWrite (c off : Nat) (x : Word) (s : State) : State :=
  if isSet s (CAN_CTRL_ENABLE c) then flag HL_STATUS_CFG_REJ s else swWrite off (globalFields off) x s

end Sys2Proof.Machine
end

