-- ==== Sys2Proof/Machine/DriveCmd.lean ====
section
/-! DEFINITION. The drive commands and the drive registers with rules of their own (drive R188, R189, R194 to R198, R215, R221 to
R225, command reference R521). -/
namespace Sys2Proof.Machine

/-! ### `PROFILE_PUT (0x0160)` (R196 to R198) -/

/-- Slot number of a `PROFILE_PUT`, in bits [22:16] of H0. -/
def putSlot (p : List Word) : Nat := bits (profWord p 0) 22 16

/-- Word A of phase `k` carries an encoding that Table 6-4 calls invalid. -/
def phaseInvalid (p : List Word) (k : Nat) : Bool :=
  phaseSource p k == 3 || phaseExit p k == 3 || phaseRegOff p k == 0

/-- The maximum time of phase `k` is one that Table 6-5 refuses. -/
def timeInvalid (p : List Word) (k : Nat) : Bool :=
  phaseTime p k == 0 || (phaseTime p k == untilOff && (decide (k + 1 < phases p) || phaseExit p k != 0))

/-- H0 lies outside Table 6-3. -/
def headInvalid (p : List Word) : Bool :=
  decide (63 < putSlot p) || phases p == 0 || decide (12 < phases p) || finalOff p == 0 || boostPolicy p == 3 ||
    bits (profWord p 0) 11 8 != 0 || decide (phases p ≤ holdPhase p) || decide (medClamp p < 20) || decide (100 < medClamp p)

/-- Word `i` of a profile is outside its range (Table 6-5, `PROFILE_RANGE`). -/
def wordInvalid (p : List Word) (i : Nat) : Bool :=
  match i with
  | 0 => headInvalid p
  | 1 => bits (profWord p 1) 31 20 != 0 || decide (400000 < boostWait p)
  | 2 => false
  | 3 => profWord p 3 != 0
  | i =>
    let k := (i - 4) / 2
    if phases p ≤ k then profWord p i != 0 else if i % 2 = 0 then phaseInvalid p k else timeInvalid p k

/-- Phase `k` breaks the windows of Table 6-5. -/
def windowInvalid (p : List Word) (k : Nat) : Bool :=
  let hi := phaseHigh p k
  let lo := phaseLow p k
  if timeOnly p then phaseExit p k != 0 || decide (hi < 10) || decide (lo < 10) || decide (hi + lo < 100)
  else if phaseSource p k = 0 then phaseExit p k == 1 && decide (hi < lo)
  else decide (lo < 50) || decide (hi < lo + 20) || decide ((if phaseSource p k = 2 then 3200 else 2000) < hi)

/-- A descriptor, a frame, a pulse binding or a fallback names slot `n` (R197). -/
def slotInUse (s : State) (n : Nat) : Bool :=
  s.seq.descs.any (fun x => decide (x.2.output < 36) && x.2.profile == n &&
      (x.2.stage.fixed || x.2.bank == rd s (if x.2.astern then CLI_BANK_ASTERN_ACTIVE x.2.client else CLI_BANK_AHEAD_ACTIVE x.2.client)))
    || s.seq.pairs.any (fun q => q.2.link.any (fun f => decide (f.output < 36) && f.profile == n))
    || s.drive.chans.any (fun c => c.2.frames.any (fun f => f.profile == n))
    || (List.range 4).any (fun q => (plsBank s q).binds.any (fun b => b.slots.any (fun x => decide (x.target < 36) && x.profile == n)))
    || (List.range 36).any (fun c => isSet s (DRV_CH_CFG_FALLBACK_EN c) && rd s (DRV_CH_CFG_FALLBACK_PROF c) == n)

/-- The refusal of a profile: code and detail, the first of Table 6-5. (log entry 60, DEDUCED) -/
def profileCheck (s : State) (p : List Word) : Option (Nat × Nat) :=
  match (List.range 28).find? (wordInvalid p) with
  | some i => some (0x0160, i)
  | none =>
    if (List.range (phases p)).any (windowInvalid p) then some (0x0161, 0)
    else if phaseSource p (holdPhase p) ≠ 1 then some (0x0162, 0)
    else if slotInUse s (putSlot p) then some (0x0163, 0)
    else none

/-- `PROFILE_PUT (0x0160)`: the slot is claimed, and the command is answered when the drive die has stored it. -/
def profilePut (m : Msg) (s : State) : State :=
  match profileCheck s m.words with
  | some (st, d) => respond 0x0160 m st d [] s
  | none =>
    let n := putSlot m.words
    let ws := (profWord m.words 0 &&& 0xFF80FFFF) :: m.words.drop 1
    setValid n false { s with drive := { s.drive with storing := s.drive.storing ++ [(n, m, ws)] } }

/-- `PROFILE_PUT`: loads a profile slot. -/
def execProfilePut (m : Msg) (s : State) : Host.Outcome State Fault Refusal := command 0x0160 m (profilePut m) s

/-- `PROFILE_GET (0x0161)`: value half, complement half and generation count; zeros for a slot never stored. -/
def profileGet (m : Msg) (s : State) : State :=
  let n := (word m 0).toNat
  if 64 ≤ n then refuse 0x0161 m 0x0160 s
  else
    let (ws, compl, gen) := match profileOf s n with
      | some p => (p.words, p.compl, p.gen)
      | none => (List.replicate 28 0, List.replicate 28 0xFFFFFFFF, 0)
    respond 0x0161 m 0 0 (ws ++ compl ++ [wd gen]) s

/-- `PROFILE_GET`: reads a profile slot. (log entry 60, DEDUCED) -/
def execProfileGet (m : Msg) (s : State) : Host.Outcome State Fault Refusal := command 0x0161 m (profileGet m) s

/-! ### `CHANNEL_CONFIG (0x0162)` (R215, R221, R225) -/

/-- A configuration word names a fallback that R221 does not accept. -/
def fallbackInvalid (s : State) (x : Word) : Bool :=
  let n := bits x 31 26
  bits x 25 25 == 1 && !(slotValid s n && timeOnly (profileWords s n))

/-- `CHANNEL_CONFIG (0x0162)`. -/
def channelConfig (m : Msg) (s : State) : State :=
  let c := (word m 0).toNat
  if 36 ≤ c then refuse 0x0162 m 7 s
  else if oddMember s c then refuse 0x0162 m 8 s
  else if !owns s m.client c then refuse 0x0162 m 3 s
  else match badWord (m.words.drop 1) [0xFEFFFC00, 0xFFFF0000] 1 with
    | some i => respond 0x0162 m 0x0B i [] s
    | none =>
      if fallbackInvalid s (word m 1) then refuse 0x0162 m 0x0164 s
      else
        let s := swWrite (DRV_CH_CFG c) (globalFields (DRV_CH_CFG c)) (word m 1) s
        ok 0x0162 m (commits [DRV_CH_CFG c, DRV_CH_SENSE c] (swWrite (DRV_CH_SENSE c) (globalFields (DRV_CH_SENSE c)) (word m 2) s))

/-- `CHANNEL_CONFIG`: writes a channel's configuration and nominal inductance. -/
def execChannelConfig (m : Msg) (s : State) : Host.Outcome State Fault Refusal := command 0x0162 m (channelConfig m) s

/-- A PF0 write of `DRV_CH_CFG_c` that `CHANNEL_CONFIG` would refuse is discarded. (log entry 60, DEDUCED) -/
def drvChCfgWrite (c : Nat) (x : Word) (s : State) : State :=
  if oddMember s c || fallbackInvalid s x then flag DRV_STATUS_CFG_REJ { s with sw := DRV_CH_CFG c :: s.sw }
  else swWrite (DRV_CH_CFG c) (globalFields (DRV_CH_CFG c)) x s

/-- `DRV_CH_CFG_WRITE`: PF0 writes the configuration of channel `c`. -/
def execDrvChCfgWrite (dt : Nat) (c : Fin 36) (x : Word) (s : State) : Host.Outcome State Fault Refusal :=
  event dt (writes 0 (DRV_CH_CFG c) (drvChCfgWrite c.val x)) s

/-! ### `SENSE_CAL (0x0163)` (R222 to R224) -/

/-- The statuses that `SENSE_CAL` decides at once: of channels not owned, and of odd members. -/
def calRefusals (s : State) (m : Msg) (l : List Nat) : Tbl Nat :=
  l.foldl (fun t c =>
    if oddMember s c then Tbl.insert t c 8 else if !owns s m.client c then Tbl.insert t c 3 else Tbl.insert t c 0) []

/-- `SENSE_CAL (0x0163)`: answered when every named channel is decided. -/
def senseCal (m : Msg) (s : State) : State :=
  match reservedBad m [0xFFFFFFFF, 0x0000000F] with
  | some i => respond 0x0163 m 7 i [] s
  | none =>
    let l := (List.range 36).filter (bitOf (chanMask (word m 0) (word m 1)))
    let t := calRefusals s m l
    let open_ := l.filter (fun c => Tbl.get 0 t c = 0)
    if open_ = [] then respond 0x0163 m 0 0 (itemsOf 36 t) s
    else
      let s := { s with drive := { s.drive with cals := s.drive.cals ++ [(m, open_, t)] } }
      open_.foldl (fun s c => (members s c).foldl (fun s d => calAsk d s) s) s

/-- `SENSE_CAL`: asks for offset calibration of the named channels. -/
def execSenseCal (m : Msg) (s : State) : Host.Outcome State Fault Refusal := command 0x0163 m (senseCal m) s

/-! ### `DRV_PAIR` (R187, R188) -/

/-- The odd members that a `DRV_PAIR` of `x` would join anew. -/
def joins (s : State) (x : Nat) : List Nat :=
  ((List.range 14).filter (fun k => bitOf x k && !bitOf (rd s DRV_PAIR_PAIR) k)).map (fun k => 2 * k + 1)

/-- A descriptor, or a pulse binding of either bank, names output `o` (R188). -/
def outputNamed (s : State) (o : Nat) : Bool :=
  s.seq.descs.any (fun x => x.2.output == o) ||
    (List.range 4).any (fun p => [(plsAt s p).bank0, (plsAt s p).bank1].any (fun b =>
      b.binds.any (fun y => y.slots.any (fun z => z.target == o))))

/-- A write of `DRV_PAIR`. -/
def drvPairWrite (x : Word) (s : State) : State :=
  if rotating s || (joins s x.toNat).any (outputNamed s) then flag DRV_STATUS_CFG_REJ { s with sw := DRV_PAIR :: s.sw }
  else
    let s := swWrite DRV_PAIR (globalFields DRV_PAIR) x s
    (List.range 28).foldl (fun s c => wrB (DRV_CH_STAT_PAIRED c) (bitOf (rd s DRV_PAIR_PAIR) (c / 2)) s) s

/-- `DRV_PAIR_WRITE`: PF0 writes `DRV_PAIR`. -/
def execDrvPairWrite (dt : Nat) (x : Word) (s : State) : Host.Outcome State Fault Refusal := event dt (writes 0 DRV_PAIR (drvPairWrite x)) s

/-! ### Channel enables (R189) -/

/-- Channels whose enable bit has fallen while energised go off at once, TRIPPED with `DISABLED`. -/
def cutDisabled (s : State) : State :=
  (List.range 36).foldl (fun s c =>
    if c = evenMember s c && energised s c && !channelEnabled s c then tripUnlatched (members s c) 0x22 s else s) s

/-- A completed paired write of `DRV_CH_EN0` (`hi` false) or `DRV_CH_EN1`. -/
def enableWrite (hi : Bool) (x : Nat) (s : State) : State :=
  cutDisabled (wr (if hi then DRV_CH_EN1_EN else DRV_CH_EN0_EN) x s)

end Sys2Proof.Machine
end

