-- ==== Sys2Proof/Machine/FaultBook.lean ====
section
/-! DEFINITION. Fault records, their classes and reach (faults R475 to R482), and the Field Book (power R467 to R471). -/
namespace Sys2Proof.Machine

/-- The class of a fault code, 1 INTEGRITY to 5 SYSTEM (Table 17-6). -/
def faultClass (code : Nat) : Nat :=
  if code / 256 = 8 then 5
  else if (0x0201 ≤ code ∧ code ≤ 0x0207) ∨ code = 0x0301 ∨ (0x0310 ≤ code ∧ code ≤ 0x0313) ∨ code = 0x0320 then 1
  else if code ∈ [0x0114, 0x0130, 0x0131, 0x0132, 0x0133, 0x0409, 0x0513, 0x0524, 0x0525, 0x0526, 0x0527, 0x0528,
      0x0529, 0x052B, 0x0540, 0x0541, 0x0542, 0x0543, 0x0712] then 2
  else if code ∈ [0x0112, 0x0113, 0x0407, 0x040B, 0x0423, 0x0523, 0x052A, 0x052C, 0x0531, 0x0544, 0x0545, 0x0604,
      0x0605, 0x0606, 0x0609, 0x060A, 0x0701, 0x0702, 0x0710] then 4
  else 3

/-- Whom a fault reaches beyond client 0 and the SAFETY client (R480). -/
inductive Reach where
  | all | owner | client | nobody
  deriving DecidableEq, Repr

/-- The reach of a fault code (Table 17-6). -/
def faultReach (code : Nat) : Reach :=
  if code ∈ [0x0201, 0x0202, 0x0320, 0x0800, 0x0801, 0x0804, 0x0806] then .client
  else if code ∈ [0x0720, 0x0721, 0x0722] then .nobody
  else if code ∈ [0x0111, 0x0112, 0x0130, 0x0131, 0x0132, 0x0133, 0x0203, 0x0204, 0x0205, 0x0206, 0x0207, 0x0701, 0x0702,
      0x0703, 0x0712, 0x0820] then .owner
  else if code / 256 = 5 then .owner
  else .all

/-- Boost controller `b` serves channel `c` (boost, opening text): A channels 0 to 13 and bank 0, B 14 to 27 and bank 1. -/
def boostServes (b c : Nat) : Bool :=
  let a := decide (c < 14) || (decide (28 ≤ c) && decide (c < 32))
  if b = 0 then a else decide (c < 36) && !a

/-- The clients that own what a fault's source names (R480, Table 17-3). -/
def sourceOwners (src : Nat) (s : State) : List Nat :=
  if src < 0x24 then (ownerOf s src).toList
  else if 0x40 ≤ src ∧ src < 0x50 then (ownerOf s (src - 0x40 + 36)).toList
  else if 0x50 ≤ src ∧ src < 0x54 then [rd s (PLS_CTRL_OWNER (src - 0x50))]
  else if 0x58 ≤ src ∧ src < 0x5C then
    (List.range 36).filterMap (fun c => if boostServes (src % 2) c then ownerOf s c else none)
  else if 0x90 ≤ src ∧ src < 0x9C then
    if isSet s (DMA_GRANT_VALID (src - 0x90)) then [rd s (DMA_GRANT_OWNER (src - 0x90))] else []
  else if 0xA0 ≤ src ∧ src < 0xC0 then (Tbl.get ({} : AcqList) s.acq.lists (src - 0xA0)).owner.toList
  else []

/-- The client a fault's `DETAIL` names (Table 17-5). -/
def detailOf (e : FaultEv) : Nat :=
  if e.code / 256 = 8 then bits e.detail 31 24 else bits e.detail 15 8

/-- Every client a fault reaches, each once (R480). -/
def faultClients (e : FaultEv) (s : State) : List Nat :=
  if e.code = 0x0831 then []
  else
    ([0] ++ (safetyClient s).toList ++
      match faultReach e.code with
      | .all => (List.range 256).filter (fun c => sessionOpen s c)
      | .owner => sourceOwners e.source s
      | .client => [detailOf e]
      | .nobody => []).eraseDups

/-! ### Records -/

/-- B5 of Table 16-6: the calendar to the minute. -/
def calWord (c : Cal) : Word :=
  BitVec.ofNat 32 (c.year * 2 ^ 20 + c.month * 2 ^ 16 + c.day * 2 ^ 11 + c.hour * 2 ^ 6 + c.minute)

/-- B6 of Table 16-6: seconds and the prescaler. (log entry 85, DESIGN CHOICE) -/
def secWord (c : Cal) (sub : Nat) : Word := BitVec.ofNat 32 (c.second * 2 ^ 26 + sub % 2 ^ 15 * 2 ^ 11)

/-- The eight words of a record's value half (Table 16-6). -/
def FbRec.words (r : FbRec) : List Word :=
  [ BitVec.ofNat 32 r.seq,
    BitVec.ofNat 32 (r.seq / 2 ^ 32 % 2 ^ 16 * 2 ^ 16 + r.code),
    BitVec.ofNat 32 (r.kind * 2 ^ 28 + r.cls * 2 ^ 24 + r.source * 2 ^ 16 + r.action * 2 ^ 8 +
      (if r.timeLost then 128 else 0)),
    BitVec.ofNat 32 r.cyc,
    BitVec.ofNat 32 (r.cyc / 2 ^ 32),
    calWord r.cal,
    secWord r.cal r.subsec,
    r.detail ]

/-- The slot that holds a record: value half and complement half (R467). -/
def FbRec.slot (r : FbRec) : FbSlot := { value := r.words, compl := r.words.map (fun w => ~~~w) }

/-- A slot is valid when its halves are complements and its `KIND` is defined (R467). -/
def FbSlot.valid (x : FbSlot) : Bool :=
  x.value.length == 8 && x.compl == x.value.map (fun w => ~~~w) &&
    (let k := bits (x.value.getD 2 0) 31 28; decide (1 ≤ k) && decide (k ≤ 7))

/-- The sequence number that a slot holds. -/
def FbSlot.seq (x : FbSlot) : Nat := (x.value.getD 0 0).toNat + bits (x.value.getD 1 0) 31 16 * 2 ^ 32

/-- The record of the given kind, in the present state of the clock; `sub` is the prescaler's value. -/
def recordOf (kind code cls source action cyc : Nat) (detail : Word) (sub : Nat) (s : State) : FbRec :=
  { seq := s.book.nextSeq % 2 ^ 48, code, kind, cls, source, action
    timeLost := isSet s RTC_STATUS_TIME_LOST, cyc, cal := s.rtc.cal, subsec := sub, detail }

/-- Queue a record for the Field Book; a full queue discards it, counts it and raises `F_0843` at most once per second (R469). -/
def bookPush (r : FbRec) (s : State) : State :=
  if 256 ≤ s.book.queue.length then
    let s := count FB_LOST_LOST 1 s
    let s := { s with book := { s.book with lostPend := s.book.lostPend + 1 } }
    if oncePerSecond s.book.f0843At s.cyc then
      raise 0x0843 0xD1 0 0 { s with book := { s.book with f0843At := some s.cyc } }
    else s
  else
    let s := { s with book := { s.book with queue := s.book.queue ++ [r], nextSeq := s.book.nextSeq + 1 } }
    wr FB_STATUS_QUEUED s.book.queue.length s

/-- A record of the given kind is formed and queued (R467, R469). (log entry 86, DEDUCED) -/
def bookRecord (kind code cls source action : Nat) (cyc : Nat) (detail : Word) (s : State) : State :=
  let (sub, s) := draw s
  bookPush (recordOf kind code cls source action cyc detail sub s) s

/-- Send a fault record to client `c`: into its fault ring with `FLT_EN`, or held 16 deep on CAN FD; a full ring loses
it (R394, R403, R479). Fault notices come with version 2.3 (R389, command reference Table 19-2). (log entries 86, DEDUCED, 125, DEDUCED) -/
def faultNotice (ws : List Word) (excess : Bool) (c : Nat) (s : State) : State :=
  let m : ModMsg := { client := c, opcode := 0x0380, seq := 0, status := 0, detail := 0, unsol := true, words := ws }
  if !sessionOpen s c || decide (versionOf s c < 0x23) then s
  else match canBindingOf s c with
    | some _ =>
      if (client s c).faultsHeld.length < 16 then onClient c (fun x => { x with faultsHeld := x.faultsHeld ++ [m] }) s
      else loseNotice c s
    | none =>
      if !isSet s (CLI_RING_CFG_FLT_EN c) || !isSet s (CLI_RING_CFG_ENABLE c) then s
      else if excess || ringFree (fltSize s c) (rd s (CLI_FLT_TAIL_TAIL c)) (rd s (CLI_FLT_HEAD_HEAD c)) == 0 then
        loseNotice c s
      else fltWrite c m s

/-- Firmware forms the record of fault `e`: Field Book, `FLT_*` registers, fault rings (R479 to R481, R487). (log entry 86, DEDUCED) -/
def formRecord (e : FaultEv) (s : State) : State :=
  let cls := faultClass e.code
  let (sub, s) := draw s
  let r := recordOf 1 e.code cls e.source e.action e.cyc e.detail sub s
  let dest := faultClients e s
  if e.code = 0x0843 then dest.foldl (fun s c => faultNotice { r with seq := 0 }.words e.excess c s) s
  else
    let r := if 256 ≤ s.book.queue.length then { r with seq := 0 } else r
    let s := bookPush r s
    let s := wr FLT_LAST_CODE e.code (wr FLT_LAST_CLASS cls (wr FLT_LAST_SOURCE e.source (wr FLT_LAST_SEQ_SEQ_LO r.seq s)))
    let s := count FLT_COUNT_TOTAL 1 s
    let s := if cls = 1 then flag FLT_STATUS_INTEGRITY_SEEN (count FLT_COUNT_INTEGRITY 1 s) else s
    let s := if cls = 2 then flag FLT_STATUS_TRIP_SEEN s else s
    dest.foldl (fun s c => faultNotice r.words e.excess c s) s

/-- `FAULT_RECORD`: firmware forms the record of the oldest fault detected and not yet recorded (R479). -/
def execFaultRecord (dt : Nat) (s : State) : Host.Outcome State Fault Refusal :=
  event dt (fun s =>
    if firmwareRuns s then
      match s.faults with
      | [] => s
      | e :: rest => formRecord e { s with faults := rest }
    else s) s

/-! ### Flash copies -/

/-- Slots in one copy, and slots in one 4 KiB sector (R468). -/
def bookSlots : Nat := 8320
def sectorSlots : Nat := 64

/-- Erase sector `k` of a copy. -/
def FbCopy.eraseSector (x : FbCopy) (k : Nat) : FbCopy :=
  { x with slots := x.slots.filter (fun p => p.1 / sectorSlots != k) }

/-- The slot `v` is programmed at the copy's next place; as the write enters a sector, the sector after it is erased (R468). -/
def FbCopy.put (x : FbCopy) (v : FbSlot) : FbCopy :=
  let x := if x.pos % sectorSlots = 0 then x.eraseSector ((x.pos / sectorSlots + 1) % (bookSlots / sectorSlots)) else x
  { x with pos := (x.pos + 1) % bookSlots, slots := Tbl.insert x.slots x.pos v }

/-- Program one slot of a copy; `ok` says that its verification passed. A failed slot is programmed to zero and the next
slot comes into use (R468, R469). -/
def FbCopy.program (x : FbCopy) (r : FbRec) (ok : Bool) : FbCopy :=
  let zero : FbSlot := { value := List.replicate 8 0, compl := List.replicate 8 0 }
  { x.put (if ok then r.slot else zero) with fails := if ok then 0 else x.fails + 1 }

/-- After three failures in a row firmware stops using the copy (R469). -/
def bookCopyBad (b : Bool) (s : State) : State :=
  raise 0x0844 0xD1 0 actReduced (wrB (if b then FB_STATUS_COPY_B_BAD else FB_STATUS_COPY_A_BAD) true s)

/-- The queue's head is written in both copies, or in the one still in use: it leaves the queue, and a LOST record follows
when records were lost (R469). -/
def bookDone (s : State) : State :=
  let s := { s with book := { s.book with queue := s.book.queue.drop 1, half := none } }
  let s := wr FB_STATUS_QUEUED s.book.queue.length s
  if s.book.lostPend = 0 then s
  else bookRecord 6 0 0 0 0 s.cyc (BitVec.ofNat 32 s.book.lostPend) { s with book := { s.book with lostPend := 0 } }

/-- One flash program of copy B for record `r`. -/
def bookWriteB (r : FbRec) (ok : Bool) (s : State) : State :=
  if isSet s FB_STATUS_COPY_B_BAD then bookDone s
  else
    let x := s.book.copyB.program r ok
    let s := { s with book := { s.book with copyB := x } }
    if ok then bookDone (wr FB_NEWEST_SEQ_LO r.seq s)
    else if 3 ≤ x.fails then bookDone (bookCopyBad true s) else s

/-- One flash program of copy A for record `r`; then copy B's turn comes. -/
def bookWriteA (r : FbRec) (ok : Bool) (s : State) : State :=
  if isSet s FB_STATUS_COPY_A_BAD then { s with book := { s.book with half := some r } }
  else
    let x := s.book.copyA.program r ok
    let s := { s with book := { s.book with copyA := x } }
    if ok then wr FB_NEWEST_SEQ_LO r.seq { s with book := { s.book with half := some r } }
    else if 3 ≤ x.fails then bookCopyBad false { s with book := { s.book with half := some r } } else s

/-- `FIELD_BOOK_WRITE`: one slot of the queue's oldest record is programmed, in copy A and then in copy B; `ok` is the
outcome of its verification (R469). -/
def execFieldBookWrite (dt : Nat) (ok : Bool) (s : State) : Host.Outcome State Fault Refusal :=
  event dt (fun s =>
    if isSet s FB_STATUS_READY && firmwareRuns s then
      match s.book.half, s.book.queue with
      | some r, _ => bookWriteB r ok s
      | none, r :: _ => bookWriteA r ok s
      | none, [] => s
    else s) s

/-- The newest valid slot of a copy, if it holds one. -/
def FbCopy.newest (x : FbCopy) : Option FbSlot :=
  x.slots.foldl (fun a p => if p.2.valid then
      match a with
      | some b => if b.seq < p.2.seq then some p.2 else a
      | none => some p.2
    else a) none

/-- `FIELD_BOOK_SCAN_DONE`: the newest record of either copy is taken as newest and repaired in the copy that lacks it, and
`READY` is set (R470). -/
def execFieldBookScanDone (dt : Nat) (s : State) : Host.Outcome State Fault Refusal :=
  event dt (fun s =>
    if firmwareRuns s && !isSet s FB_STATUS_READY then
      let a := s.book.copyA.newest
      let b := s.book.copyB.newest
      let s := match a, b with
        | some x, some y =>
          if x.seq < y.seq then { s with book := { s.book with copyA := s.book.copyA.put y } }
          else if y.seq < x.seq then { s with book := { s.book with copyB := s.book.copyB.put x } } else s
        | some x, none => { s with book := { s.book with copyB := s.book.copyB.put x } }
        | none, some y => { s with book := { s.book with copyA := s.book.copyA.put y } }
        | none, none => s
      let n := max ((a.map FbSlot.seq).getD 0) ((b.map FbSlot.seq).getD 0)
      wrB FB_STATUS_READY true (wr FB_NEWEST_SEQ_LO n s)
    else s) s

/-! ### FIELD_BOOK_READ (R471) -/

/-- The valid records of a copy, by sequence number, added to a table. -/
def FbCopy.collect (x : FbCopy) (t : Tbl (List Word)) : Tbl (List Word) :=
  x.slots.foldl (fun t p => if p.2.valid then Tbl.insert t p.2.seq p.2.value else t) t

/-- The records from sequence `start` on, `n` at most, newer or older (R471). -/
def bookFrom (s : State) (start : Nat) (newer : Bool) (n : Nat) : List (List Word) :=
  let t := s.book.copyB.collect (s.book.copyA.collect [])
  let l := if newer then t.filter (fun p => decide (start ≤ p.1)) else (t.filter (fun p => decide (p.1 ≤ start))).reverse
  (l.take n).map Prod.snd

/-- `FIELD_BOOK_READ (0x0310)` (R471). -/
def execFieldBookRead (m : Msg) (s : State) : Host.Outcome State Fault Refusal :=
  command 0x0310 m (fun s =>
    let n := (word m 2).toNat
    match reservedBad m [0xFFFFFFFF, 0x1FFFF, 0xFFF] with
    | some i => respond 0x0310 m 0x0310 i [] s
    | none =>
      if n = 0 ∨ 2000 < n then respond 0x0310 m 0x0310 2 [] s
      else if !isSet s FB_STATUS_READY then refuse 0x0310 m 0x0311 s
      else
        let l := bookFrom s ((word m 0).toNat + bits (word m 1) 15 0 * 2 ^ 32) (bitOf (word m 1).toNat 16) n
        respond 0x0310 m 0 0
          (BitVec.ofNat 32 l.length :: BitVec.ofNat 32 (rd s FB_NEWEST_SEQ_LO) :: l.flatten) s) s

end Sys2Proof.Machine
end

