-- ==== Sys2Proof/Machine/Track.lean ====
section
/-! DEFINITION. The angle clock and what every tooth position does to it: the rate, the mean period, speed bands, firing pattern
learning, closure learning, closure maps put into use, and changes of sync state (wheel R48, R67, angle R83 to R110). -/
namespace Sys2Proof.Machine

/-! ### Parts of the trackers -/

/-- The trackers changed by `f`. -/
def onAngle (f : Angle → Angle) (s : State) : State := { s with angle := f s.angle }

/-- Sensor input `i`: 0 crank A, 1 crank B, 2 cam A, 3 cam B. -/
def sensorAt (s : State) (i : Nat) : Sensor := Tbl.get {} s.angle.sensors i

/-- Sensor input `i` changed by `f`. -/
def onSensor (i : Nat) (f : Sensor → Sensor) (s : State) : State :=
  onAngle (fun a => { a with sensors := Tbl.set {} a.sensors i (f (Tbl.get {} a.sensors i)) }) s

/-- Tooth counting on crank input `i`. -/
def crankAt (s : State) (i : Nat) : Crank := Tbl.get {} s.angle.cranks i

/-- Tooth counting on crank input `i` changed by `f`. -/
def onCrank (i : Nat) (f : Crank → Crank) (s : State) : State :=
  onAngle (fun a => { a with cranks := Tbl.set {} a.cranks i (f (Tbl.get {} a.cranks i)) }) s

/-- Cam input `k`, 0 A, 1 B. -/
def camAt (s : State) (k : Nat) : Cam := Tbl.get {} s.angle.cams k

/-- Cam input `k` changed by `f`. -/
def onCam (k : Nat) (f : Cam → Cam) (s : State) : State :=
  onAngle (fun a => { a with cams := Tbl.set {} a.cams k (f (Tbl.get {} a.cams k)) }) s

/-- Input `i` is enabled. -/
def inputOn (s : State) (i : Nat) : Bool := isSet s (WHL_IN_CFG_ENABLE i)

/-- The lost bit of crank input `i`. -/
def lostFld (i : Nat) : Fld := if i = 1 then WHL_STATUS_B_LOST else WHL_STATUS_A_LOST

/-- Crank input `i` is in service: enabled and not lost (wheel R64). -/
def crankServes (s : State) (i : Nat) : Bool := inputOn s i && !isSet s (lostFld i)

/-- `CRANK_SRC`: 0 crank A, 1 crank B, 2 none. -/
def srcOf (s : State) : Nat := rd s WHL_STATUS_CRANK_SRC

/-- Teeth of one revolution, P − m. -/
def Wheel.teeth (w : Wheel) : Nat := w.positions - w.missing

/-- The quadrature direction is held on one crank input (wheel R65, R67). -/
def quadHeld (s : State) (w : Wheel) : Bool :=
  w.dirSrc == 1 && (isSet s WHL_STATUS_A_LOST || isSet s WHL_STATUS_B_LOST)

/-- The direction is held (wheel R65, R70). -/
def dirHeld (s : State) (w : Wheel) : Bool := limping s || quadHeld s w

/-! ### Sync state (wheel R48, R67) -/

/-- The sync state becomes `n`: a change sets `CHG` and raises the wheel interrupt and vector 3. -/
def setSync (n : Nat) (s : State) : State :=
  if syncState s = n then s
  else acqConditions (vectorAll 3 (intPulse 374 (flag WHL_STATUS_CHG (wr WHL_STATUS_STATE n (wrB SEQ_STATUS_ACTIVE (n == 3) s)))))

/-- Whole links of the accumulator along the rotation: rising in either direction. -/
def alongLinks (back : Bool) (l : Int) : Int := if back then -l else l

/-- The cam windows are watched from this point of the chain on, and the runs of matches begin anew (wheel R52, R55). -/
def watchFrom (s : State) : State :=
  let p := alongLinks (reversed s) (chainNow s / unit)
  onAngle (fun a =>
    { a with testFrom := p, checked := p, hits := [], cams := a.cams.map (fun x => (x.1, { x.2 with matched := 0, runFrom := p })) }) s

/-- The chain, its course and the shadow move on by `d` units at once (wheel R52). -/
def shiftChain (d : Int) (s : State) : State :=
  let move (c : Course) : Course :=
    { c with start := c.start + d, hold := c.hold.map (fun x => x + d), stake := c.stake.map (fun x => x + d) }
  onAngle (fun a => { a with courses := a.courses.map move, shadow := move a.shadow }) s

/-- The direction of a reversing engine cannot be known: a crank input was lost with a held quadrature direction, and not both are in
service again (wheel R67). -/
def dirWithheld (w : Wheel) (s : State) : Bool :=
  (s.angle.dirUnknown || (w.reversible && quadHeld s w)) && !(crankServes s 0 && crankServes s 1)

/-- The slots that the phase correction of R52 carries the chain over are dequeued, from the slot `k` that held it on, in order
(scheduling R123). -/
def passSlots (k : Nat) (s : State) : State :=
  let back := reversed s
  let first := if back then (k + 1) % 16384 else (k + 16383) % 16384
  let last := (first + 8192) % 16384
  dequeue back (some first) last { s with seq := { s.seq with slot := some last } }

/-- LOCKED becomes PHASED, under H1 half a four-stroke cycle further on; withheld while the direction cannot be known (R52, R67). (log entry 36, DEDUCED) -/
def enterPhased (w : Wheel) (h1 : Bool) (s : State) : State :=
  if dirWithheld w s then wr WHL_LOSS_CAUSE 0x0A s
  else
    let k := chain s / 1024
    let s := if h1 then
        wr WHL_STATUS_TOOTH_POS ((rd s WHL_STATUS_TOOTH_POS + w.positions) % w.cycle) (shiftChain (8388608 * unit) s)
      else s
    let s := onAngle (fun a => { a with wraps := chainNow s / (turn * unit), dirUnknown := false, cycleGood := false }) s
    let s := watchFrom (setSync 3 s)
    if h1 then passSlots k s else s

/-- The phase test decides (R52, R54): two-stroke engines need no test. (log entry 36, DEDUCED) -/
def decidePhase (w : Wheel) (s : State) : State :=
  if syncState s ≠ 2 then s
  else if w.stroke = 2 then enterPhased w false s
  else
    let a := s.angle
    if a.retest then s
    else if !a.hyp0.alive && !a.hyp1.alive then onAngle (fun a => { a with retest := true }) s
    else if a.hyp0.alive && !a.hyp1.alive && decide (w.phaseConfirm ≤ a.hyp0.hits) then enterPhased w false s
    else if a.hyp1.alive && !a.hyp0.alive && decide (w.phaseConfirm ≤ a.hyp1.hits) then enterPhased w true s
    else s

/-- A fresh test of both hypotheses begins here (R52, R54). -/
def freshTest (s : State) : State :=
  watchFrom (onAngle (fun a => { a with hyp0 := ⟨true, 0⟩, hyp1 := ⟨true, 0⟩, retest := false }) s)

/-! ### The rate (R83, R84, R90 to R93) -/

/-- The accumulator value of angle `a` that lies nearest to `v`. -/
def nearest (v : Int) (a : Nat) : Int :=
  let l := v / unit
  (l + signed 24 (ofSigned 24 ((a : Int) - l))) * unit

/-- S for a speed of `q` links per cycle: the smallest from 0 to 11 with at least 4 links per step, or 11. -/
def stepExp (q : Frac) : Nat := ((List.range 11).find? (fun k => (Frac.int 4).le (q.mul (Frac.int (2 ^ k : Nat))))).getD 11

/-- RATE for a speed of `q` links per cycle and step exponent `k`, rounded down. (log entry 20, DESIGN CHOICE) -/
def rateOf (q : Frac) (k : Nat) : Nat := (q.mul (Frac.int (2 ^ (8 + k) : Nat))).floor.toNat

/-- RATE and S from `c0` to `tgt` in `delta` cycles; a free value where the spec gives none, with no time or distance left.
(log entries 20, DESIGN CHOICE, 22, DEDUCED) -/
def chooseRate (back : Bool) (c0 tgt : Int) (delta : Frac) (s : State) : (Nat × Nat) × State :=
  let dist := if back then c0 - tgt else tgt - c0
  if dist ≤ 0 ∨ delta.num ≤ 0 then
    let (x, s) := draw s
    ((x % 2 ^ 32, 11), s)
  else
    let q := Frac.div (Frac.make dist unit) delta
    let k := stepExp q
    ((rateOf q k % 2 ^ 32, k), s)

/-- From cycle `at_` on the chain runs from `c0` towards `tgt`, which it should reach in `delta` cycles; it stands at `hold` until
that course reaches it, and waits one link short of `tgt`. The shadow takes the same rate. (log entry 22, DEDUCED) -/
def setCourse (at_ : Nat) (c0 : Int) (hold : Option Int) (tgt : Int) (delta : Frac) (s : State) : State :=
  let back := reversed s
  let ((rate, k), s) := chooseRate back c0 tgt delta s
  let step := rate * 2 ^ (11 - k)
  let stake := if back then tgt + unit else tgt - unit
  let s := onAngle (fun a =>
    { a with
      courses := ⟨at_, c0, step, back, hold, some stake⟩ :: a.courses.take 3
      shadow := { at_ := at_, start := shadowAt s at_, step, back }
      waited := false }) s
  wr ANG_RATE_RATE rate (wr ANG_STATUS_STEP_EXP k s)

/-- The chain stands at `v` from now on, the shadow with it. (log entry 21, DESIGN CHOICE) -/
def standAt (v : Int) (s : State) : State :=
  let back := reversed s
  onAngle (fun a =>
    { a with
      courses := { at_ := s.cyc, start := v, back } :: a.courses.take 3
      shadow := { at_ := s.cyc, start := v, back } }) s

/-- The chain holds at its value from now on, as the shadow does at its own (wheel R61). -/
def holdChain (s : State) : State :=
  let v := shadowAt s s.cyc
  let s := standAt (chainNow s) s
  onAngle (fun a => { a with shadow := { a.shadow with start := v } }) s

/-- One wait of the chain is counted. (log entry 39, DEDUCED) -/
def countWait (s : State) : State := count ANG_WAITS_WAITS 1 s

/-! ### The mean period and the speed (R88, R106, wheel R72, R73, R551) -/

/-- A tooth position is recorded at time `t`; `early` is a period that counts before `LOCKED` has lasted one revolution. -/
def recordTime (w : Wheel) (t : Frac) (early : Option Frac) (s : State) : State :=
  let a := s.angle
  let times := (t :: a.times).take (w.teeth + 1)
  let sum := match early with
    | some x => a.sum.add x
    | none => a.sum
  let n := if early.isSome then a.sumN + 1 else a.sumN
  let mean := match times[w.teeth]? with
    | some t0 => Frac.div (t.sub t0) (Frac.int w.positions)
    | none => if n = 0 then a.mean else Frac.div sum (Frac.int n)
  wr ANG_MEAN_MEAN (min mean.floor.toNat 0xFFFFFFFF) (onAngle (fun a => { a with times, sum, sumN := n, mean }) s)

/-- The seven band limits in rpm. -/
def bandLimits (s : State) : List Nat :=
  [rd s ANG_BAND0_LIMIT0, rd s ANG_BAND0_LIMIT1, rd s ANG_BAND1_LIMIT2, rd s ANG_BAND1_LIMIT3,
   rd s ANG_BAND2_LIMIT4, rd s ANG_BAND2_LIMIT5, rd s ANG_BAND3_LIMIT6]

/-- The band rises past every limit that the speed exceeds by more than 1 %. -/
def bandUp (lim : List Nat) (v : Frac) : Nat → Nat → Nat
  | 0, b => b
  | n + 1, b => if b < 7 ∧ (Frac.make (101 * lim.getD b 0 : Nat) 100).lt v then bandUp lim v n (b + 1) else b

/-- The band falls past every limit that the speed undercuts by more than 1 %. -/
def bandDown (lim : List Nat) (v : Frac) : Nat → Nat → Nat
  | 0, b => b
  | n + 1, b => if 0 < b ∧ v.lt (Frac.make (99 * lim.getD (b - 1) 0 : Nat) 100) then bandDown lim v n (b - 1) else b

/-- The speed band is chosen anew (R106). -/
def chooseBand (w : Wheel) (s : State) : State :=
  let v := speedRpm s w
  let lim := bandLimits s
  let b := rd s ANG_STATUS_BAND
  let n := bandDown lim v 7 (bandUp lim v 7 b)
  if n = b then s else wr ANG_STATUS_BAND n (onAngle (fun a => { a with cycleGood := false }) s)

/-- The 4,000 rpm limit and its release (wheel R72). (log entry 33, DEDUCED) -/
def judgeFast (w : Wheel) (s : State) : State :=
  let v := speedRpm s w
  if !s.angle.fast && (Frac.int 4000).lt v then raise 0x040A 0x64 0 actEvent (onAngle (fun a => { a with fast := true }) s)
  else if s.angle.fast && v.lt (Frac.int 3950) then onAngle (fun a => { a with fast := false }) s
  else s

/-- The loss-of-sync cause that the speed gives (wheel R72, R73). -/
def speedCause (s : State) (w : Wheel) : Option Nat :=
  let v := speedRpm s w
  if (Frac.int 4400).lt v then some 7 else if v.lt (Frac.int 8) then some 8 else none

/-! ### The firing pattern table (R101, R106 to R110) -/

/-- The last end of an event on a solenoid channel since sync was gained lies within the last engine cycle. -/
def endedWithin (s : State) : Bool :=
  match s.angle.lastInjection with
  | none => false
  | some (n, a) =>
    let c := rd s SEQ_CYCLE_CYCLE
    c == n || (c == (n + 1) % 2 ^ 32 && (if reversed s then decide (a ≤ chain s) else decide (chain s ≤ a)))

/-- Positions of one engine cycle that have a tooth. -/
def Wheel.cycleTeeth (w : Wheel) : Nat := w.teeth * (w.cycle / w.positions)

/-- Sync is lost: an end of an event within the last cycle is followed by the tooth positions passed since (R101). (log entry 106, DEDUCED) -/
def keepInjection (w : Wheel) (s : State) : State :=
  match s.angle.lastInjection with
  | none => s
  | some (_, a) =>
    let n := if endedWithin s then some (ahead (reversed s) a (chain s) * w.cycleTeeth / turn) else s.angle.teethSince
    onAngle (fun r => { r with lastInjection := none, teethSince := n }) s

/-- One more tooth position passes; a whole cycle of them ends R101's memory of the end of an event before sync was lost. (log entry 106, DEDUCED) -/
def passTooth (w : Wheel) (s : State) : State :=
  match s.angle.teethSince with
  | none => s
  | some n => onAngle (fun r => { r with teethSince := if n + 1 < w.cycleTeeth then some (n + 1) else none }) s

/-- The engine is injecting: an event on a solenoid channel is Armed or Running, or ended within the last cycle (R101). (log entry 106, DEDUCED) -/
def injecting (s : State) : Bool :=
  s.seq.descs.any (fun p => decide (p.2.output < 36) && p.2.stage.fixed) ||
    endedWithin s || s.angle.teethSince.isSome

/-- Closure learning runs with FORCE. (log entry 34, DEDUCED) -/
def forcedLearning (s : State) : Bool :=
  match s.angle.learn with
  | some l => l.force && l.outcome.isNone
  | none => false

/-- The last tooth position reached was coasted. -/
def coastedLast (s : State) : Bool :=
  match s.angle.recent with
  | m :: _ => m.coasted
  | [] => false

/-- R107 at an accepted edge, before the edge is recorded. -/
def mayLearn (s : State) : Bool :=
  angCfg s ANG_CFG_FP_ENABLE == 1 && phased s && !limping s && !reversed s && injecting s && !forcedLearning s &&
    !coastedLast s && !s.angle.jumped

/-- The count of learning cycles of band `b` (R109). -/
def fpCycles (b : Nat) : Fld :=
  [ANG_FP_CYCLES0_BAND0, ANG_FP_CYCLES0_BAND1, ANG_FP_CYCLES0_BAND2, ANG_FP_CYCLES0_BAND3, ANG_FP_CYCLES1_BAND4,
   ANG_FP_CYCLES1_BAND5, ANG_FP_CYCLES1_BAND6, ANG_FP_CYCLES1_BAND7].getD b ANG_FP_CYCLES0_BAND0

/-- Every band back to F = 1 and every count to 0. -/
def clearFiring (s : State) : State :=
  (List.range 8).foldl (fun s b => wr (fpCycles b) 0 s) (onAngle (fun a => { a with firing := [], clearTable := false }) s)

/-- An entry limited to ±16,384, in 1/256. -/
def fpClamp (x : Int) : Int := clampInt (-4194304) 4194304 x

/-- The entry of position `j` learns from the measured period `t` (R108). -/
def learnFiring (w : Wheel) (j : Nat) (t : Frac) (s : State) : State :=
  let ok := mayLearn s
  let s := wrB ANG_STATUS_FP_LEARNING ok s
  if !ok then onAngle (fun a => { a with cycleGood := false }) s
  else
    let k := rd s ANG_STATUS_BAND * 2048 + j
    let ref := (s.angle.mean.mul (Frac.int (weight w j))).mul (mapFactor (mapOf s (crankInUse s)) (j % w.positions))
    let f := Tbl.get 0 s.angle.firing k
    let fm := (Frac.int 16777216).mul ((Frac.div t ref).sub (Frac.int 1))
    let x := (Frac.int f).add (Frac.div (fm.sub (Frac.int f)) (Frac.int (2 ^ angCfg s ANG_CFG_FP_TC : Nat)))
    onAngle (fun a => { a with firing := Tbl.set 0 a.firing k (fpClamp x.round) }) s

/-- The table at a benchmark crossing: a pending clear, or the count of R109 and the removal of the band's mean (R108). -/
def firingCrossing (w : Wheel) (s : State) : State :=
  let good := !limping s
  if s.angle.clearTable then onAngle (fun a => { a with cycleGood := good }) (clearFiring s)
  else
    let b := rd s ANG_STATUS_BAND
    let n := rd s (fpCycles b)
    let s := if s.angle.cycleGood ∧ n < 255 then wr (fpCycles b) (n + 1) (onAngle (fun a => { a with tableDirty := true }) s) else s
    let l := (List.range w.cycle).filter (fun j => !isMissing w j)
    let sum := l.foldl (fun (x : Int) j => x + (weight w j : Int) * Tbl.get 0 s.angle.firing (b * 2048 + j)) 0
    let mean := roundDiv sum w.cycle
    onAngle (fun a =>
      { a with
        cycleGood := good
        firing := if mean = 0 then a.firing else
          l.foldl (fun f j => Tbl.set 0 f (b * 2048 + j) (fpClamp (Tbl.get 0 f (b * 2048 + j) - mean))) a.firing }) s

/-! ### Closure maps put into use (R104, R105) -/

/-- The key of the wheel description in force. -/
def Wheel.key (w : Wheel) : WheelKey := ⟨w.stroke, w.positions, w.missing, w.tooth0⟩

/-- The quality field of crank input `i`. -/
def qualFld (i : Nat) : Fld := if i = 1 then ANG_STATUS_QUAL_B else ANG_STATUS_QUAL_A

/-- Crank input `i` uses map `m`, whose place in flash is `place`. -/
def setMap (i : Nat) (m : ClosureMap) (place : Nat) (s : State) : State :=
  let s := onAngle (fun a =>
    if i = 1 then { a with mapB := m, places := (a.places.1, place) } else { a with mapA := m, places := (place, a.places.2) }) s
  wr (qualFld i) m.quality s

/-- A new map comes into use and is written to flash; its command is answered after the flash write. `MAP_MIRRORED`
follows where it came from (R104, pairing R300). -/
def useMap (w : Wheel) (x : MapWait) (s : State) : State :=
  if x.key ≠ w.key then
    match x.cmd with
    | some m => refuse 0x0142 m 0x0145 s
    | none => if x.mirrored then raise 0x0609 0x66 0 0 s else s
  else
    let n := s.angle.mapWrites + 1
    let s := clearFiring (setMap x.input x.map n s)
    let s := onAngle (fun a => { a with mapWrites := n, flashMaps := Tbl.insert a.flashMaps x.input ⟨x.key, x.map, n, true⟩ }) s
    let s := wrB PAIR_STATUS_MAP_MIRRORED x.mirrored s
    match x.cmd with
    | some m => { s with boot := { s.boot with jobs := s.boot.jobs ++ [.map m] } }
    | none => s

/-- At tooth position 0 or P every map that waits comes into use. (log entry 35, DEDUCED) -/
def useMaps (w : Wheel) (j : Nat) (s : State) : State :=
  if j % w.positions ≠ 0 ∨ s.angle.mapNext = [] then s
  else s.angle.mapNext.foldl (fun s x => useMap w x s) (onAngle (fun a => { a with mapNext := [] }) s)

/-! ### Closure learning (R102, R103) -/

/-- Learning ends early with `code`; the map stays. (log entry 34, DEDUCED) -/
def learnAbort (code : Nat) (s : State) : State :=
  match s.angle.learn with
  | some l => if l.outcome.isNone then onAngle (fun a => { a with learn := some { l with outcome := some code } }) s else s
  | none => s

/-- Learning ends when crank input `i` is one of those in learning and is lost. -/
def learnLost (i : Nat) (s : State) : State :=
  match s.angle.learn with
  | some l => if i ∈ l.inputs then learnAbort 0x0144 s else s
  | none => s

/-- Positions from after `p` to `j`, going forward. -/
def positionsTo (w : Wheel) (j : Nat) : Nat → Nat → List Nat
  | 0, _ => []
  | n + 1, p =>
    let q := nextTooth w p
    if q = j then [q] else q :: positionsTo w j n q

/-- The input reaches position `j` at time `t`: the intervals since its last position are measured, positions that gave no edge
by their share of the time; position 0 or P ends a revolution. -/
def LearnTrack.reach (w : Wheel) (revs : Nat) (j : Nat) (t : Frac) (x : LearnTrack) : LearnTrack :=
  if !x.begun then
    if j % w.positions = 0 then { x with begun := true, pos := j, time := t, start := t } else x
  else if revs + 2 ≤ x.means.length then x
  else
    let l := positionsTo w j w.cycle x.pos
    let all := l.foldl (fun n p => n + weight w p) 0
    let d := t.sub x.time
    let new := l.map (fun p => (p % w.positions, d.mul (Frac.make (weight w p) all)))
    let x := { x with pos := j, time := t, periods := new.reverse ++ x.periods }
    if j % w.positions = 0 then
      { x with start := t, means := Frac.div (t.sub x.start) (Frac.int w.positions) :: x.means }
    else x

/-- The means of two consecutive revolutions differ by more than 2 %. -/
def unsteady : List Frac → Bool
  | a :: b :: _ => b.lt ((Frac.int 50).mul (a.sub b).abs)
  | _ => false

/-- Closure learning sees position `j` of crank input `i` at time `t`. (log entry 34, DEDUCED) -/
def learnTooth (w : Wheel) (i j : Nat) (t : Frac) (s : State) : State :=
  match s.angle.learn with
  | none => s
  | some l =>
    if l.outcome.isSome ∨ i ∉ l.inputs then s
    else
      let x : LearnTrack := Tbl.get {} l.tracks i
      let y := x.reach w l.revs j t
      let l := { l with tracks := Tbl.set {} l.tracks i y }
      let s := onAngle (fun a => { a with learn := some l }) s
      if x.means.length < y.means.length ∧ unsteady y.means then learnAbort 0x0143 s
      else if l.inputs.all (fun k => decide (l.revs + 2 ≤ (Tbl.get ({} : LearnTrack) l.tracks k).means.length)) then
        onAngle (fun a => { a with learn := some { l with outcome := some 0 } }) s
      else s

/-- Midpoint, in pitches from position 0 of the revolution, of the interval that ends at revolution position `r`. -/
def midOf (w : Wheel) (r : Nat) : Frac :=
  if r = 0 then Frac.make (2 * w.positions - (w.missing + 1) : Nat) 2 else Frac.make (2 * r - 1 : Nat) 2

/-- The summed ratios of interval `r` over revolutions 1 to R (R103). -/
def learnAcc (w : Wheel) (means : List Frac) (revs : Nat) (periods : List (Nat × Frac)) (r : Nat) : Frac :=
  let ts := (periods.filter (fun p => p.1 == r)).map (fun p => p.2)
  (List.range revs).foldl (fun acc k =>
    let i := k + 1
    let m := fun n => means.getD n {}
    let slope := Frac.div ((m (i + 1)).sub (m (i - 1))) ((Frac.int 2).mul (m i))
    let x := (Frac.div (midOf w r) (Frac.int w.positions)).sub (Frac.make 1 2)
    let ref := ((m i).mul (Frac.int (weight w r))).mul ((Frac.int 1).add (slope.mul x))
    acc.add (Frac.div (ts.getD i {}) ref)) {}

/-- The map that the measured periods of an input give; `none` when an entry lies beyond 0.25 (R103, Table 3-2). -/
def learnMap (w : Wheel) (revs quality : Nat) (x : LearnTrack) : Option ClosureMap :=
  let means := x.means.reverse
  let periods := x.periods.reverse
  let rs := List.range w.teeth
  let acc := rs.map (fun r => (r, Frac.div (learnAcc w means revs periods r) (Frac.int revs)))
  let sum := acc.foldl (fun t p => t.add ((Frac.int (weight w p.1)).mul p.2)) ({} : Frac)
  let c := acc.map (fun p =>
    (p.1, ((Frac.int 65536).mul ((Frac.div (p.2.mul (Frac.int w.positions)) sum).sub (Frac.int 1))).round))
  let total := c.foldl (fun (t : Int) p => t + (weight w p.1 : Int) * p.2) 0
  let c := c.map (fun p => if p.1 = 1 then (p.1, p.2 - total) else p)
  if c.any (fun p => decide (16384 < p.2.natAbs)) then none
  else some { entries := c.foldl (fun t p => Tbl.set 0 t p.1 p.2) [], quality }

end Sys2Proof.Machine
end

