-- ==== Sys2Proof/Machine/Pair.lean ====
section
/-! DEFINITION. Redundant pairing: roles, the isolating switches, resign, takeover, the state frame and the background blocks, and
what the removal of the module does (pairing R291 to R313, module R504). -/
namespace Sys2Proof.Machine

/-- Pairing state changed by `f`. -/
def onTie (f : Tie → Tie) (s : State) : State := { s with tie := f s.tie }

/-- The present role (Table 10-1). -/
def role (s : State) : Nat := rd s PAIR_STATUS_ROLE

/-- Firmware is ready, `LEAVE` has settled closed, and the module is not leaving: training may run (R294, module R502). -/
def mayTrain (s : State) : Bool :=
  isSet s GLB_BOOT_FW_READY && s.boot.leaveSettled && !isSet s MOD_STATUS_LEAVING

/-! ### Isolating switches and roles (R291, R292, R295) -/

/-- Every output of the drive die goes off, channels with fast switch-off (R304). -/
def outputsOff (s : State) : State :=
  let s := (List.range 36).foldl (fun s c =>
    onChan c (fun x => { x with ended := x.ended || x.lane }) (quench c 3 true s)) s
  let s := { s with drive := { s.drive with waiters := [] } }
  (List.range 16).foldl (fun s n =>
    if isSet s (AUX_STAT_ON n) || isSet s (AUX_STAT_WAITING n) then auxSwitchOff n s else s) s

/-- The isolating switches open, and nothing of the module drives a coil (R291). -/
def isolate (s : State) : State := outputsOff (onTie (fun t => { t with closed := false, takeover := none }) s)

/-- Auxiliary output `n`, whose lane is ON, is driven from now on, or its event is refused (R308). (log entry 67, DEDUCED) -/
def auxConnect (n : Nat) (s : State) : State :=
  let x := auxAt s n
  if !x.lane then s
  else if !x.framed then
    report (.noFrame (36 + n) x.serial s.cyc false)
      (raise 0x0207 (outSource (36 + n)) (hopDetail s x.serial 7) (actEvent + actOff) (onAux n (fun y => { y with lane := false }) s))
  else if !bitOf (rd s AUX_EN_EN) n || !outputPowered s (36 + n) then auxReport n 0x22 s
  else if isSet s (AUX_STAT_LATCH n) then auxReport n 0x2C s
  else auxEnergise n s

/-- The isolating switches close (R295). (log entry 67, DEDUCED) -/
def connect (s : State) : State := (List.range 16).foldl (fun s n => auxConnect n s) (onTie (fun t => { t with closed := true }) s)

/-- A handover that waits when the role is lost is answered (R310). (log entry 67, DEDUCED) -/
def dropHandover (s : State) : State :=
  match s.tie.handover with
  | some h => refuse 0x0182 h.cmd 0x0181 (onTie (fun t => { t with handover := none }) s)
  | none => s

/-- The role becomes `r`: flagged, told, and eligibility and the pins of the timing die follow (R292, R308, R314, timers R343). -/
def setRole (r : Nat) (s : State) : State :=
  if role s = r then s
  else
    let s := intPulse 375 (vectorAll 4 (flag PAIR_STATUS_ROLE_CHG (wr PAIR_STATUS_ROLE r s)))
    let s := if r < 2 then onTie (fun t => { t with drove := true }) s
      else wrB PAIR_STATUS_BM_HOLDER false (onTie (fun t => { t with listen := none, bmLow := none, bmFall := none }) s)
    drivePins (pairRefresh s)

/-- A module that drives listens on the benchmark line before it claims, unless its pair already holds the role (R313). (log entry 70, DEDUCED) -/
def bmListen (s : State) : State :=
  if isSet s PAIR_CFG_BM_ENABLE && driving s && !isSet s PAIR_STATUS_BM_HOLDER && s.tie.listen.isNone then
    onTie (fun t => { t with listen := some s.cyc }) s
  else s

/-- The module gives up driving and takes role `r` (R291, R304). -/
def stepDown (r : Nat) (s : State) : State := dropHandover (setRole r (isolate s))

/-- The module takes DUTY or SOLO by election. Channels whose lane is ON stay off for the rest of that interval; a SOLO connects
straight away, a DUTY that is not connected when its partner's frame shows STANDBY (R295). (log entry 64, DEDUCED) -/
def elect (r : Nat) (s : State) : State :=
  let was := driving s
  let s := setRole r s
  let s := if was then s
    else (List.range 36).foldl (fun s c => onChan c (fun x => { x with ended := x.ended || x.lane }) s) s
  let s := if r = 0 ∧ !s.tie.closed then connect s else s
  if was then s else bmListen s

/-! ### Training (R294, R296, R314) -/

/-- A training begins: `ENABLE` and `TIE_VER_MAX` take effect (R314). -/
def takePairCfg (s : State) : State :=
  pairRefresh (onTie (fun t =>
    { t with enable := rd s PAIR_CFG_ENABLE == 1, verMax := rd s PAIR_CFG_TIE_VER_MAX }) s)

/-- Training starts, or without pairing the module takes SOLO (R294). (log entry 65, DEDUCED) -/
def tieStart (s : State) : State :=
  if !mayTrain s ∨ role s ≠ 3 ∨ s.tie.since.isSome then s
  else
    let s := onTie (fun t => { t with since := some s.cyc }) (takePairCfg s)
    if s.tie.enable then s else elect 0 s

/-- The role after training, from what each side is and has been (R294): `low` tells that this module's slot number, or its serial
number where the slots are equal, is the lower. (log entry 64, DEDUCED) -/
def electedRole (s : State) (low partnerDrives partnerHas : Bool) : Option Nat :=
  match driving s, partnerDrives with
  | true, true => some (if low then 1 else 2)
  | true, false => some 1
  | false, true => some 2
  | false, false => if !s.tie.drove && !partnerHas then some (if low then 1 else 2) else none

/-- Training completes with the partner in `slot`, which offers versions up to `ver` (R294, R299, module R493). (log entry 64, DEDUCED) -/
def trained (slot ver lat : Nat) (serialLow partnerDrives partnerHas : Bool) (s : State) : State :=
  if !mayTrain s || !s.tie.enable || s.tie.trained then s
  else
    let own := rd s PAIR_STATUS_SLOT
    let low := decide (own < slot) || (own == slot && serialLow)
    let v := min s.tie.verMax (max 1 ver)
    let s := onTie (fun t =>
      { t with
        trained := true, ever := true, frame := [], frameAt := s.cyc, chainRun := 0, digestBad := 0, digestGood := 0
        partnerBm := false, blocks := [], sent := none, trimTurn := 0, rxMap := none, trims := [] }) s
    let s := wr PAIR_STATUS_PARTNER_SLOT slot (wr PAIR_STATUS_VERSION v (wrB PAIR_STATUS_LINK_UP true (wr PAIR_DIFF_TIE_LAT lat s)))
    let s := if own = slot ∧ serialLow then wrB MOD_STATUS_SERIAL_TIE true s else s
    match electedRole s low partnerDrives partnerHas with
    | none => pairRefresh s
    | some 1 => pairRefresh (elect 1 s)
    | some r => pairRefresh (if driving s then stepDown r s else setRole r s)

/-- 5 ms have passed without a training, or a retry interval ends: `F_0600`, and the next training begins (R294). -/
def trainingLate (s : State) : State :=
  if !mayTrain s || s.tie.trained then s
  else
    let ended : Bool := match s.tie.since with
      | some t => decide (t + 2000000 ≤ s.cyc)
      | none => false
    let s := if s.tie.enable && role s == 3 && ended && !s.tie.late then
        raise 0x0600 0x66 0 actOff (onTie (fun t => { t with late := true }) s)
      else s
    takePairCfg s

/-- `PAIR_CFG` is written; `ENABLE` = 0 on a module left UNASSIGNED after the limit gives SOLO at once, and `ENABLE` = 1 begins
training again (R296, R314). (log entry 65, DEDUCED) -/
def writePairCfg (x : Word) (s : State) : State :=
  let was := isSet s PAIR_CFG_BM_ENABLE
  let s := swWrite PAIR_CFG (globalFields PAIR_CFG) x s
  let s := if isSet s PAIR_CFG_BM_ENABLE then s
    else wrB PAIR_STATUS_BM_HOLDER false (onTie (fun t => { t with listen := none, missing := 0 }) s)
  let s := if was then s else bmListen s
  if isSet s PAIR_CFG_ENABLE then (if s.tie.enable then s else takePairCfg s)
  else if s.tie.late && role s == 3 && mayTrain s then elect 0 (onTie (fun t => { t with enable := false }) s)
  else s

/-! ### Resign (R303, Table 10-5) -/

/-- The module pulls the resign line low for 10 µs. -/
def pullResign (s : State) : State :=
  let low := isSet s PAIR_STATUS_RESIGN_IN
  wrB PAIR_STATUS_RESIGN_IN true
    (onTie (fun t => { t with resign := some (s.cyc + 4000), lowAt := if low then t.lowAt else s.cyc }) s)

/-- A DUTY resigns and takes role `r`; `lost` tells that it is not eligible afterwards. -/
def resign (r : Nat) (lost : Bool) (s : State) : State :=
  if role s ≠ 1 then s
  else
    let s := pullResign (isolate s)
    dropHandover (setRole r (onTie (fun t => { t with resigned := t.resigned || lost }) s))

/-- The action bit of a fault on which a DUTY resigns (faults Table 17-4). -/
def resignAct (s : State) : Nat := if role s = 1 then actRole else 0

/-- Word `i` of the partner's last valid frame. -/
def partnerWord (s : State) (i : Nat) : Word := s.tie.frame.getD i 0

/-- Both boosts of the partner are READY and it is eligible, by its last frame (Table 10-5). -/
def partnerBoosts (s : State) : Bool :=
  !s.tie.frame.isEmpty && bits (partnerWord s 6) 27 25 == 3 && bits (partnerWord s 6) 24 22 == 3 &&
    bits (partnerWord s 0) 18 18 == 1

/-! ### Takeover (R302 to R309) -/

/-- The partner's frame shows channel `c` energised. -/
def partnerOn (s : State) (c : Nat) : Bool :=
  if c < 32 then bitOf (partnerWord s 5).toNat c else bitOf (bits (partnerWord s 6) 31 28) (c - 32)

/-- Four paces, the age of what counts as recent (R307). -/
def recent : Nat := 400

/-- An Armed event of channel `c` whose start is due within four paces. -/
def dueSoon (s : State) (c : Nat) : Option Nat :=
  (s.seq.descs.find? (fun p => p.2.output == c && p.2.stage == .armed && !p.2.frozen s && decide (p.2.ts ≤ s.cyc + recent))).map
    (fun p => p.1)

/-- The lane of channel `c` falls for the rest of its occurrence, and its events are COMPLETED with `OUTCOME` SKIPPED
(Table 10-6). -/
def skipLane (c : Nat) (s : State) : State :=
  let hs := (laneAt s c).holders
  let s := laneOff c true none s
  hs.foldl (fun s j =>
    match desc s j with
    | some e =>
      endWith j
        { type := ntCompleted, outcome := ocSkipped, energised := ranFor s e, endErr := signed 24 (chain s + turn - e.endAngle)
          delay := e.delay, closing := closingWithout s c e false } (unplace j s)
    | none => s) s

/-- What the standby decides for channel `c` at the trigger (Table 10-6). -/
def decideChannel (c : Nat) (s : State) : State :=
  let l := laneAt s c
  if partnerOn s c then
    if l.on then s
    else match dueSoon s c with
      | some i => fireStart i s
      | none =>
        match l.endAt with
        | some t => if s.cyc ≤ t + recent then s else count PAIR_COUNT1_ORPHANS 1 s
        | none => count PAIR_COUNT1_ORPHANS 1 s
  else if l.on ∧ l.since + recent < s.cyc then skipLane c s
  else s

/-- The channels that are decided: a paralleled pair as its even member. -/
def decidedChannels (s : State) : List Nat := (List.range 36).filter (fun c => !oddMember s c)

/-- A trigger reaches a STANDBY: `cause` 1 SILENCE, 2 RESIGN (R305 to R307, R309). -/
def trigger (cause : Nat) (s : State) : State :=
  match s.tie.takeover with
  | some (_, t) =>
    if t = s.cyc ∧ cause = 2 then
      wr PAIR_STATUS_LAST_TRIGGER 2 (onTie (fun x => { x with takeover := some (2, t) }) s)
    else s
  | none =>
    if !pairEligible s then raise 0x0602 0x66 0 0 s
    else
      let s := wr PAIR_TAKEOVER_AT s.cyc (wr PAIR_STATUS_LAST_TRIGGER cause s)
      let s := onTie (fun x => { x with takeover := some (cause, s.cyc) }) s
      let s := if cause = 1 then pullResign s else s
      (decidedChannels s).foldl (fun s c => decideChannel c s) s

/-- Two paces have passed without a valid frame (R302). -/
def silence (s : State) : State :=
  if !s.tie.trained ∨ s.cyc < s.tie.frameAt + 200 then s
  else
    let s := wrB PAIR_STATUS_LINK_UP false (onTie (fun t => { t with trained := false, blocks := [], rxMap := none }) s)
    if role s = 2 then takePairCfg (trigger 1 s)
    else if role s = 1 then takePairCfg (raise 0x0601 0x66 0 actRole (elect 0 s))
    else takePairCfg s

/-- The takeover in progress began in this cycle. -/
def takeoverNow (s : State) : Bool :=
  match s.tie.takeover with
  | some (_, t) => t == s.cyc
  | none => false

/-- A falling edge of the filtered resign line that the module does not drive, or drives only since silence in this same cycle (R303,
R304, R309). -/
def resignEdge (s : State) : State :=
  if s.tie.resign.isSome && !takeoverNow s then s
  else
    let low := isSet s PAIR_STATUS_RESIGN_IN
    let s := wrB PAIR_STATUS_RESIGN_IN true (onTie (fun t => { t with lowAt := if low then t.lowAt else s.cyc }) s)
    if s.tie.deaf then s
    else if role s = 2 then trigger 2 s
    else if role s = 1 then raise 0x0608 0x66 0 (actOff + actRole) (stepDown 2 s)
    else s

/-- Channel `c`, whose lane reads ON at the closing, enters its profile at the hold phase (R306, R307). (log entries 69, DEDUCED, 116, DEDUCED) -/
def enterHold (c : Nat) (s : State) : State :=
  let x := chan s c
  if !x.lane then s
  else if x.words = [] then
    if reported s x.serial then s
    else
      onChan c (fun y => { y with ended := true })
        (report (.noFrame c x.serial s.cyc false) (raise 0x0207 (outSource c) (hopDetail s x.serial 7) (actEvent + actOff) s))
  else
    let f : Frame := { output := c, profile := x.slot, battery := x.battery, fallback := x.fallback, serial := x.serial }
    let s := chanStart c x.serial f x.words (holdPhase x.words) true s
    if (chan s c).ended then s
    else (laneAt s c).holders.foldl (fun s j => match desc s j with
      | some d => noteBit d.serial flHold s
      | none => s) s

/-- The trim of channel `c` at a takeover (R308). (log entry 68, DESIGN CHOICE) -/
def takeTrim (c : Nat) (s : State) : State :=
  if !isSet s (CD_CFG_TRIM_EN c) then s
  else
    let x : TrimCopy := if rd s PAIR_STATUS_VERSION = 3 then (Tbl.find s.tie.trims c).getD ⟨0, 2, 0, 0⟩ else ⟨0, 2, 0, 0⟩
    let s := setTrim c (signed 17 x.trim) (wr (CD_TRIM_STATE c) x.state
      (wr (CD_TRIM_MISS_RUN c) x.misses (wr (CD_TRIM_RETURN_STEP c) x.step s)))
    if x.state = 1 then
      let (v, s) := draw s
      onTrim c (fun t => { t with base := signed 17 (v % 2 ^ 17) }) s
    else s

/-- The drive die closes the isolating switches: what the takeover decided is driven from now on (R306, R308). `sound` tells that
the connect command passed its check. (log entry 69, DEDUCED) -/
def closeSwitches (sound : Bool) (s : State) : State :=
  match s.tie.takeover with
  | none => s
  | some (cause, _) =>
    if !sound || !isSet s PAIR_STATUS_RESIGN_IN || decide (s.cyc < s.tie.lowAt + 60) then s
    else
      let s := setRole (if cause = 2 ∧ s.tie.trained then 1 else 0) (onTie (fun t => { t with takeover := none, closed := true }) s)
      let s := (decidedChannels s).foldl (fun s c => enterHold c s) s
      let s := (List.range 16).foldl (fun s n => auxConnect n s) s
      let s := (List.range 36).foldl (fun s c => takeTrim c s) s
      let s := count PAIR_COUNT0_TAKEOVERS 1 (flag PAIR_STATUS_TAKEOVER s)
      let s := wrB PAIR_STATUS_BM_HOLDER (s.tie.partnerBm && isSet s PAIR_CFG_BM_ENABLE) s
      vectorAll 4 (intPulse 375 (raise 0x0607 0x66 0 actRole s))

/-! ### The state frame (R297, R298, R301) -/

/-- The CRC-32 that `DIGEST` takes of one descriptor. -/
def descDigest (d : Desc) : Word :=
  let b := fun n => BitVec.ofNat 8 n
  crc32 [b d.client, b d.channel, b d.sequence, b (d.sequence / 256), b d.endAngle, b (d.endAngle / 256), b (d.endAngle / 65536),
    b (d.astern.toNat * 2 + d.bank)]

/-- `DIGEST` of the module's Armed and Running descriptors. (log entry 66, DEDUCED) -/
def digest (s : State) : Word :=
  s.seq.descs.foldl (fun a p => if p.2.stage.fixed then a ^^^ descDigest p.2 else a) 0

/-- The bits of `l` for which `f` holds. -/
def bitsOf (n : Nat) (f : Nat → Bool) : Nat := (List.range n).foldl (fun a i => if f i then a + 2 ^ i else a) 0

/-- The state frame of this pace (Table 10-2). -/
def stateFrame (s : State) : List Word :=
  let b := fun (f : Fld) k => rd s f * 2 ^ k
  let a := chainAt s (100 * (s.cyc / 100))
  let w0 := wd (0xA * 2 ^ 28 + b PAIR_STATUS_VERSION 26 + b PAIR_STATUS_ROLE 24 + b WHL_STATUS_STATE 22 + b WHL_STATUS_REVERSE 21 +
    b WHL_STATUS_LIMP 20 + b WHL_STATUS_ASTERN 19 + b PAIR_STATUS_ELIGIBLE 18 + b PAIR_STATUS_BM_HOLDER 17 + s.tie.txSeq % 65536)
  let w1 := wd (ofSigned 24 (a / unit) * 256 + (a % unit).toNat / 2048)
  let w3 := wd (rd s WHL_STATUS_TOOTH_POS * 2 ^ 21 + min 0xFFFF (s.angle.errs.foldl max 0))
  let on := fun c => isSet s (DRV_CH_STAT_ENERGISED c)
  let w5 := wd (bitsOf 32 on)
  let w6 := wd (bitsOf 4 (fun i => on (32 + i)) * 2 ^ 28 + b (BST_STATUS_STATE 0) 25 + b (BST_STATUS_STATE 1) 22 +
    bitsOf 16 (fun n => isSet s (AUX_STAT_ON n)))
  let l := [w0, w1, ~~~w1, w3, digest s, w5, w6]
  l ++ [crc32 (bytesOf l)]

/-- A received frame is valid (R298). (log entry 66, DEDUCED) -/
def frameValid (s : State) (l : List Word) : Bool :=
  let w := fun i => l.getD i 0
  l.length == 8 && crc32 (bytesOf (l.take 7)) == w 7 && bits (w 0) 31 28 == 0xA &&
    bits (w 0) 27 26 == rd s PAIR_STATUS_VERSION && w 2 == ~~~(w 1)

/-- The chain is compared with the frame's (R301). (log entry 66, DEDUCED) -/
def compareChain (l : List Word) (s : State) : State :=
  let rate : Int := if reversed s then -(rateNow s : Int) else rateNow s
  let d := signed 24 (ofSigned 24 (chain s - (bits (l.getD 1 0) 31 8 + roundDiv (rate * rd s PAIR_DIFF_TIE_LAT) unit)))
  let s := maxTo PAIR_DIFF_MAX_DIFF d.natAbs s
  if d.natAbs ≤ rd s PAIR_CFG_CHAIN_TOL then onTie (fun t => { t with chainRun := 0 }) s
  else
    let n := s.tie.chainRun + 1
    let s := onTie (fun t => { t with chainRun := min n 5 }) s
    if n = 4 then raise 0x0605 0x66 0 0 (count PAIR_COUNT1_CHAIN_MISMATCH 1 s) else s

/-- The digest is compared with the frame's (R301). (log entry 66, DEDUCED) -/
def compareDigest (l : List Word) (s : State) : State :=
  if l.getD 4 0 = digest s then
    let n := s.tie.digestGood + 1
    let s := onTie (fun t => { t with digestBad := 0, digestGood := min n 16 }) s
    if n = 16 then wrB PAIR_STATUS_DIGEST_OK true s else s
  else
    let n := s.tie.digestBad + 1
    let s := onTie (fun t => { t with digestGood := 0, digestBad := min n 17 }) s
    if n = 16 then raise 0x0604 0x66 0 0 (wrB PAIR_STATUS_DIGEST_OK false s) else s

/-- Both modules are PHASED and neither is in cam limp (R301). -/
def comparable (s : State) (l : List Word) : Bool :=
  phased s && !limping s && bits (l.getD 0 0) 23 22 == 3 && bits (l.getD 0 0) 20 20 == 0

/-- A state frame ends (R295, R298, R301). (log entry 115, DEDUCED) -/
def stateFrameIn (l : List Word) (s : State) : State :=
  if !s.tie.trained then s
  else if !frameValid s l then count PAIR_COUNT0_BAD_FRAMES 1 s
  else
    let next : Bool := s.tie.frame.isEmpty || bits (l.getD 0 0) 15 0 == (bits (partnerWord s 0) 15 0 + 1) % 65536
    let s := if next then s else count PAIR_COUNT0_BAD_FRAMES 1 s
    let s := wrB PAIR_STATUS_PARTNER_ELIGIBLE (bits (l.getD 0 0) 18 18 == 1) (onTie (fun t =>
      { t with
        frame := l, frameAt := s.cyc
        partnerBm := if bits (l.getD 0 0) 25 25 = 0 then bits (l.getD 0 0) 17 17 == 1 else t.partnerBm }) s)
    let s := if role s = 1 ∧ !s.tie.closed ∧ bits (l.getD 0 0) 25 24 = 2 then connect s else s
    if comparable s l then compareDigest l (compareChain l s)
    else onTie (fun t => { t with chainRun := 0, digestBad := 0, digestGood := 0 }) s

/-! ### Background blocks (R299, R300) -/

/-- One position of a MAP_ENTRY block: the entry and its complement. -/
def entryWord (m : ClosureMap) (r : Nat) : Word :=
  let c := ofSigned 16 (Tbl.get 0 m.entries r)
  wd (c * 65536 + (65535 - c))

/-- The entry blocks of the map of crank input `i`. -/
def entryBlocks (w : Wheel) (i : Nat) (m : ClosureMap) : List (List Word) :=
  (List.range ((w.positions + 2) / 3)).map (fun k =>
    [wd (2 * 2 ^ 28 + (i * 2048 + 3 * k) * 2 ^ 16), entryWord m (3 * k), entryWord m (3 * k + 1), entryWord m (3 * k + 2)])

/-- The head block of a map whose key is `k`. -/
def headBlock (i : Nat) (k : WheelKey) (quality : Nat) (l : List (List Word)) : List Word :=
  [wd (2 ^ 28 + i * 2 ^ 16),
    wd (k.positions * 2 ^ 22 + k.missing * 2 ^ 20 + (if k.stroke = 4 then 2 ^ 19 else 0) + quality * 2 ^ 17),
    wd (k.tooth0 * 256), crc32 (bytesOf l.flatten)]

/-- All blocks of the map of crank input `i`. -/
def mapBlocks (s : State) (w : Wheel) (i : Nat) : List (List Word) :=
  let m := mapOf s i
  let l := entryBlocks w i m
  headBlock i w.key m.quality l :: l

/-- The TRIM block of channel `c`. -/
def trimBlock (s : State) (c : Nat) : List Word :=
  let t := BitVec.ofInt 32 (trimNow s c)
  [wd (3 * 2 ^ 28 + c * 2 ^ 16), t, ~~~t,
    wd (rd s (CD_TRIM_STATE c) * 2 ^ 30 + rd s (CD_TRIM_MISS_RUN c) * 2 ^ 26 + rd s (CD_TRIM_RETURN_STEP c) * 2 ^ 19)]

/-- The maps that are due to be sent join the blocks (R300). -/
def queueMaps (s : State) : State :=
  match s.angle.wheel with
  | none => s
  | some w =>
    let (a, b) := s.angle.places
    let due := (List.range 2).filter (fun i => match s.tie.sent with
      | none => true
      | some (x, y) => if i = 0 then a != x else b != y)
    if due = [] then s
    else onTie (fun t => { t with blocks := t.blocks ++ due.flatMap (mapBlocks s w), sent := some (a, b) }) s

/-- The background block of this pace: a map's, a trim's, or IDLE (R299, R300). -/
def nextBlock (s : State) : List Word × State :=
  let v := rd s PAIR_STATUS_VERSION
  if role s ≠ 1 ∨ v < 2 then ([0, 0, 0, 0], s)
  else
    let s := queueMaps s
    match s.tie.blocks with
    | b :: rest => (b, onTie (fun t => { t with blocks := rest }) s)
    | [] =>
      if v < 3 then ([0, 0, 0, 0], s)
      else (trimBlock s s.tie.trimTurn, onTie (fun t => { t with trimTurn := (t.trimTurn + 1) % 36 }) s)

/-- What the module sends over the tie link in this pace (R297). -/
def sendTie (s : State) : State :=
  if !s.tie.trained then s
  else
    let f := stateFrame s
    let (b, s) := nextBlock s
    onTie (fun t => { t with txSeq := (t.txSeq + 1) % 65536 }) { s with out := .tieFrame (f ++ b) :: s.out }

/-- An entry word passes its check. -/
def entryGood (x : Word) : Bool := bits x 31 16 + bits x 15 0 == 65535

/-- A received map is complete: it waits for tooth position 0 or P when its key, its CRC and every entry pass (R300). (log entry 35, DEDUCED) -/
def mapReceived (head : List Word) (l : List (List Word)) (s : State) : State :=
  let s := onTie (fun t => { t with rxMap := none }) s
  let h := head.getD 1 0
  let i := bits (head.getD 0 0) 16 16
  let key : WheelKey := ⟨if bits h 19 19 = 1 then 4 else 2, bits h 31 22, bits h 21 20, bits (head.getD 2 0) 31 8⟩
  let words := l.flatMap (fun b => b.drop 1)
  let order : Bool := (List.range l.length).all (fun k => bits ((l.getD k []).getD 0 0) 27 16 == i * 2048 + 3 * k)
  let good : Bool := match s.angle.wheel with
    | some w => w.key == key
    | none => false
  if good && order && crc32 (bytesOf l.flatten) == head.getD 3 0 && words.all entryGood then
    let m : ClosureMap :=
      { entries := (List.range key.positions).foldl (fun t r => Tbl.set 0 t r (signed 16 (bits (words.getD r 0) 31 16))) []
        quality := bits h 18 17 }
    onAngle (fun a => { a with mapNext := a.mapNext ++ [{ input := i, key, map := m, cmd := none, mirrored := true }] }) s
  else raise 0x0609 0x66 0 0 s

/-- A background block arrives at a STANDBY (R299, R300). -/
def blockIn (b : List Word) (s : State) : State :=
  let v := rd s PAIR_STATUS_VERSION
  if !s.tie.trained ∨ role s ≠ 2 ∨ v < 2 then s
  else match bits (b.getD 0 0) 31 28 with
    | 1 => onTie (fun t => { t with rxMap := some (b, []) }) s
    | 2 =>
      match s.tie.rxMap with
      | none => s
      | some (h, l) =>
        let l := l ++ [b]
        if (bits (h.getD 1 0) 31 22 + 2) / 3 ≤ l.length then mapReceived h l s
        else onTie (fun t => { t with rxMap := some (h, l) }) s
    | 3 =>
      let c := bits (b.getD 0 0) 27 16
      if v = 3 ∧ c < 36 ∧ b.getD 2 0 = ~~~(b.getD 1 0) then
        let x := b.getD 3 0
        onTie (fun t => { t with trims := Tbl.insert t.trims c ⟨bits (b.getD 1 0) 16 0, bits x 31 30, bits x 29 26, bits x 25 19⟩ }) s
      else s
    | _ => s

/-! ### Removal of the module (module R504) -/

/-- `LEAVE` has opened: the module isolates itself and ends everything it drives (module R504). -/
def leaveActions (s : State) : State :=
  let s := if role s = 1 then resign 3 true s else if role s = 0 then stepDown 3 s else setRole 3 (onTie (fun t => { t with takeover := none }) s)
  let s := cutAll (fun _ => true) ntTripped 0x22 s
  let s := (List.range 52).foldl (fun s o => laneOff o true none s) s
  let s := (List.range 64).foldl (fun s n => if (ctxAt s n).runs then pulseHalt n s else s) s
  (List.range 2).foldl (fun s b => if boostState s b ∈ [0, 4, 5] then s else boostStop b s) s

end Sys2Proof.Machine
end

