-- ==== Sys2Proof/Machine/PairCmd.lean ====
section
/-! DEFINITION. The pairing commands and events: training, frames, silence, resign, takeover, handover, the benchmark line, and the
failure of a boost controller (pairing R294 to R314, protection R230, R233). -/
namespace Sys2Proof.Machine

/-! ### The tie link -/

/-- `TIE_TRAINING_DONE`: training completes with the partner in slot `slot`, which offers versions up to `ver`; `serialLow` tells
that this module's serial number is the lower, `partnerDrives` that the partner is DUTY or SOLO, `partnerHas` that it has been so
since its reset, `lat` the latency measured (R294, R299, module R493). -/
def execTieTrainingDone (dt : Nat) (slot : Fin 16) (ver : Fin 4) (lat : BitVec 16) (serialLow partnerDrives partnerHas : Bool)
    (s : State) : Host.Outcome State Fault Refusal :=
  event dt (trained slot ver lat.toNat serialLow partnerDrives partnerHas) s

/-- `TIE_TRAINING_TIMEOUT`: training has not completed within 5 ms, or a 100 ms retry interval ends (R294). -/
def execTieTrainingTimeout (dt : Nat) (s : State) : Host.Outcome State Fault Refusal := event dt trainingLate s

/-- `TIE_STATE_FRAME`: a state frame of eight words ends (R298). -/
def execTieStateFrame (dt : Nat) (w0 w1 w2 w3 w4 w5 w6 w7 : Word) (s : State) : Host.Outcome State Fault Refusal :=
  event dt (stateFrameIn [w0, w1, w2, w3, w4, w5, w6, w7]) s

/-- `BACKGROUND_BLOCK`: a background block of four words arrives (R300). -/
def execBackgroundBlock (dt : Nat) (x0 x1 x2 x3 : Word) (s : State) : Host.Outcome State Fault Refusal :=
  event dt (blockIn [x0, x1, x2, x3]) s

/-- `TIE_SILENCE`: two paces have passed without a valid frame (R302). -/
def execTieSilence (dt : Nat) (s : State) : Host.Outcome State Fault Refusal := event dt silence s

/-! ### The resign line -/

/-- `RESIGN_EDGE`: the filtered resign line falls (R303). -/
def execResignEdge (dt : Nat) (s : State) : Host.Outcome State Fault Refusal := event dt resignEdge s

/-- The module's own resign assertion has lasted 10 µs. -/
def resignOver (s : State) : State :=
  match s.tie.resign with
  | some t => if t ≤ s.cyc then onTie (fun x => { x with resign := none }) s else s
  | none => s

/-- `RESIGN_RELEASE`: the 10 µs resign assertion ends (R303). -/
def execResignRelease (dt : Nat) (s : State) : Host.Outcome State Fault Refusal := event dt resignOver s

/-- The resign line stays low over 10 µs and no module drives it: edges are ignored until it is high. -/
def resignStuck (s : State) : State :=
  if isSet s PAIR_STATUS_RESIGN_IN && s.tie.resign.isNone && !s.tie.deaf && decide (s.tie.lowAt + 4000 < s.cyc) then
    raise 0x0603 0x66 0 0 (onTie (fun x => { x with deaf := true }) s)
  else s

/-- `RESIGN_STUCK` (R309). -/
def execResignStuck (dt : Nat) (s : State) : Host.Outcome State Fault Refusal := event dt resignStuck s

/-- The filtered resign line is high again. -/
def resignRise (s : State) : State :=
  if s.tie.resign.isSome then s else wrB PAIR_STATUS_RESIGN_IN false (onTie (fun x => { x with deaf := false }) s)

/-- `RESIGN_LINE_RISE` (R309). -/
def execResignLineRise (dt : Nat) (s : State) : Host.Outcome State Fault Refusal := event dt resignRise s

/-- `ISOLATION_CLOSE`: the drive die has the connect command, `sound` when its check passed, and closes the switches once the resign
line has been low for 150 ns (R306). (log entry 46, DESIGN CHOICE) -/
def execIsolationClose (dt : Nat) (sound : Bool) (s : State) : Host.Outcome State Fault Refusal := event dt (closeSwitches sound) s

/-! ### The benchmark line (R311 to R313) -/

/-- The engine's cycle as counted from the points 2^22 links beyond benchmark. -/
def bmCycle (s : State) (c : Int) : Int := (alongLinks (reversed s) c - 4194304) / turn

/-- The module takes part in the line and checks against it. (log entry 70, DEDUCED) -/
def bmChecks (s : State) : Bool := isSet s PAIR_CFG_BM_ENABLE && phased s && !isSet s PAIR_STATUS_BM_HOLDER

/-- A falling edge of the benchmark line, filtered over 8 cycles, is checked against the chain (R312). -/
def benchmarkEdge (s : State) : State :=
  if !bmChecks s then s
  else
    let a := chainAt s (s.cyc - 8) / unit
    let s := onTie (fun t => { t with bmSeen := some (bmCycle s a + 1), missing := 0 }) s
    if (signed 24 (ofSigned 24 a)).natAbs ≤ 16 then s
    else raisePerCycle 0x0606 0 0x67 0 0 (flag PAIR_STATUS_BM_MISMATCH (count PAIR_COUNT1_BM_MISMATCH 1 s))

/-- `BENCHMARK_EDGE` (R312). -/
def execBenchmarkEdge (dt : Nat) (s : State) : Host.Outcome State Fault Refusal := event dt benchmarkEdge s

/-- The chain has passed 2^22 links beyond benchmark with no pulse in that cycle; after two in a row the DUTY or SOLO of another pair
claims again (R312, R313). (log entry 70, DEDUCED) -/
def pulseMissing (s : State) : State :=
  let n := bmCycle s (chainNow s / unit)
  if !bmChecks s || s.tie.bmSeen == some n || s.tie.bmMissed == some n then s
  else
    let m := s.tie.missing + 1
    let s := onTie (fun t => { t with bmMissed := some n, missing := m }) s
    if m = 2 ∧ driving s then
      raise 0x060A 0x67 0 0 (onTie (fun t => { t with missing := 0, listen := some s.cyc }) s)
    else s

/-- `BENCHMARK_PULSE_MISSING` (R312). -/
def execBenchmarkPulseMissing (dt : Nat) (s : State) : Host.Outcome State Fault Refusal := event dt pulseMissing s

/-- The listening time of 2 ms × (slot + 1) has passed without a claim: the module claims the role for 20 µs + 10 µs × slot (R313). -/
def listenEnd (s : State) : State :=
  let slot := rd s PAIR_STATUS_SLOT
  match s.tie.listen with
  | some t =>
    if driving s && isSet s PAIR_CFG_BM_ENABLE && decide (t + 800000 * (slot + 1) ≤ s.cyc) then
      let s := { s with out := .benchmarkLow s.cyc (s.cyc + 8000 + 4000 * slot) :: s.out }
      wrB PAIR_STATUS_BM_HOLDER true
        (onTie (fun x => { x with listen := none, missing := 0, bmLow := some (s.cyc + 8000 + 4000 * slot) }) s)
    else s
  | none => s

/-- `BENCHMARK_LISTEN_END` (R313). -/
def execBenchmarkListenEnd (dt : Nat) (s : State) : Host.Outcome State Fault Refusal := event dt listenEnd s

/-- A claim of the module in slot `k` is heard: a module that listens does not claim, and one of a higher slot number gives up the
role (R313). (log entry 70, DEDUCED) -/
def claimHeard (k : Nat) (s : State) : State :=
  if !isSet s PAIR_CFG_BM_ENABLE then s
  else
    let s := onTie (fun t => { t with listen := none }) s
    if k < rd s PAIR_STATUS_SLOT then wrB PAIR_STATUS_BM_HOLDER false s else s

/-- `BENCHMARK_CLAIM`: a claim whose length is that of slot `k` (R313). -/
def execBenchmarkClaim (dt : Nat) (k : Fin 16) (s : State) : Host.Outcome State Fault Refusal := event dt (claimHeard k) s

/-- `BENCHMARK_LINE_RELEASE`: the pulse or the claim ends (R311, R313). -/
def execBenchmarkLineRelease (dt : Nat) (s : State) : Host.Outcome State Fault Refusal :=
  event dt (fun s => match s.tie.bmLow with
    | some t => if t ≤ s.cyc then onTie (fun x => { x with bmLow := none }) s else s
    | none => s) s

/-! ### Handover on command (R310) -/

/-- The module resigns for the handover that waits, and answers the cycle of the resign. -/
def handOver (h : Handover) (s : State) : State :=
  let s := resign 2 false (onTie (fun t => { t with handover := none }) s)
  respond 0x0182 h.cmd 0 0 [wd s.cyc] s

/-- An AT_ONCE handover resigns in the pace after its admission. (log entry 67, DEDUCED) -/
def handoverPace (s : State) : State :=
  match s.tie.handover with
  | some h => if h.quiet ∨ role s ≠ 1 then s else handOver h s
  | none => s

/-- No solenoid channel is energised, and none has a start due within the next four paces. (log entry 67, DEDUCED) -/
def quietNow (s : State) : Bool :=
  (List.range 36).all (fun c => !energised s c) &&
    !(s.seq.descs.any (fun p => decide (p.2.output < 36) && p.2.stage == .armed && !p.2.frozen s && decide (p.2.ts ≤ s.cyc + recent))) &&
    !(s.pulse.pairs.any (fun p => p.2.stakes.any (fun x =>
      decide (x.2.target < 36) && (x.2.action == 1 || x.2.action == 2) && decide (x.2.cycle ≤ s.cyc + recent))))

/-- `QUIET_HANDOVER_RESIGN`: a QUIET handover resigns in the first quiet pace (R310). -/
def execQuietHandoverResign (dt : Nat) (s : State) : Host.Outcome State Fault Refusal :=
  event dt (fun s => match s.tie.handover with
    | some h => if h.quiet && role s == 1 && quietNow s then handOver h s else s
    | none => s) s

/-- A QUIET handover has waited one engine cycle, or 100 ms while not PHASED. -/
def handoverLate (s : State) (h : Handover) : Bool :=
  if phased s then decide ((turn * unit : Int) ≤ ((chainNow s - h.from_).natAbs : Int)) else decide (h.since + 40000000 ≤ s.cyc)

/-- `HANDOVER_TIMEOUT` (R310). -/
def execHandoverTimeout (dt : Nat) (s : State) : Host.Outcome State Fault Refusal :=
  event dt (fun s => match s.tie.handover with
    | some h =>
      if h.quiet && handoverLate s h then refuse 0x0182 h.cmd 0x0183 (onTie (fun t => { t with handover := none }) s) else s
    | none => s) s

/-- `PAIR_HANDOVER (0x0182)` (R310). -/
def pairHandover (m : Msg) (s : State) : State :=
  match reservedBad m [1] with
  | some i => respond 0x0182 m 0x0B i [] s
  | none =>
    if role s ≠ 1 then refuse 0x0182 m 0x0181 s
    else if s.tie.frame = [] ∨ bits (partnerWord s 0) 18 18 = 0 ∨ bits (partnerWord s 0) 23 22 ≠ syncState s then
      refuse 0x0182 m 0x0182 s
    else if s.tie.handover.isSome then refuse 0x0182 m 4 s
    else onTie (fun t => { t with handover := some ⟨m, bits (word m 0) 0 0 == 1, s.cyc, chainNow s⟩ }) s

/-- `PAIR_HANDOVER`: moves DUTY to the partner, at once or quietly. -/
def execPairHandover (m : Msg) (s : State) : Host.Outcome State Fault Refusal := command 0x0182 m (pairHandover m) s

/-! ### Configuration and status (R314, R522) -/

/-- PF0 writes `x` to `PAIR_CFG`: discarded while the engine may turn (R314). (log entry 65, DEDUCED) -/
def pairCfgWrite (x : Word) (s : State) : State :=
  if rotating s then flag PAIR_STATUS_CFG_REJ { s with sw := PAIR_CFG :: s.sw } else writePairCfg x s

/-- `PAIR_CFG_WRITE` (R314). -/
def execPairCfgWrite (dt : Nat) (x : Word) (s : State) : Host.Outcome State Fault Refusal := event dt (writes 0 PAIR_CFG (pairCfgWrite x)) s

/-- `PAIR_CONFIG (0x0180)`: a word with a reserved bit is out of range; `TIE_VER_MAX` 0 and a `CHAIN_TOL` below 4 are stored as 1 and 4
(Table 10-10, command reference R512). (log entry 65, DEDUCED) -/
def pairConfig (m : Msg) (s : State) : State :=
  let x := word m 0
  if rotating s then refuse 0x0180 m 5 s
  else if x &&& 0x1C00FFFF ≠ 0 then respond 0x0180 m 0x0180 0 [] s
  else ok 0x0180 m (commits [PAIR_CFG] (writePairCfg x s))

/-- `PAIR_CONFIG`: writes `PAIR_CFG` through firmware. -/
def execPairConfig (m : Msg) (s : State) : Host.Outcome State Fault Refusal := command 0x0180 m (pairConfig m) s

/-- `PAIR_STATUS (0x0181)` (Table 19-8). -/
def pairStatus (m : Msg) (s : State) : State :=
  respond 0x0181 m 0 0
    ([PAIR_STATUS, PAIR_COUNT0, PAIR_COUNT1, PAIR_DIFF, PAIR_TAKEOVER].map (fun o => wordNow s (globalFields o)) ++
      (List.range 8).map (partnerWord s)) s

/-- `PAIR_STATUS`: the pairing registers and the partner's last valid frame. -/
def execPairStatus (m : Msg) (s : State) : Host.Outcome State Fault Refusal := command 0x0181 m (pairStatus m) s

/-! ### Failure of a boost controller (protection R230, R233, Table 10-5) -/

/-- Controller `b` is declared FAILED with `cause` of Table 7-2; a DUTY resigns for it where `RESIGN_BOOST` and the partner's frame
allow (Table 10-5). -/
def boostFailed (b cause : Nat) (s : State) : State :=
  let s := wr (BST_STATUS_FAIL_CAUSE b) cause (boostEnter b 4 s)
  let s := onBoost b (fun y => { y with bleed := decide (cause = 2) }) s
  let goes := isSet s PAIR_CFG_RESIGN_BOOST && partnerBoosts s
  let s := raise 0x0521 (0x58 + b) (wd cause) (actLatch + if goes then resignAct s else 0) s
  let s := if cause = 2 then raise 0x0522 (0x58 + b) (wd cause) (actLatch + actReduced) s else s
  if goes then resign 2 true s else s

/-- `BOOST_PRECHARGE_TIMEOUT`: controller `b` is not ready 250 ms after entering PRECHARGE (R230). -/
def execBoostPrechargeTimeout (dt : Nat) (b : Fin 2) (s : State) : Host.Outcome State Fault Refusal :=
  event dt (fun s =>
    if boostState s b = 1 ∧ (boostAt s b).since + 100000000 ≤ s.cyc then boostFailed b 0 s else s) s

/-- The condition of Table 7-2 for `cause` holds: UNDERVOLTAGE for 20 ms after PRECHARGE, OVERVOLTAGE for 10 µs unless VBAT holds the
bank up, OVERCURRENT in 16 consecutive switching cycles. -/
def failCondition (s : State) (b cause : Nat) : Bool :=
  let x := boostAt s b
  match cause with
  | 1 => (boostState s b == 2 || boostState s b == 3) && lasted s 8000000 x.lowSince
  | 2 => boostState s b != 4 && lasted s 4000 x.highSince
  | 3 => boostRuns s b && decide (16 ≤ x.overs)
  | _ => false

/-- `BOOST_FAIL`: the cause `cause` of Table 7-2 (1 UNDERVOLTAGE, 2 OVERVOLTAGE, 3 OVERCURRENT) is looked for on controller `b`, after the
stretches that end now (R233). -/
def execBoostFail (dt : Nat) (b : Fin 2) (cause : Fin 4) (boost : List BoostRun) (s : State) : Host.Outcome State Fault Refusal :=
  event dt (fun s =>
    let s := boostMeasure boost s
    if failCondition s b cause then boostFailed b cause s else s) s

end Sys2Proof.Machine
end

