-- ==== Sys2Proof/Machine/FaultClear.lean ====
section
/-! DEFINITION. `FAULT_CLEAR` (faults R483, R484). -/
namespace Sys2Proof.Machine

/-- A latch was set in this cycle: it stands over the clear (scope R13). -/
def setNow (s : State) (f : Fld) : Bool := (Tbl.find s.hw f.key).isSome

/-- The lane latch of output `o` is cleared, unless its wires still read one level: the status, and the state after it. (log entry 87, DEDUCED) -/
def clearLane (stuck o : Nat) (s : State) : Nat × State :=
  if !(laneAt s o).fault then (0, s)
  else if bitOf stuck o then (0x0320, s)
  else
    let s := onLane o (fun l => { l with fault := false }) s
    (0, if o < 36 then s else auxEnergise (o - 36) s)

/-- What the scopes `sc` clear of channel `c`; a latch set in this cycle stands. -/
def clearChannel (sc stuck c : Nat) (s : State) : Nat × State :=
  let ms := members s c
  let held := bitOf sc 0 && ms.any (fun m => setNow s (PRT_STAT_LATCH m))
  let s := if bitOf sc 0 && !held then ms.foldl (fun s m => clearLatch m s) s else s
  let s := if bitOf sc 1 then ms.foldl (fun s m => if isSet s (DRV_CH_STAT_SENSE_LOST m) then clearSense m s else s) s else s
  let (st, s) := if bitOf sc 2 then
      ms.foldl (fun (a : Nat × State) m =>
        let (st, s) := clearLane stuck m a.2
        (max a.1 st, s)) (0, s)
    else (0, s)
  (if held then 0x0320 else st, s)

/-- What the scopes `sc` clear of auxiliary output `n`. -/
def clearAuxItem (sc stuck n : Nat) (s : State) : Nat × State :=
  let held := bitOf sc 0 && setNow s (AUX_STAT_LATCH n)
  let s := if bitOf sc 0 && !held then clearAux n s else s
  let (st, s) := if bitOf sc 2 then clearLane stuck (36 + n) s else (0, s)
  (if held then 0x0320 else st, s)

/-- The item of output `o`: refused to a client that does not own it and for the odd member of a pair. -/
def clearOutput (m : Msg) (sc stuck o : Nat) (s : State) : Nat × State :=
  if oddMember s o then (8, s)
  else if !isSafety s m.client && !owns s m.client o then (3, s)
  else if o < 36 then clearChannel sc stuck o s
  else clearAuxItem sc stuck (o - 36) s

/-- Scope 3: eligibility returns, unless a pair is halted or a tracker fault stands. -/
def clearEligible (m : Msg) (s : State) : Nat × State :=
  if !isSafety s m.client then (3, s)
  else if s.angle.trackerFault || s.seq.pairs.any (fun p => p.2.halted) then (0x0320, s)
  else (0, pairRefresh (onTie (fun t => { t with resigned := false }) s))

/-- Scope 4: the pair of each monitor that now guards becomes the main pair. -/
def clearMonitors (m : Msg) (s : State) : Nat × State :=
  if !isSafety s m.client then (3, s)
  else (0, (List.range 16).foldl (fun s i => wrB (MON_STAT_EXCHANGED i) false (wrB (MON_STAT_TEST_FAIL i) false s)) s)

/-- The first refusal met, its status and its item, beside the state. (log entry 87, DEDUCED) -/
def firstRefusal (item : Nat) (a : Option (Nat × Nat) × State) (f : State → Nat × State) : Option (Nat × Nat) × State :=
  let (st, s) := f a.2
  (if st = 0 then a.1 else a.1.or (some (st, item)), s)

/-- Output `o` is named by C0 or C1. -/
def clearNames (m : Msg) (o : Nat) : Bool :=
  if o < 32 then bitOf (word m 0).toNat o
  else if o < 36 then bitOf (word m 1).toNat (o - 32)
  else bitOf (word m 1).toNat (16 + (o - 36))

/-- Every named item and scope is cleared or refused. -/
def clearAll (stuck : Nat) (m : Msg) (s : State) : Option (Nat × Nat) × State :=
  let sc := (word m 2).toNat
  let a := (List.range 52).foldl (fun a o =>
    if clearNames m o then firstRefusal o a (clearOutput m sc stuck o) else a) (none, s)
  let a := if bitOf sc 3 then firstRefusal 52 a (clearEligible m) else a
  if bitOf sc 4 then firstRefusal 53 a (clearMonitors m) else a

/-- The CLEAR record: the scopes asked for and the client (R484). -/
def clearRecord (m : Msg) (s : State) : State :=
  bookRecord 7 0 0 0 0 s.cyc (wd (bits (word m 2) 7 0 * 2 ^ 24 + m.client)) s

/-- `FAULT_CLEAR (0x0320)`: the clears, one CLEAR record, and the first refusal met (R484). `stuck` names the outputs whose lane wires
still read one level. (log entry 87, DEDUCED) -/
def faultClear (stuck : Nat) (m : Msg) (s : State) : State :=
  let sc := (word m 2).toNat
  if (bitOf sc 3 || bitOf sc 4) && decide (versionOf s m.client < 0x30) then refuse 0x0320 m 0x1A s
  else match reservedBad m [0xFFFFFFFF, 0xFFFF000F, 0x0000001F] with
    | some i => respond 0x0320 m (if i = 2 then 0x0B else 7) i [] (clearRecord m s)
    | none =>
      let (r, s) := clearAll stuck m s
      let s := clearRecord m s
      match r with
      | some (st, i) => respond 0x0320 m st i [] s
      | none => ok 0x0320 m s

/-- `FAULT_CLEAR`: clears standing latch, sense, lane, eligibility and monitor conditions. -/
def execFaultClear (stuck : BitVec 52) (m : Msg) (s : State) : Host.Outcome State Fault Refusal :=
  command 0x0320 m (faultClear stuck.toNat m) s

end Sys2Proof.Machine
end

