-- ==== Sys2Proof/Machine/Intc.lean ====
section
/-! DEFINITION. The interrupt controller of the management cores and MSI-X release (DMA R418 to R425). -/
namespace Sys2Proof.Machine

/-- The spurious number: no source (R418). -/
def spurious : Nat := 511

/-- The better of two offers: the higher priority, the lower number on a tie. -/
def betterSource (s : State) (best : Option Nat) (i : Nat) : Option Nat :=
  match best with
  | none => some i
  | some j => if rd s (INTC_SRC_PRIO j) < rd s (INTC_SRC_PRIO i) then some i else some j

/-- The source the controller offers core `k` now: the best one whose chosen core is `k` (R420). -/
def offer (s : State) (k : Nat) : Option Nat :=
  s.intc.src.foldl (fun b x => if coreFor s x.1 x.2 == some k then betterSource s b x.1 else b) none

/-- Core `k` claims source `i`: active, no longer pending, disabled when `ONESHOT` (R421). -/
def claim (k i : Nat) (s : State) : State :=
  let x := intSrc s i
  let one := isSet s (INTC_SRC_ONESHOT i)
  let s := setSrc i { x with act := some k, pend := false, en := x.en && !one } s
  let s := { s with intc := { s.intc with accepted := Tbl.insert s.intc.accepted k (s.intc.tick + 1), tick := s.intc.tick + 1 } }
  let s := if one then { s with hw := Tbl.insert s.hw (INTC_EN_EN (i / 32)).key 1 } else s
  closeGroup (rd s (INTC_SRC_GROUP i)) s

/-- `INTC_REQUEST`: the request of source `i` rises (or pulses) or falls (R419). A deliverable interrupt ends DOZE. (log entry 79, DESIGN CHOICE) -/
def execIntcRequest (dt : Nat) (i : Fin 511) (up : Bool) (s : State) : Host.Outcome State Fault Refusal :=
  event dt (fun s =>
    if 389 ≤ (i : Nat) then s
    else if up then intRaise i s
    else intFall i s) s

/-- `INTC_ACCEPT`: core `k` accepts the source offered to it, in normal service (R421). -/
def execIntcAccept (dt : Nat) (k : Fin 4) (s : State) : Host.Outcome State Fault Refusal :=
  event dt (fun s =>
    if isSet s INTC_CTRL_RAW then s
    else match offer s k with
      | none => s
      | some i => claim k i s) s

/-- `INTC_CLAIM_READ`: in raw mode the read returns and claims the source R420 would offer core `k`, or 511 (R422). -/
def execIntcClaimRead (dt : Nat) (k : Fin 4) (s : State) : Host.Outcome State Fault Refusal :=
  event dt (fun s =>
    let o := if isSet s INTC_CTRL_RAW then offer s k else none
    let s := { s with out := .readData 0 (INTC_CLAIM k) (BitVec.ofNat 32 (o.getD spurious)) :: s.out }
    match o with
    | none => s
    | some i => claim k i s) s

/-- `INTC_COMPLETE_WRITE`: core `k` completes source `i`; a standing level request is pending again, which counts as an
event of its group; a completion of an inactive source is ignored and counted, one of 511 not even counted (R423, R424). (log entry 79, DESIGN CHOICE) -/
def execIntcCompleteWrite (dt : Nat) (k : Fin 4) (i : BitVec 9) (s : State) : Host.Outcome State Fault Refusal :=
  event dt (fun s =>
    let n := i.toNat
    let x := intSrc s n
    if n = spurious then s
    else if x.act == some (k : Nat) then
      let again := rd s (INTC_SRC_TYPE n) == 0 && x.req && x.en
      let s := setSrc n { x with act := none, pend := x.pend || again } s
      if again then wakeDoze (groupEvent n s) else s
    else count INTC_IGNORED_COUNT 1 s) s

/-- Hold bits set and cleared by one store, from the next cycle on; all the writes of a cycle act, clear last (Masking, Table 14-8). -/
def holdWrite (set clr : Nat) (s : State) : State :=
  let x := if s.intc.holdAt = s.cyc then s.intc
    else { s.intc with holdAt := s.cyc, heldBefore := rd s INTC_HOLD_HOLD, holdSet := 0, holdClr := 0 }
  let x := { x with holdSet := x.holdSet ||| set, holdClr := x.holdClr ||| clr }
  wr INTC_HOLD_HOLD ((x.heldBefore ||| x.holdSet) &&& (31 ^^^ x.holdClr)) { s with intc := x }

/-- `INTC_HOLD_SET_WRITE`: hold bits set by one store (Masking). -/
def execIntcHoldSetWrite (dt : Nat) (x : BitVec 5) (s : State) : Host.Outcome State Fault Refusal :=
  event dt (holdWrite x.toNat 0) s

/-- `INTC_HOLD_CLR_WRITE`: hold bits cleared by one store. -/
def execIntcHoldClrWrite (dt : Nat) (x : BitVec 5) (s : State) : Host.Outcome State Fault Refusal :=
  event dt (holdWrite 0 x.toNat) s

/-- The enable bit of source `i` becomes `b`: a standing level request of an inactive source becomes pending with it. (log entry 79, DESIGN CHOICE) -/
def enableSource (i : Nat) (b : Bool) (s : State) : State :=
  let x := intSrc s i
  if 511 ≤ i then s
  else if b && !x.en && x.req && x.act.isNone && rd s (INTC_SRC_TYPE i) == 0 then
    groupEvent i (setSrc i { x with en := true, pend := true } s)
  else setSrc i { x with en := b } s

/-- `INTC_EN_SET_WRITE`: one source's enable bit set (Masking). -/
def execIntcEnSetWrite (dt : Nat) (i : BitVec 9) (s : State) : Host.Outcome State Fault Refusal :=
  event dt (fun s => wakeDoze (enableSource i.toNat true s)) s

/-- `INTC_EN_CLR_WRITE`: one source's enable bit cleared. -/
def execIntcEnClrWrite (dt : Nat) (i : BitVec 9) (s : State) : Host.Outcome State Fault Refusal :=
  event dt (enableSource i.toNat false) s

/-- `INTC_GROUP_OPEN`: the timer of group `g` has reached `TIME` (R424). -/
def execIntcGroupOpen (dt : Nat) (g : Fin 32) (s : State) : Host.Outcome State Fault Refusal :=
  event dt (fun s =>
    let x : Coal := Tbl.get {} s.intc.grp g
    match x.start with
    | none => s
    | some t =>
      if x.isOpen || decide (s.cyc < t + rd s (INTC_GRP_TIME g) * 400) then s
      else wakeDoze { s with intc := { s.intc with grp := Tbl.set {} s.intc.grp g { x with isOpen := true } } }) s

/-- `MSIX_COAL_RELEASE`: the timer of vector `v` of function `c` has reached `TIME`, and one message is sent (R425). -/
def execMsixCoalRelease (dt : Nat) (c : Fin 256) (v : Fin 8) (s : State) : Host.Outcome State Fault Refusal :=
  event dt (fun s =>
    let k := 8 * (c : Nat) + v
    match (Tbl.get {} s.host.msix k : Coal).start with
    | none => s
    | some t =>
      if s.cyc < t + rd s (CLI_MSIX_COAL_TIME c v) * 400 then s
      else msixSend c v { s with host := { s.host with msix := Tbl.set {} s.host.msix k {} } }) s

/-- Vector `v` of function `c` is unmasked; a pending message goes out without a new wait (R425). -/
def msixUnmask (c v : Nat) (s : State) : State := msixRelease c v (wrB (CLI_MSIX_CTRL_MASK c v) false s)

/-- `MSIX_UNMASK`: vector `v` of function `c` is unmasked (R425). -/
def execMsixUnmask (dt : Nat) (c : Fin 256) (v : Fin 8) (s : State) : Host.Outcome State Fault Refusal :=
  event dt (msixUnmask c v) s

end Sys2Proof.Machine
end

