-- ==== Sys2Proof/Machine/Boot.lean ====
section
/-! DEFINITION. Reset and release, secure boot, firmware load, swap and commit, the start-up record (start-up R428 to R444)
and live insertion (module R501 to R506). -/
namespace Sys2Proof.Machine

/-- Boot state changed by `f`. -/
def onBoot (f : Boot → Boot) (s : State) : State := { s with boot := f s.boot }

/-- The image slot `i` (0 = A, 1 = B). -/
def imageOf (s : State) (i : Nat) : Image := if i = 0 then s.boot.slotA else s.boot.slotB

/-- Image slot `i` changed by `f`. -/
def onImage (i : Nat) (f : Image → Image) (s : State) : State :=
  onBoot (fun b => if i = 0 then { b with slotA := f b.slotA } else { b with slotB := f b.slotB }) s

/-- The tests of R432: key, signature and hash, and a rollback index at or above the counter. -/
def imagePasses (s : State) (i : Nat) : Bool :=
  let x := imageOf s i
  x.valid && x.accepted && decide (s.boot.counter ≤ x.header.index)

/-- The boot fields that report images and the counter (Table 15-8). -/
def bootFields (s : State) : State :=
  let s := wrB GLB_BOOT_A_VALID (imagePasses s 0) (wrB GLB_BOOT_B_VALID (imagePasses s 1) s)
  let s := wr GLB_BOOT_PREF_IMAGE s.boot.preferred (wr GLB_ROLLBACK_COUNTER s.boot.counter s)
  wr GLB_ROLLBACK_A_INDEX s.boot.slotA.header.index (wr GLB_ROLLBACK_B_INDEX s.boot.slotB.header.index s)

/-- `GLB_FW_VERSION` shows image `i` (scope R3). -/
def showVersion (i : Nat) (s : State) : State :=
  let h := (imageOf s i).header
  wr GLB_FW_VERSION_MAJOR h.major (wr GLB_FW_VERSION_MINOR h.minor
    (wr GLB_FW_VERSION_PATCH h.patch (wr GLB_FW_VERSION_IMAGE i s)))

/-- The register fields of the always-on island, which every reset leaves (R430, power R472). -/
def islandFields : List Fld :=
  [PWR_ISL_LAST_WAKE, PWR_ISL_PMBUS_TO, PWR_ISL_EDGE_LOST, PWR_ISL_REWAKES, PWR_WAKE_CFG_I2C_ADDR, PWR_WAKE_CFG_EN,
   RTC_SUB_SUB, RTC_STATUS_SRC, RTC_STATUS_STAGED, RTC_STATUS_WRITE_ERR, RTC_STATUS_TIME_LOST, GLB_BOOT_FALLBACK]

/-- One past the highest sequence number that a valid slot of the Field Book holds. -/
def nextSequence (b : FieldBook) : Nat :=
  max ((b.copyA.newest.map FbSlot.seq).getD 0) ((b.copyB.newest.map FbSlot.seq).getD 0) + 1

/-- A full reset with its cause: every register at its reset value but the island's and the boot record's; flash, the RTC and
the retention memory stay; the dies are held (R428 to R430). -/
def fullReset (cause : Nat) (s : State) : State :=
  let r : State :=
    { State.reset with
      pending := s.pending, out := s.out, fresh := s.fresh
      rtc := { s.rtc with cmds := [] }
      book := { copyA := s.book.copyA, copyB := s.book.copyB, nextSeq := nextSequence s.book }
      angle :=
        { flashMaps := s.angle.flashMaps, flashTable := s.angle.flashTable, mapWrites := s.angle.mapWrites
          keptWheel := s.angle.keptWheel, keptStations := s.angle.keptStations }
      power := { saved := s.power.saved, pmbusPend := s.power.pmbusPend }
      boot :=
        { held := true, slotA := s.boot.slotA, slotB := s.boot.slotB, preferred := s.boot.preferred
          counter := s.boot.counter, recA := s.boot.recA, recB := s.boot.recB } }
  let r := islandFields.foldl (fun r f => wr f (rd s f) r) r
  wr GLB_BOOT_RESET_CAUSE cause (bootFields r)

/-- A start-up record copy is valid: its pairs pass R7 and its CRC-32 matches (R434). -/
def StartRec.valid (r : StartRec) : Bool :=
  r.words.length == 4 && r.compl == r.words.map (fun w => ~~~w) && r.crcOk

/-- The valid copy with the higher sequence number. -/
def startRecord (b : Boot) : Option StartRec :=
  let a := b.recA.filter StartRec.valid
  let c := b.recB.filter StartRec.valid
  match a, c with
  | some x, some y => if x.seq < y.seq then some y else some x
  | some x, none => some x
  | none, y => y

/-- The boot ROM applies the start-up record, or leaves both controllers OFF (R434). -/
def applyStartRecord (s : State) : State :=
  match startRecord s.boot with
  | some r =>
    let w := fun i => r.words.getD i 0
    let s := bootBoost 0 (w 0) (w 1) s
    let s := bootBoost 1 (w 2) (w 3) s
    wrB GLB_BOOT_STARTREC_OK true s
  | none =>
    if s.boot.recA.isSome || s.boot.recB.isSome then raise 0x0832 0xD0 0 0 s else s

/-- `RESET_RELEASE`: the conditions of R428 and R501 have held; both dies leave reset with the cycle counter at 0, the slot
straps are sampled, and the boot ROM reads the start-up record (R428, R434, module R492, R501). -/
def execResetRelease (slot : Fin 16) (s : State) : Host.Outcome State Fault Refusal :=
  .next (if s.boot.held then
    let s := { s with cyc := 0, was := [], hw := [], sw := [] }
    let s := onBoot (fun b => { b with held := false, since := 0 }) s
    let s := wrB MOD_STATUS_SEATED true (wr PAIR_STATUS_SLOT slot s)
    applyStartRecord (bootFields s)
  else s)

/-- `SUPPLY_FAULT`: a supply that R428 requires has left its window: safe-off, switches open, reset (R429). `battery` tells
that VBAT or VKEEP itself fell, so that the next start is POWER_ON (Table 15-1); of the supplies only that one counts from the opening
of the switches on (power R456, R458). -/
def execSupplyFault (dt : Nat) (battery : Bool) (s : State) : Host.Outcome State Fault Refusal :=
  .next (if awake s then fullReset (if battery then 1 else 2) (passTime dt s)
    else match s.power.phase with
      | .window _ => fullReset (if battery then 1 else 2) s
      | _ => if battery && !s.boot.held then fullReset 1 s else s)

/-- The image the boot ROM starts: the preferred one, or else the other (R432). -/
def bootImage (s : State) : Option Nat :=
  let p := s.boot.preferred
  if imagePasses s p then some p else if imagePasses s (1 - p) then some (1 - p) else none

/-- Neither image is accepted: the boot ROM writes `F_0831` into the Field Book, and nothing else comes (R433). -/
def noImage (s : State) : State :=
  let r : FbRec :=
    { seq := s.book.nextSeq % 2 ^ 48, code := 0x0831, kind := 1, cls := 5, source := 0xD0, action := actHalt
      timeLost := isSet s RTC_STATUS_TIME_LOST, cyc := s.cyc, cal := s.rtc.cal, subsec := 0, detail := 0 }
  { s with book :=
    { s.book with nextSeq := s.book.nextSeq + 1, copyA := s.book.copyA.program r true, copyB := s.book.copyB.program r true } }

/-- What firmware tells at each firmware ready: fallback, lost retention, lost time, PMBus (R433, power R455, R457, R466). -/
def readyFaults (fallback : Bool) (s : State) : State :=
  let s := if fallback then raise 0x0830 0xD0 0 actReduced (flag GLB_BOOT_FALLBACK s) else s
  let s := if s.power.lostPend then raise 0x0841 0xD2 0 0 { s with power := { s.power with lostPend := false } } else s
  let s := if s.power.pmbusPend ≠ 0 then
      let n := s.power.pmbusPend
      raise 0x0840 0xD2 (BitVec.ofNat 32 n) 0
        (wrB PWR_ISL_PMBUS_TO false { s with power := { s.power with pmbusPend := 0 } })
    else s
  if isSet s RTC_STATUS_TIME_LOST then raise 0x0842 0xD2 0 0 s else s

/-- Image `i` runs from now on: its version shows, and the time since `t` (R433, R441). -/
def runImage (i t : Nat) (s : State) : State :=
  wr GLB_BOOT_BOOT_MS (min 65535 ((s.cyc - t) / 400000)) (showVersion i (onBoot (fun b => { b with running := i }) s))

/-- Firmware is ready; but for the exit of STANDBY, which is no start, the BOOT record is written (R433, R436). -/
def bootReady (s : State) : State :=
  let s := wrB GLB_BOOT_FW_READY true s
  if s.boot.exit then s else bookRecord 2 0 0 0 0 s.cyc (BitVec.ofNat 32 (rd s GLB_BOOT_RESET_CAUSE)) s

/-- `FIRMWARE_READY`: the accepted image declares itself ready (R433, R436); waiting requests may be read from now on. -/
def execFirmwareReady (dt : Nat) (s : State) : Host.Outcome State Fault Refusal :=
  event dt (fun s =>
    if isSet s GLB_BOOT_FW_READY then s
    else match bootImage s with
      | none => noImage s
      | some i => tieStart (readyFaults (i != s.boot.preferred) (bootReady (runImage i s.boot.since s)))) s

/-! ### Firmware commands (R440 to R444) -/

/-- A flash program is queued. -/
def addJob (j : FlashJob) (s : State) : State := onBoot (fun b => { b with jobs := b.jobs ++ [j] }) s

/-- The image of slot `i` is no longer valid (R440). -/
def invalidate (i : Nat) (s : State) : State := bootFields (onImage i (fun x => { x with valid := false }) s)

/-- `FW_LOAD (0x0500)`: a chunk for the slot that is not running; its words are the buffer's (R440, R524). -/
def execFwLoad (m : Msg) (s : State) : Host.Outcome State Fault Refusal :=
  command 0x0500 m (fun s =>
    let off := (word m 0).toNat
    let len := (word m 1).toNat
    let slot := bits (word m 2) 1 1
    let data := m.words.drop 4
    if s.boot.swap.isSome then refuse 0x0500 m 0x04 s
    else if slot = s.boot.running then refuse 0x0500 m 0x0500 s
    else if len < 8 ∨ 65520 < len ∨ len % 8 ≠ 0 ∨ off % 4096 ≠ 0 ∨ 16777216 < off + len ∨ 4 ≤ (word m 2).toNat
        ∨ 4 * data.length ≠ len then refuse 0x0500 m 0x0501 s
    else if crc32 (bytesOf data) ≠ word m 3 then refuse 0x0500 m 0x0502 s
    else addJob (.chunk m slot (bitOf (word m 2).toNat 0)) (invalidate slot s)) s

/-- A state change is in progress. (log entry 82, DEDUCED) -/
def pwrBusy (s : State) : Bool := isSet s PWR_STATUS_CHANGING

/-- `FW_SWAP (0x0501)`: refused, or the swap begins (R441). -/
def execFwSwap (m : Msg) (s : State) : Host.Outcome State Fault Refusal :=
  command 0x0501 m (fun s =>
    let i := 1 - s.boot.running
    let x := imageOf s i
    if !(x.valid && x.accepted) then refuse 0x0501 m 0x0502 s
    else if x.header.index < s.boot.counter then refuse 0x0501 m 0x0503 s
    else if isSet s ANG_STATUS_CL_LEARNING || s.boot.swap.isSome || pwrBusy s then refuse 0x0501 m 0x04 s
    else wrB GLB_BOOT_SWAP_PEND true (onBoot (fun b => { b with swap := some ⟨s.cyc, false, m⟩ }) s)) s

/-- The requests of client `c` that firmware has not completed, but the swap itself (Table 15-5). -/
def unfinished (s : State) (swapCmd : Msg) (c : Nat) : List Request :=
  (client s c).requests.filter (fun r => r.dispatched && isFirmware r.opcode &&
    !(r.opcode == 0x0501 && r.msg == swapCmd))

/-- `SWAP_QUIESCE_END`: commands still incomplete are answered `CORE_RESTART`, and the cores are reset (Table 15-5). -/
def execSwapQuiesceEnd (dt : Nat) (s : State) : Host.Outcome State Fault Refusal :=
  event dt (fun s =>
    match s.boot.swap with
    | none => s
    | some w =>
      if w.coresReset then s
      else
        let cut := s.host.clients.flatMap (fun x => unfinished s w.cmd x.1)
        let s := cut.foldl (fun s r => refuse r.opcode r.msg 0x1C (cutShort r.msg s)) s
        onBoot (fun b => { b with swap := some { w with coresReset := true }, jobs := [] }) s) s

/-- The swap is over: ring reading resumes for every client. -/
def swapOver (s : State) : State :=
  let s := wrB GLB_BOOT_SWAP_PEND false (onBoot (fun b => { b with swap := none }) s)
  dispatchAll s

/-- `SWAP_IMAGE_READY`: the new image runs; the version changes in one cycle, and it answers the swap (R441). -/
def execSwapImageReady (dt : Nat) (s : State) : Host.Outcome State Fault Refusal :=
  event dt (fun s =>
    match s.boot.swap with
    | none => s
    | some w =>
      if !w.coresReset then s
      else ok 0x0501 w.cmd (readyFaults false (swapOver (runImage (1 - s.boot.running) w.start s)))) s

/-- `SWAP_TIMEOUT`: the new image failed or was not ready within 250 ms; the old one runs again, `F_0833` (R442). -/
def execSwapTimeout (dt : Nat) (s : State) : Host.Outcome State Fault Refusal :=
  event dt (fun s =>
    match s.boot.swap with
    | none => s
    | some w => refuse 0x0501 w.cmd 0x0504 (raise 0x0833 0xD0 0 actReduced (swapOver s))) s

/-- `FW_COMMIT (0x0502)`: refused when the running image is preferred; otherwise the boot record is written (R444). -/
def execFwCommit (m : Msg) (s : State) : Host.Outcome State Fault Refusal :=
  command 0x0502 m (fun s =>
    if s.boot.running = s.boot.preferred then refuse 0x0502 m 0x0505 s
    else addJob (.commit m s.boot.running (imageOf s s.boot.running).header.index) s) s

/-- The `FW_STATUS` word of a slot (Table 19-10). -/
def slotWord (s : State) (i : Nat) : Word :=
  let h := (imageOf s i).header
  BitVec.ofNat 32 (h.major * 2 ^ 24 + h.minor * 2 ^ 16 + h.patch * 2 ^ 8 + (if imagePasses s i then 128 else 0) + h.index)

/-- Ready to crank (R438). -/
def crankReady (s : State) : Bool :=
  isSet s GLB_BOOT_FW_READY && role s != 3 &&
    (List.range 2).all (fun b => !isSet s (BST_CFG_ENABLE b) || boostReady s b) &&
    s.angle.wheel.isSome && !s.angle.stations.isEmpty

/-- `GLB_BOOT` as it reads, with `CRANK_READY`. -/
def bootWord (s : State) : Word :=
  wordNow s (globalFields GLB_BOOT) ||| if crankReady s then 0x40000000 else 0

/-- `FW_STATUS (0x0503)`. -/
def execFwStatus (m : Msg) (s : State) : Host.Outcome State Fault Refusal :=
  command 0x0503 m (fun s =>
    respond 0x0503 m 0 0 [bootWord s, wordNow s (globalFields GLB_ROLLBACK),
      wordNow s (globalFields GLB_FW_VERSION), slotWord s 0, slotWord s 1] s) s

/-- `STARTUP_PUT (0x0505)`: the four boost words, each within its range (R435). -/
def execStartupPut (m : Msg) (s : State) : Host.Outcome State Fault Refusal :=
  command 0x0505 m (fun s =>
    match (List.range 4).find? (fun i => !(if i % 2 = 0 then bstCfgOk (word m i) else bstCapOk (word m i))) with
    | some i => respond 0x0505 m 0x0167 i [] s
    | none => addJob (.startRec m m.words 2) s) s

/-- The start-up record that a write stores: one higher than the last (R435). -/
def nextStartRec (b : Boot) (w : List Word) : StartRec :=
  { seq := max ((b.recA.map StartRec.seq).getD 0) ((b.recB.map StartRec.seq).getD 0) + 1
    words := w, compl := w.map (fun x => ~~~x), crcOk := true }

/-- Words stored from word `a` on. -/
def putWords (a : Nat) (l : List Word) (t : Tbl Word) : Tbl Word :=
  (l.foldl (fun (p : Nat × Tbl Word) w => (p.1 + 1, Tbl.insert p.2 p.1 w)) (a, t)).2

/-- The image of slot `i` with header `h` passes the tests of R432. (log entry 80, DESIGN CHOICE) -/
def acceptImage (i : Nat) (h : ImageHeader) (s : State) : State :=
  bootFields (onImage i (fun x => { x with valid := true, accepted := true, header := h }) s)

/-- A chunk is in flash; the final one is tested under R432: `image` is the header when key, signature and hash pass (R440). -/
def chunkDone (m : Msg) (slot : Nat) (final : Bool) (image : Option ImageHeader) (s : State) : State :=
  let base := (word m 0).toNat / 4
  let s := onImage slot (fun x => { x with words := putWords base (m.words.drop 4) x.words }) s
  if !final then ok 0x0500 m s
  else match image with
    | none => refuse 0x0500 m 0x0502 s
    | some h =>
      if h.index < s.boot.counter then refuse 0x0500 m 0x0503 s
      else ok 0x0500 m (acceptImage slot h s)

/-- A flash job completes. (log entry 80, DESIGN CHOICE) -/
def jobDone (j : FlashJob) (image : Option ImageHeader) (s : State) : State :=
  match j with
  | .chunk m slot final => chunkDone m slot final image s
  | .commit m i index =>
    ok 0x0502 m (bootFields (onBoot (fun b => { b with preferred := i, counter := max b.counter index }) s))
  | .startRec m w left =>
    if left = 2 then
      onBoot (fun b => { b with recA := some (nextStartRec b w), jobs := .startRec m w 1 :: b.jobs }) s
    else
      ok 0x0505 m (onBoot (fun b =>
        { b with recB := some { nextStartRec b w with seq := (b.recA.map StartRec.seq).getD 1 } }) s)
  | .map m => ok 0x0142 m s

/-- `FLASH_WRITE_DONE`: the oldest flash program completes and the waiting command is answered (R435, R440, R444, angle R105).
`image` is the outcome of the tests of R432 on a final chunk. -/
def execFlashWriteDone (dt : Nat) (image : Option (BitVec 8 × BitVec 8 × BitVec 8 × BitVec 6)) (s : State) :
    Host.Outcome State Fault Refusal :=
  event dt (fun s =>
    match s.boot.jobs with
    | [] => s
    | j :: rest =>
      jobDone j (image.map (fun (a, b, c, d) => ⟨a.toNat, b.toNat, c.toNat, d.toNat⟩))
        (onBoot (fun b => { b with jobs := rest }) s)) s

/-! ### Live insertion (module R501 to R505) -/

/-- `SEATED_OPEN`: before release it restarts the count of R501; after it, only `MOD_STATUS.SEATED` shows it. -/
def execSeatedOpen (dt : Nat) (s : State) : Host.Outcome State Fault Refusal :=
  event dt (wrB MOD_STATUS_SEATED false) s

/-- `LEAVE_CLOSED`: LEAVE has read closed for 10 ms; training and role may begin, unless the module is leaving (R502, R505). -/
def execLeaveClosed (dt : Nat) (s : State) : Host.Outcome State Fault Refusal :=
  event dt (fun s =>
    let s := wrB MOD_STATUS_LEAVE true s
    if isSet s MOD_STATUS_LEAVING then s
    else tieStart (onBoot (fun b => { b with leaveSettled := true }) s)) s

/-- `LEAVE_OPEN`: LEAVE has read open for 2 µs; the module isolates, resigns, ends its events and stays so (R504, R505). -/
def execLeaveOpen (dt : Nat) (s : State) : Host.Outcome State Fault Refusal :=
  event dt (fun s =>
    let s := wrB MOD_STATUS_LEAVE false (onBoot (fun b => { b with leaveSettled := false }) s)
    if isSet s MOD_STATUS_LEAVING then s else leaveActions (wrB MOD_STATUS_LEAVING true s)) s

end Sys2Proof.Machine
end

