-- ==== Sys2Proof/Machine/Pulse.lean ====
section
/-! DEFINITION. The pulse program commands and the `PLS_CTRL_p.OWNER` write (pulse R158, R159, R178 to R183, command reference
Tables 19-5 and 19-6). -/
namespace Sys2Proof.Machine

/-! ### Images (Table 19-6) -/

/-- Byte `k` of a word. -/
def byteIn (w : Word) (k : Nat) : Nat := w.toNat / 2 ^ (8 * k) % 256

/-- What an image's four words say of a context. -/
def imageBind (l : List Word) : PBind :=
  let h := l.getD 0 0
  let t := l.getD 1 0
  let p := l.getD 2 0
  let x := l.getD 3 0
  { enable := bitOf h.toNat 31
    entry := h.toNat % 4096
    slots := (List.range 4).map (fun k => ⟨byteIn t k, byteIn p k % 64, bitOf (byteIn p k) 7⟩)
    lines := x.toNat % 65536
    late := if byteIn x 2 = 0 then 2 else byteIn x 2 }

/-- Fields that Table 19-6 marks 0 are 0. (log entry 54, DEDUCED) -/
def imageFieldsOk (l : List Word) : Bool :=
  l.getD 0 0 &&& 0xFFFFFFFC == 0 && l.getD 3 0 == 0 &&
    (List.range 16).all (fun x =>
      l.getD (4 + 4 * x) 0 &&& 0x7FFFF000 == 0 && l.getD (6 + 4 * x) 0 &&& 0x40404040 == 0 &&
        l.getD (7 + 4 * x) 0 &&& 0xFF000000 == 0)

/-- The contexts of an image. -/
def imageBinds (l : List Word) : List PBind := (List.range 16).map (fun x => imageBind ((l.drop (4 + 4 * x)).take 4))

/-- The image is complete and its CRC-32 holds (R180, R520). -/
def imageSound (l : List Word) : Bool :=
  let n := (l.getD 1 0).toNat
  decide (4 ≤ l.length) && decide (1 ≤ n) && decide (n ≤ 4096) && l.length == 68 + n && imageFieldsOk l &&
    crc32 (bytesOf (l.drop 4)) == l.getD 2 0

/-- Target `t` is one that a context of pair `p` may name for client `c` (R31, R159, Table 5-1). -/
def targetOk (s : State) (p c t : Nat) : Bool :=
  match targetOut t with
  | some o => pairOf o == p && owns s c o && !oddMember s o
  | none => t == 0xFF || (decide (0x80 + 6 * p ≤ t) && decide (t < 0x86 + 6 * p))

/-- The targets of binding `b`. -/
def PBind.targets (b : PBind) : List Nat := (b.slots.map (fun x => x.target)).filter (fun t => t != 0xFF)

/-- No target is bound to two contexts (R159). (log entry 54, DEDUCED) -/
def bindsApart : List PBind → Bool
  | [] => true
  | b :: l => l.all (fun d => d.targets.all (fun t => t ∉ b.targets)) && bindsApart l

/-- Every binding of the image keeps R159. -/
def bindsOk (s : State) (p c : Nat) (l : List PBind) : Bool :=
  bindsApart l && l.all (fun b => b.targets.all (targetOk s p c))

/-- Instruction words by address, zeros unlisted. -/
def codeOf : Nat → List Word → Tbl Nat
  | _, [] => []
  | k, w :: l => if w = 0 then codeOf (k + 1) l else (k, w.toNat) :: codeOf (k + 1) l

/-- The idle bank of pair `p` becomes `b`. -/
def setIdle (p : Nat) (b : PBank) (s : State) : State :=
  onPls p (fun x => if isSet s (PLS_CTRL_BANK p) then { x with bank0 := b } else { x with bank1 := b }) s

/-- `LOAD_PULSE_IMAGE (0x0150)`: its own refusals in the order of R180, each of which leaves the idle bank marked empty. -/
def loadPulseImage (m : Msg) (s : State) : State :=
  let p := (word m 0).toNat % 4
  let empty := wrB (PLS_CTRL_LOADED p) false s
  if plsOwner s p ≠ m.client then refuse 0x0150 m 3 s
  else if !imageSound m.words then refuse 0x0150 m 0x0150 empty
  else
    let l := imageBinds m.words
    if !bindsOk s p m.client l then refuse 0x0150 m 0x0151 empty
    else if isSet s (PLS_CTRL_SWITCH_PEND p) then refuse 0x0150 m 4 empty
    else ok 0x0150 m (wrB (PLS_CTRL_LOADED p) true (setIdle p ⟨codeOf 0 (m.words.drop 68), l⟩ s))

/-- `LOAD_PULSE_IMAGE`: loads an image into the idle bank. -/
def execLoadPulseImage (m : Msg) (s : State) : Host.Outcome State Fault Refusal := command 0x0150 m (loadPulseImage m) s

/-! ### Switching, starting, stopping -/

/-- The pair a command names, after its reserved fields and the caller's grant: the refusal, or `f` (R158, R512). -/
def onOwnPair (code range : Nat) (mask : Word) (m : Msg) (f : Nat → State → State) (s : State) : State :=
  let p := (word m 0).toNat % 4
  if word m 0 &&& ~~~mask ≠ 0 then refuse code m range s
  else if plsOwner s p ≠ m.client then refuse code m 3 s
  else f p s

/-- `PULSE_SWITCH (0x0151)`: answered at the exchange. -/
def execPulseSwitch (m : Msg) (s : State) : Host.Outcome State Fault Refusal :=
  command 0x0151 m (onOwnPair 0x0151 0x0B 3 m (fun p s =>
    if !isSet s (PLS_CTRL_LOADED p) then refuse 0x0151 m 0x0152 s
    else if isSet s (PLS_CTRL_SWITCH_PEND p) then refuse 0x0151 m 4 s
    else wrB (PLS_CTRL_SWITCH_PEND p) true (onPls p (fun x => { x with switch := some (m, s.cyc) }) s))) s

/-- The contexts of pair `p` named in [31:16]. -/
def namedCtxs (m : Msg) (p : Nat) : List Nat :=
  ((List.range 16).filter (fun i => bitOf (word m 0).toNat (16 + i))).map (fun i => 16 * p + i)

/-- `PULSE_START (0x0152)`: a running context is left as it is. (log entry 53, DEDUCED) -/
def execPulseStart (m : Msg) (s : State) : Host.Outcome State Fault Refusal :=
  command 0x0152 m (onOwnPair 0x0152 0x0B 0xFFFF0003 m (fun p s =>
    ok 0x0152 m ((namedCtxs m p).foldl (fun s n =>
      if (ctxAt s n).runs || (pairAt s p).halted then s else startCtx n s) s))) s

/-- `PULSE_STOP (0x0153)`: R178's actions without a fault; a halted context is left as it is (R183). -/
def execPulseStop (m : Msg) (s : State) : Host.Outcome State Fault Refusal :=
  command 0x0153 m (onOwnPair 0x0153 0x0B 0xFFFF0003 m (fun p s =>
    ok 0x0153 m ((namedCtxs m p).foldl (fun s n => if (ctxAt s n).run = .halted then s else pulseHalt n s) s))) s

/-! ### Parameters and queues -/

/-- `COUNT` of the parameter commands. -/
def paramCount (m : Msg) : Nat := bits (word m 0) 12 8

/-- First address of the parameter commands. -/
def paramFirst (m : Msg) : Nat := bits (word m 0) 27 16

/-- Write words from address `a` on. -/
def putParams (p : Nat) : Nat → List Word → State → State
  | _, [], s => s
  | a, w :: l, s => putParams p (a + 1) l (setParam p a w.toNat s)

/-- The count of a command with a counted payload is in range, its length is right: the refusal, if any (R511). -/
def countBad (m : Msg) (n range : Nat) : Option (Nat × Nat) :=
  if n = 0 ∨ 16 < n then some (range, 0)
  else if m.words.length ≠ n + 1 then some (0x0B, 0xFF)
  else none

/-- The words of the parameter write `m` on pair `p` are written together and it is answered. -/
def writeParams (p : Nat) (m : Msg) (s : State) : State :=
  ok 0x0154 m (putParams p (paramFirst m) (m.words.drop 1) s)

/-- `PULSE_PARAM_PUT (0x0154)`: from cycle 60 of a pace on the words wait for the next pace (R182). -/
def execPulseParamPut (m : Msg) (s : State) : Host.Outcome State Fault Refusal :=
  command 0x0154 m (fun s =>
    match countBad m (paramCount m) 0x0153 with
    | some (st, d) => respond 0x0154 m st d [] s
    | none => onOwnPair 0x0154 0x0153 0x0FFF1F03 m (fun p s =>
        if 2048 < paramFirst m + paramCount m then refuse 0x0154 m 0x0153 s
        else if s.cyc % 100 < 60 then writeParams p m s
        else onPls p (fun x => { x with puts := x.puts ++ [m] }) s) s) s

/-- The parameter writes that wait for this pace go in, in the order they came (R182). -/
def paramPass (s : State) : State :=
  (List.range 4).foldl (fun s p =>
    let l := (plsAt s p).puts
    if l = [] then s else l.foldl (fun s m => writeParams p m s) (onPls p (fun x => { x with puts := [] }) s)) s

/-- `PULSE_PARAM_GET (0x0155)`: each stored value, then its stored complement. -/
def execPulseParamGet (m : Msg) (s : State) : Host.Outcome State Fault Refusal :=
  command 0x0155 m (fun s =>
    let n := paramCount m
    if n = 0 ∨ 16 < n ∨ word m 0 &&& ~~~0x0FFF1F03 ≠ 0 ∨ 2048 < paramFirst m + n then refuse 0x0155 m 0x0153 s
    else
      respond 0x0155 m 0 0 ((List.range n).flatMap (fun i =>
        let v := paramAt s ((word m 0).toNat % 4) (paramFirst m + i)
        [wd v.1, wd v.2])) s) s

/-- `COUNT` of the queue commands. -/
def queueCount (m : Msg) : Nat := bits (word m 0) 20 16

/-- `PULSE_QUEUE_PUT (0x0156)`: all of the words, or none. -/
def execPulseQueuePut (m : Msg) (s : State) : Host.Outcome State Fault Refusal :=
  command 0x0156 m (fun s =>
    match countBad m (queueCount m) 0x0156 with
    | some (st, d) => respond 0x0156 m st d [] s
    | none => onOwnPair 0x0156 0x0156 0x001F0303 m (fun p s =>
        let q := 8 + bits (word m 0) 9 8
        if 32 < (queueAt s p q).length + queueCount m then refuse 0x0156 m 0x0154 s
        else ok 0x0156 m (setQueue p q (queueAt s p q ++ (m.words.drop 1).map (fun w => w.toNat)) s)) s) s

/-- `PULSE_QUEUE_GET (0x0157)`: the entries present, up to the number asked for. -/
def execPulseQueueGet (m : Msg) (s : State) : Host.Outcome State Fault Refusal :=
  command 0x0157 m (fun s =>
    let n := queueCount m
    let p := (word m 0).toNat % 4
    let q := 12 + bits (word m 0) 9 8
    let l := queueAt s p q
    if n = 0 ∨ 16 < n ∨ word m 0 &&& ~~~0x001F0303 ≠ 0 then refuse 0x0157 m 0x0156 s
    else if l = [] then refuse 0x0157 m 0x0155 s
    else respond 0x0157 m 0 0 (wd (min n l.length) :: (l.take n).map wd) (queueDrained p q (setQueue p q (l.drop n) s))) s

/-! ### The owner -/

/-- A write of `PLS_CTRL_p`: `OWNER` is kept while a context of the pair runs (R158). -/
def plsOwnerWrite (p : Nat) (x : Word) (s : State) : State :=
  let off := 0x0180 + 0x10 * p
  if rd s (PLS_CTRL_RUNNING p) ≠ 0 then flag (PLS_STATUS_CFG_REJ p) { s with sw := off :: s.sw }
  else swWrite off (globalFields off) x s

/-- `PLS_OWNER_WRITE`: PF0 writes `PLS_CTRL_p`. -/
def execPlsOwnerWrite (dt : Nat) (p : Fin 4) (x : Word) (s : State) : Host.Outcome State Fault Refusal :=
  event dt (writes 0 (PLS_CTRL p) (plsOwnerWrite p.val x)) s

end Sys2Proof.Machine
end

