-- ==== Sys2Proof/Machine/Admit.lean ====
section
/-! DEFINITION. The admission path: the event opcodes 0x0210 to 0x0240 (scheduling R118 to R125, R144 to R151, R154, command
reference R523). -/
namespace Sys2Proof.Machine

/-! ### Event memory -/

/-- The lowest index from `k` on that the sorted list `l` does not hold. -/
def lowestFree : Tbl Desc → Nat → Nat
  | [], k => k
  | (i, _) :: l, k => if i < k then lowestFree l k else if i = k then lowestFree l (k + 1) else k

/-- The free descriptor that an admission takes, the lowest in a powered bank of event memory, 1,024 to a bank (R118, power Table 16-1).
(log entry 98, DESIGN CHOICE) -/
def freeIndex (s : State) : Option Nat :=
  (List.range 32).findSome? (fun b =>
    if domainOn s (12 + b) then
      let k := lowestFree s.seq.descs (1024 * b)
      if k < 1024 * (b + 1) then some k else none
    else none)

/-- The serial number after `x` (R120). -/
def serialAfter (x : Nat) : Nat := if x = 2 ^ 32 - 1 then 1 else x + 1

/-! ### Angles at admission (R82, R125, R137) -/

/-- The nominal angle of tooth position `j` (wheel R42). -/
def nominalAngle (w : Wheel) (j : Nat) : Nat := ofSigned 24 (w.tooth0 + roundDiv (turn * j) w.cycle)

/-- One pitch in links, for an arm lead of 0. -/
def leadOf (w : Wheel) (x : Nat) : Nat := if x = 0 then (pitch w).round.toNat else x

/-- The rate of the pace snapshot in 24.8 links per cycle. -/
def rate248 (s : State) : Nat := (roundDiv (snapRate s) 2048).toNat

/-- Links that the chain makes in `n` cycles at the snapshot rate. -/
def linksIn (s : State) (n : Nat) : Nat := (roundDiv (n * rate248 s) 256).toNat

/-- Start and end angle of `d` at the snapshot rate. (log entry 44, DEDUCED) -/
def quickAngles (s : State) (w : Wheel) (d : Desc) : Nat × Nat :=
  let x := linksIn s d.duration
  if d.toothLocked then
    let a := angleOf s w d.tooth
    (a, after d.astern a x)
  else (before d.astern d.endAngle x, d.endAngle)

/-- The chain lies from angle `a` on and before angle `b`, in the direction of the set. -/
def liesBetween (s : State) (astern : Bool) (a b : Nat) : Bool :=
  decide (ahead astern a (snapChain s) < ahead astern a b)

/-- The place in which an admitted descriptor is inserted: the slot of its review angle, or the next one to be dequeued when the
chain has passed that angle in the occurrence at hand (R125). -/
def admitPlace (s : State) (w : Wheel) (d : Desc) : Place :=
  let (start, stop) := quickAngles s w d
  let arm := before d.astern start d.armLead
  let rev := before d.astern arm (reviewDistance s w)
  let waits := d.nextOk && !d.recurring && liesBetween s d.astern start stop
  if phased s && liesBetween s d.astern rev stop && !waits then .angle (nextSlot s) rev else wheelPlace rev

/-! ### `ARM_EVENT (0x0210)` -/

/-- The descriptor that a message asks for, stations and defaults resolved. -/
def askedDesc (s : State) (w : Wheel) (m : Msg) : Desc :=
  let p := word m 0
  let tooth := bits (word m 4) 26 16
  let flags := bits p 15 8
  { channel := bits p 31 24
    profile := bits p 23 18
    astern := bitOf p.toNat 17
    bank := bits p 16 16
    flags
    lateLim := if bits p 7 0 = 0 then s.seq.defLate else bits p 7 0
    endAngle := if bitOf flags 1 then nominalAngle w tooth
      else ofSigned 24 (s.angle.stations.getD (bits (word m 1) 7 3) 0 + signed 24 (bits (word m 1) 31 8))
    cls := if isSafety s m.client then 0 else 1
    duration := (word m 2).toNat
    armLead := leadOf w (bits (word m 3) 31 8)
    sequence := m.seq
    client := m.client
    tooth
    serial := s.seq.nextSerial }

/-- A channel code of Table 4-2. -/
def channelCode (x : Nat) : Bool := decide (x < 36) || (decide (0x40 ≤ x) && decide (x < 0x50))

/-- Masks of the value words that are not reserved. (log entry 45, DEDUCED) -/
def armMasks : List Word := [0xFFFF1FFF, 0xFFFFFFF8, 0xFFFFFFFF, 0xFFFFFF00, 0x07FF0000, 0]

/-- Descriptors that client `c` may hold (R154). -/
def quotaOf (s : State) (c : Nat) : Nat := rd s (SEQ_QUOTA_QUOTA c)

/-- The conditions of Table 4-5 on values, in its order, for descriptor `d` of a message: the code, if any. (log entries 44, DEDUCED, 45, DEDUCED) -/
def admitCheck (s : State) (w : Wheel) (m : Msg) (d : Desc) : Option Nat :=
  let o := d.output
  if !channelCode d.channel then some 7
  else if o < 36 && oddMember s o then some 8
  else if !owns s m.client o then some 3
  else if bitOf s.seq.inhibit o && !isSafety s m.client then some 0x0201
  else if o < 36 && !slotValid s d.profile then some 0x0202
  else if s.angle.stations.length ≤ bits (word m 1) 7 3 then some 0x0136
  else if d.duration = 0 then some 0x0203
  else if 209715200 < d.duration then some 0x0204
  else if 2097152 < d.armLead then some 0x0205
  else if d.toothLocked && (decide (w.cycle ≤ d.tooth) || isMissing w d.tooth) then some 0x0206
  else if !d.recurring && !d.nextOk && d.astern == asternSet s && d.bank == bankIn s d.client d.astern (rd s SEQ_CYCLE_CYCLE)
      && liesBetween s d.astern (quickAngles s w d).1 (quickAngles s w d).2 then some 0x0207
  else if quotaOf s m.client ≤ rd s (CLI_SEQ_USE_USED m.client) then some 0x0208
  else if (freeIndex s).isNone then some 0x0209
  else none

/-- The pairs of a message that names descriptor `i` (0xFFFF: none) fail at hop 2 (architecture R24, R32, Tables 1-6, 17-5).
(log entry 46, DESIGN CHOICE) -/
def hop2 (code i : Nat) (m : Msg) (s : State) : State :=
  respond code m 1 2 [] (raise 0x0202 0xE0 (wd (i * 65536 + m.client * 256 + 2)) actEvent s)

/-- Store an admitted descriptor at index `i` and answer with it. -/
def admitDesc (w : Wheel) (m : Msg) (i : Nat) (d : Desc) (s : State) : State :=
  let s := setDesc i { d with place := admitPlace s w d } s
  let s := { s with seq := { s.seq with nextSerial := serialAfter s.seq.nextSerial } }
  let s := wr (CLI_SEQ_USE_USED m.client) (rd s (CLI_SEQ_USE_USED m.client) + 1) s
  respond 0x0210 m 0 0 [wd i] s

/-- `ARM_EVENT (0x0210)`; `sound` tells whether its pairs pass at hop 2. -/
def armEvent (sound : Bool) (m : Msg) (s : State) : State :=
  let two := bitOf (word m 0).toNat 16 || bitOf (word m 0).toNat 17
  if two && decide (versionOf s m.client < 0x20) then refuse 0x0210 m 0x1A s
  else if m.words.length ≠ 6 then respond 0x0210 m 0x0B 0xFF [] s
  else match reservedBad m armMasks with
    | some i => respond 0x0210 m (if i = 0 then 7 else 0x0B) i [] s
    | none =>
      match s.angle.wheel with
      | none => refuse 0x0210 m 6 s
      | some w =>
        if s.angle.stations = [] then refuse 0x0210 m 6 s
        else
          let d := askedDesc s w m
          match admitCheck s w m d with
          | some st => refuse 0x0210 m st s
          | none =>
            if !sound then hop2 0x0210 0xFFFF m s
            else match freeIndex s with
              | some i => admitDesc w m i d s
              | none => refuse 0x0210 m 0x0209 s

/-- `ARM_EVENT`: admits one descriptor; the word pairs of the message pass hop 2 where `sound`. -/
def execArmEvent (m : Msg) (sound : Bool) (s : State) : Host.Outcome State Fault Refusal := command 0x0210 m (armEvent sound m) s

/-! ### Descriptors named by index (R147, R148, R523) -/

/-- The caller's descriptor named by V0, after the reserved fields: a refusal, or `f` of it. -/
def onOwnDesc (code : Nat) (masks : List Word) (m : Msg) (f : Nat → Desc → State → State) (s : State) : State :=
  match reservedBad m masks with
  | some i => respond code m 0x0B i [] s
  | none =>
    let i := (word m 0).toNat
    match desc s i with
    | none => refuse code m 0x020D s
    | some d => if d.client ≠ m.client then refuse code m 3 s else f i d s

/-- `CANCEL_EVENT (0x0211)`: on a halted pair only reset frees a descriptor; `sound` tells whether its pairs pass at hop 2. (log entry 45, DEDUCED) -/
def execCancelEvent (m : Msg) (sound : Bool) (s : State) : Host.Outcome State Fault Refusal :=
  command 0x0211 m (onOwnDesc 0x0211 [0x0000FFFF] m (fun i d s =>
    if d.frozen s then refuse 0x0211 m 4 s
    else if d.stage.fixed && !d.recurring then refuse 0x0211 m 0x020A s
    else if !sound then hop2 0x0211 i m s
    else if !d.stage.fixed then ok 0x0211 m (freeDesc i s)
    else refuse 0x0211 m 0x020B (setDesc i { d with lastOne := true } s))) s

/-- The refusals of an update's values, in the order of Table 4-5. -/
def updateCheck (s : State) (m : Msg) (d : Desc) : Option Nat :=
  if d.stage.fixed && !d.recurring then some 0x020A
  else if !d.toothLocked && decide (s.angle.stations.length ≤ bits (word m 1) 7 3) then some 0x0136
  else if word m 2 = 0 then some 0x0203
  else if 209715200 < (word m 2).toNat then some 0x0204
  else if 2097152 < bits (word m 3) 31 8 then some 0x0205
  else none

/-- Descriptor `d` with the values of an update: at once while Waiting, else at its next recompute or occurrence (R147). -/
def Desc.takes (d : Desc) (e n x : Nat) : Desc :=
  if d.stage = .waiting then { d with endAngle := e, duration := n, armLead := x } else { d with update := some (e, n, x) }

/-- `UPDATE_EVENT (0x0212)`; `sound` tells whether its pairs pass at hop 2. (log entry 44, DEDUCED) -/
def execUpdateEvent (m : Msg) (sound : Bool) (s : State) : Host.Outcome State Fault Refusal :=
  command 0x0212 m (fun s =>
    let i := (word m 0).toNat
    let lock := match desc s i with
      | some d => d.toothLocked
      | none => false
    onOwnDesc 0x0212 [0x0000FFFF, if lock then 0xFFFFFFFF else 0xFFFFFFF8, 0xFFFFFFFF, 0xFFFFFF00] m (fun i d s =>
      match updateCheck s m d with
      | some st => refuse 0x0212 m st s
      | none =>
        if !sound then hop2 0x0212 i m s
        else match s.angle.wheel with
          | none => refuse 0x0212 m 6 s
          | some w =>
            let e := if d.toothLocked then d.endAngle
              else ofSigned 24 (s.angle.stations.getD (bits (word m 1) 7 3) 0 + signed 24 (bits (word m 1) 31 8))
            ok 0x0212 m (setDesc i (d.takes e (word m 2).toNat (leadOf w (bits (word m 3) 31 8))) s)) s) s

/-- `EVENT_QUERY (0x0240)`: the value half of any allocated descriptor; `sound` tells whether its pair passes at hop 2. -/
def execEventQuery (m : Msg) (sound : Bool) (s : State) : Host.Outcome State Fault Refusal :=
  command 0x0240 m (fun s =>
    match reservedBad m [0x0000FFFF] with
    | some i => respond 0x0240 m 0x0B i [] s
    | none =>
      match desc s (word m 0).toNat with
      | none => refuse 0x0240 m 0x020D s
      | some d => if !sound then hop2 0x0240 (word m 0).toNat m s else respond 0x0240 m 0 0 d.words s) s

/-! ### Banks (R149 to R151) -/

/-- Pending bit, active bank and cycle of client `c`'s set. -/
def bankFields (c : Nat) (astern : Bool) : Fld × Fld × Fld :=
  if astern then (CLI_BANK_ASTERN_PEND c, CLI_BANK_ASTERN_ACTIVE c, CLI_SWITCH_ASTERN_CYCLE c)
  else (CLI_BANK_AHEAD_PEND c, CLI_BANK_AHEAD_ACTIVE c, CLI_SWITCH_AHEAD_CYCLE c)

/-- `BANK_SWITCH (0x0220)`; `sound` tells whether its pairs pass at hop 2. -/
def execBankSwitch (m : Msg) (sound : Bool) (s : State) : Host.Outcome State Fault Refusal :=
  command 0x0220 m (fun s =>
    match reservedBad m [1, 0xFFFFFFFF] with
    | some i => respond 0x0220 m 0x0B i [] s
    | none =>
      let (pend, _, at_) := bankFields m.client (bitOf (word m 0).toNat 0)
      let n := (word m 1).toNat
      let gap := (n + 2 ^ 32 - rd s SEQ_CYCLE_CYCLE) % 2 ^ 32
      if gap = 0 ∨ 65535 < gap then refuse 0x0220 m 0x020C s
      else if isSet s pend then refuse 0x0220 m 4 s
      else if !sound then hop2 0x0220 0xFFFF m s
      else ok 0x0220 m (wr at_ n (wrB pend true s))) s

/-- `BANK_CLEAR (0x0221)`: Waiting and Near descriptors of the shadow bank are freed, Armed and Running ones after their
occurrence; `sound` tells whether its pair passes at hop 2. (log entry 45, DEDUCED) -/
def execBankClear (m : Msg) (sound : Bool) (s : State) : Host.Outcome State Fault Refusal :=
  command 0x0221 m (fun s =>
    match reservedBad m [1] with
    | some i => respond 0x0221 m 0x0B i [] s
    | none =>
      let astern := bitOf (word m 0).toNat 0
      let (pend, act, _) := bankFields m.client astern
      if isSet s pend then refuse 0x0221 m 4 s
      else if !sound then hop2 0x0221 0xFFFF m s
      else
        let l := s.seq.descs.filter (fun x =>
          x.2.client == m.client && x.2.astern == astern && x.2.bank != rd s act && !x.2.frozen s)
        let s := l.foldl (fun s x =>
          if x.2.stage.fixed then setDesc x.1 { x.2 with lastOne := true } s else freeDesc x.1 s) s
        respond 0x0221 m 0 0 [wd l.length] s) s

/-! ### SAFETY cut-off (R144, R145) -/

/-- Outputs that the masks of V0 and V1 name, an odd member of a paralleled pair as its even member. -/
def cutOutputs (s : State) (m : Msg) : List Nat :=
  ((List.range 52).filter (fun o =>
    if o < 36 then bitOf (chanMask (word m 0) (word m 1)) o else bitOf (word m 1).toNat (16 + (o - 36)))).map (evenMember s)

/-- Arming is inhibited on the listed outputs, and a release of them asked for before is taken back (R145). -/
def inhibitOutputs (l : List Nat) (s : State) : State :=
  { s with seq := { s.seq with
    inhibit := l.foldl (fun x o => setBit x o true) s.seq.inhibit
    release := l.foldl (fun x o => setBit x o false) s.seq.release } }

/-- The pulse contexts that hold a listed output are cut (R145). -/
def pulseCutAll (l : List Nat) (s : State) : State := l.foldl (fun s o => pulseCut o s) s

/-- `SAFETY_CUT (0x0230)`; `sound` tells whether its masks pass at hop 2. -/
def safetyCut (sound : Bool) (m : Msg) (s : State) : State :=
  match reservedBad m [0xFFFFFFFF, 0xFFFF000F] with
  | some i => respond 0x0230 m 7 i [] s
  | none =>
    if !sound then hop2 0x0230 0xFFFF m s
    else
      let l := cutOutputs s m
      let ran := l.any (fun o => (laneAt s o).on)
      let s := cutAll (fun d => d.cls == 1 && l.contains d.output) ntCutSafety 0 (inhibitOutputs l s)
      ok 0x0230 m (raise 0x0114 0x65 0 (actEvent + if ran then actOff else 0) (pulseCutAll l s))

/-- `SAFETY_CUT`: ends CONTROL events on the named outputs and inhibits arming there. -/
def execSafetyCut (m : Msg) (sound : Bool) (s : State) : Host.Outcome State Fault Refusal := command 0x0230 m (safetyCut sound m) s

/-- The inhibits whose release was asked for end with this pace (R145). -/
def releaseInhibits (s : State) : State :=
  { s with seq := { s.seq with
    inhibit := (List.range 52).foldl (fun x o => if bitOf s.seq.release o then setBit x o false else x) s.seq.inhibit
    release := 0 } }

/-- The outputs that a release names, less odd members of a pair (R145). -/
def releaseNames (s : State) (m : Msg) : List Nat :=
  (List.range 52).filter (fun o => !oddMember s o &&
    (if o < 36 then bitOf (chanMask (word m 0) (word m 1)) o else bitOf (word m 1).toNat (16 + (o - 36))))

/-- The inhibits of the listed outputs end with the next pace (R145). (log entry 45, DEDUCED) -/
def askRelease (l : List Nat) (s : State) : State :=
  { s with seq := { s.seq with release := l.foldl (fun x o => setBit x o true) s.seq.release } }

/-- `SAFETY_RELEASE (0x0231)`: from the next pace; the bit of an odd member is ignored. -/
def execSafetyRelease (m : Msg) (sound : Bool) (s : State) : Host.Outcome State Fault Refusal :=
  command 0x0231 m (fun s =>
    match reservedBad m [0xFFFFFFFF, 0xFFFF000F] with
    | some i => respond 0x0231 m 7 i [] s
    | none => if !sound then hop2 0x0231 0xFFFF m s else ok 0x0231 m (askRelease (releaseNames s m) s)) s

/-! ### Quotas (R154) -/

/-- The sum of all quotas. -/
def quotaSum (s : State) : Nat := (List.range 256).foldl (fun a c => a + quotaOf s c) 0

/-- A write of `SEQ_QUOTA_n`. -/
def seqQuotaWrite (n : Nat) (x : Word) (s : State) : State :=
  let q := x.toNat % 65536
  let off := SEQ_QUOTA n
  if q < rd s (CLI_SEQ_USE_USED n) ∨ 32768 < quotaSum s - quotaOf s n + q then
    flag SEQ_STATUS_CFG_REJ { s with sw := off :: s.sw }
  else swWrite off (globalFields off) x s

/-- `SEQ_QUOTA_WRITE`: PF0 writes the quota of client `n`. -/
def execSeqQuotaWrite (dt : Nat) (n : Fin 256) (x : Word) (s : State) : Host.Outcome State Fault Refusal :=
  event dt (writes 0 (SEQ_QUOTA n) (seqQuotaWrite n.val x)) s

end Sys2Proof.Machine
end

