-- ==== Sys2Proof/Machine/Sync.lean ====
section
/-! DEFINITION. Synchronisation: loss of sync, tooth positions, the gap check, cam windows, direction, failover and cam limp
(wheel R46 to R76, angle R95 to R99). -/
namespace Sys2Proof.Machine

/-! ### Loss of sync (wheel R74, R75) -/

/-- The end of the coast window (wheel, "Loss of sync"). -/
def coastEnd (s : State) : Frac :=
  if limping s then s.angle.limpAt
  else (Frac.int s.angle.lastEdge).add ((Frac.int (angCfg s ANG_CFG_COAST_K + 2 : Nat)).mul s.angle.lastPred)

/-- The event of `d` ends when sync is lost with this coast window (wheel Table 2-11). -/
def endsAtLoss (coast : Frac) (d : Desc) : Bool :=
  d.stage.fixed && ((d.toothLocked && d.stage == .armed) || !(Frac.int d.te).le coast)

/-- What a loss of sync does to the events, as the action of `F_0406` (faults R478). (log entry 88, DEDUCED) -/
def lossAction (s : State) (coast : Frac) : Nat :=
  let l := s.seq.descs.filter (fun p => endsAtLoss coast p.2)
  actSync + (if l = [] then 0 else actEvent) + if l.any (fun p => p.2.onAt.isSome) then actOff else 0

/-- The crank input that the module seeks on after a loss of sync: `keep` is the input whose loss was the cause (R66, R68, R74). (log entry 29, DEDUCED) -/
def seekInput (s : State) (w : Wheel) (keep : Option Nat) : Nat :=
  match keep with
  | some i => if w.bRole ≠ 0 ∧ crankServes s (1 - i) then 1 - i else i
  | none =>
    if limping s then if w.bRole = 2 ∧ isSet s WHL_STATUS_A_LOST ∧ crankServes s 1 then 1 else 0
    else srcOf s

/-- Tooth counting begins again in SEEK on both crank inputs. (log entry 24, DEDUCED) -/
def restartSearch (s : State) : State :=
  (List.range 2).foldl (fun s i => onCrank i (fun x => { x with search := 0, count := 0, since := [], pos := none, good := 0 }) s) s

/-- Firmware writes the firing pattern table to flash after a stop (angle R110). (log entry 35, DEDUCED) -/
def saveFiring (w : Wheel) (s : State) : State :=
  if !s.angle.tableDirty then s
  else
    onAngle (fun a =>
      { a with
        tableDirty := false
        flashTable := some ⟨w.key, crankInUse s, if crankInUse s = 1 then a.places.2 else a.places.1, a.firing,
          (List.range 8).map (fun b => rd s (fpCycles b))⟩ }) s

/-- Sync is lost: `keep` is the crank input that stays lost, `seek` the input to seek on where a rule names it. (log entry 21, DESIGN CHOICE) -/
def lossOfSync (w : Wheel) (cause : Nat) (keep seek : Option Nat) (s : State) : State :=
  if syncState s < 2 then s
  else
    let coast := coastEnd s
    let act := lossAction s coast
    let src := seek.getD (seekInput s w keep)
    let held := quadHeld s w
    let s := keepInjection w (learnAbort 0x0144 (seqSyncLost coast s))
    let s := if cause = 3 ∨ cause = 8 then saveFiring w s else s
    let s := raise 0x0406 0x64 (wd cause) act (flag WHL_STATUS_LOSS (count WHL_LOSS_LOSS_COUNT 1 (wr WHL_LOSS_CAUSE cause s)))
    let s := wrB WHL_STATUS_A_LOST (keep == some 0) (wrB WHL_STATUS_B_LOST (keep == some 1) s)
    let s := wr WHL_STATUS_CRANK_SRC src (wrB WHL_STATUS_LIMP false s)
    let s := if held && !w.reversible then wrB WHL_STATUS_REVERSE false s else s
    let (x, s) := draw s
    let s := standAt (x % (turn * unit) : Nat) (restartSearch s)
    let s := (List.range 2).foldl (fun s i => onCrank i (fun x => { x with alone := 0 }) s) s
    setSync 0 (onAngle (fun a =>
      { a with
        times := [], sum := {}, sumN := 0, recent := [], errs := [], coasts := 0, jumped := false, reversal := none
        hyp0 := {}, hyp1 := {}, retest := false, limpLast := none, agreed := 0
        dirUnknown := a.dirUnknown || (held && w.reversible) }) s)

/-! ### Cam inputs (wheel R52 to R55) -/

/-- The pattern of cam `k`. -/
def Wheel.cam (w : Wheel) (k : Nat) : List CamEdge := if k = 1 then w.camB else w.camA

/-- The fault bit of cam `k`. -/
def camFld (k : Nat) : Fld := if k = 1 then WHL_STATUS_CAMB_FAULT else WHL_STATUS_CAMA_FAULT

/-- Cam input `k` is in service. -/
def camServes (s : State) (w : Wheel) (k : Nat) : Bool :=
  inputOn s (k + 2) && !(w.cam k).isEmpty && !isSet s (camFld k) && !(camAt s k).out

/-- The chain along the rotation; a cam edge in the cycle of a crank tooth sees the chain that the tooth has updated (R53). -/
def alongNow (s : State) : Int :=
  let x := match s.angle.courses with
    | c :: _ => if s.angle.toothAt = Frac.int s.cyc then max s.cyc c.at_ else s.cyc
    | [] => s.cyc
  alongLinks (reversed s) (chainAt s x / unit)

/-- A chain value in the measure along the rotation. (log entry 31, DEDUCED) -/
def alongAngle (back : Bool) (a : Nat) : Nat := if back then (turn - a) % turn else a

/-- The chain value at which hypothesis `h` expects a pattern edge of angle `a`. -/
def expectedAt (h a : Nat) : Nat := (a + turn - h * 8388608) % turn

/-- Number of a window: hypothesis, cam and pattern edge. -/
def windowKey (h k i : Nat) : Nat := h * 32 + k * 16 + i

/-- The pattern edges of cam `k`, each with its number. -/
def Wheel.camEdges (w : Wheel) (k : Nat) : List (Nat × CamEdge) := (List.range 16).zip (w.cam k)

/-- The window of `key` around chain value `a` has closed since the windows were last looked at, opened after the test began, and
had no edge. -/
def closedEmpty (s : State) (w : Wheel) (p : Int) (key a : Nat) : Bool :=
  let q := p - w.camTol - 1
  let b := q - (q - alongAngle (reversed s) a) % turn
  decide (s.angle.checked ≤ b + w.camTol) && decide (s.angle.testFrom < b - w.camTol) &&
    decide (Tbl.find s.angle.hits key ≠ some b)

/-- The pattern edge of cam `k` of this polarity whose window under hypothesis `h` holds the point `p`, with the window's centre. -/
def camWindow (s : State) (w : Wheel) (h k : Nat) (rising : Bool) (p : Int) : Option (Nat × CamEdge × Int) :=
  (w.camEdges k).findSome? (fun (i, e) =>
    let d := signed 24 (ofSigned 24 ((alongAngle (reversed s) (expectedAt h e.angle) : Int) - p))
    if e.rising = rising ∧ d.natAbs ≤ w.camTol then some (i, e, p + d) else none)

/-- The cams in service. -/
def camsOn (s : State) (w : Wheel) : List Nat := (List.range 2).filter (camServes s w)

/-- Windows of the phase test that have closed without an edge remove their hypothesis (R52). (log entry 30, DEDUCED) -/
def closeTest (w : Wheel) (s : State) : State :=
  let p := alongNow s
  let dies := fun h => (camsOn s w).any (fun k =>
    (w.camEdges k).any (fun (i, e) => closedEmpty s w p (windowKey h k i) (expectedAt h e.angle)))
  let d0 := dies 0
  let d1 := dies 1
  onAngle (fun a =>
    { a with
      hyp0 := { a.hyp0 with alive := a.hyp0.alive && !d0 }, hyp1 := { a.hyp1 with alive := a.hyp1.alive && !d1 }, checked := p }) s

/-- An edge of cam `k` counts for hypothesis `h` or removes it (R52). -/
def testEdge (w : Wheel) (h k : Nat) (rising : Bool) (s : State) : State :=
  let x := if h = 1 then s.angle.hyp1 else s.angle.hyp0
  if !x.alive then s
  else
    let (y, hits) := match camWindow s w h k rising (alongNow s) with
      | some (i, _, c) => ({ x with hits := x.hits + 1 }, Tbl.insert s.angle.hits (windowKey h k i) c)
      | none => ({ x with alive := false }, s.angle.hits)
    onAngle (fun a => if h = 1 then { a with hyp1 := y, hits } else { a with hyp0 := y, hits }) s

/-- Distance from angle `a` to the next of `l` in the direction of rotation, a whole turn at most. -/
def nextAmong (back : Bool) (a : Nat) (l : List Nat) : Nat :=
  l.foldl (fun d t =>
    let x := ahead back a t
    min d (if x = 0 then turn else x)) turn

/-- Pattern angles of the in-service cams: the targets of cam limp (angle R99). -/
def camTargets (s : State) (w : Wheel) : List Nat := (camsOn s w).flatMap (fun k => (w.cam k).map (fun e => e.angle))

/-- The chain runs towards the next cam target beyond angle `a` at the speed of cam limp, from cycle `at_` (angle R99). (log entry 31, DEDUCED) -/
def limpSteer (w : Wheel) (at_ a : Nat) (c0 : Int) (hold : Option Int) (s : State) : State :=
  let back := reversed s
  let d := nextAmong back a (camTargets s w)
  let t := Frac.div (Frac.int d) s.angle.limpSpeed
  let far : Int := d * unit
  let x := nearest c0 a
  let s := setCourse at_ c0 hold (if back then x - far else x + far) t s
  onAngle (fun r => { r with limpNext := if back then (a + turn - d) % turn else (a + d) % turn, limpAt := (Frac.int s.cyc).add t }) s

/-- The reference time of the frozen test of cam `k`, fixed at its edge of angle `a` (angle R98). -/
def fixFrozen (w : Wheel) (k a : Nat) (s : State) : State :=
  let d := nextAmong (reversed s) a ((w.cam k).map (fun e => e.angle))
  onCam k (fun x => { x with frozenRef := some (Frac.div (Frac.int d) s.angle.limpSpeed) }) s

/-- A cam edge of pattern angle `a` drives the chain in cam limp (angle R99). -/
def limpEdge (w : Wheel) (k a : Nat) (s : State) : State :=
  let back := reversed s
  let s := match s.angle.limpLast with
    | some (t, b) =>
      let d := ahead back b a
      if t < s.cyc then onAngle (fun r => { r with limpSpeed := Frac.make (if d = 0 then turn else d : Nat) (s.cyc - t) }) s else s
    | none => s
  let s := fixFrozen w k a (onAngle (fun r => { r with limpLast := some (s.cyc, a) }) s)
  let at_ := s.cyc + 3
  let c := chainAt s at_
  let x := nearest c a
  let beyond := if back then decide (c < x) else decide (x < c)
  if beyond then limpSteer w at_ a x (some c) (countWait s) else limpSteer w at_ a c none s

/-- A cam edge fails the check, or its window closes without one (R55, angle R99). (log entry 30, DEDUCED) -/
def camMismatch (w : Wheel) (k : Nat) (s : State) : State :=
  let s := count (if k = 1 then WHL_NOISE_CAM_CAMB_MISMATCH else WHL_NOISE_CAM_CAMA_MISMATCH) 1 s
  if !camServes s w k then
    let p := alongNow s
    onCam k (fun x => { x with matched := 0, runFrom := p }) s
  else
    let n := (camAt s k).misses + 1
    if n < w.camFault then onCam k (fun x => { x with misses := n }) s
    else
      let p := alongNow s
      let s := wrB (camFld k) true (onCam k (fun x => { x with misses := 0, matched := 0, runFrom := p }) s)
      let s := raise (0x0404 + k) (0x62 + k) 0 actReduced s
      if limping s && (camTargets s w).isEmpty then lossOfSync w 5 none none s else s

/-- A matching edge of cam `k`, out of service, counts towards its return, which takes place once a full cycle has passed in which
every pattern edge matched (R55). -/
def camReturn (w : Wheel) (k : Nat) (s : State) : State :=
  let x := camAt s k
  if x.matched + 1 < (w.cam k).length ∨ alongNow s < x.runFrom + turn then onCam k (fun x => { x with matched := x.matched + 1 }) s
  else wrB (camFld k) false (onCam k (fun x => { x with matched := 0, out := false }) s)

/-- A cam edge matches pattern edge `e` of cam `k`: it counts towards the input's return, and in service it drives cam limp (R55,
angle R98, R99). (log entry 30, DEDUCED) -/
def camMatch (w : Wheel) (k : Nat) (e : CamEdge) (s : State) : State :=
  let s := onCam k (fun x => { x with misses := 0, last := some e.angle }) s
  let s := if camServes s w k then s else camReturn w k s
  if camServes s w k ∧ limping s then limpEdge w k e.angle s else s

/-- Windows of the surviving phase that have closed without an edge count as mismatches (R55). -/
def closeCheck (w : Wheel) (s : State) : State :=
  let p := alongNow s
  let missed := fun k => ((w.camEdges k).filter (fun (i, e) => closedEmpty s w p (windowKey 0 k i) e.angle)).length
  let n := fun k => if inputOn s (k + 2) then missed k else 0
  let n0 := n 0
  let n1 := n 1
  let s := onAngle (fun a => { a with checked := p }) s
  (List.replicate n0 0 ++ List.replicate n1 1).foldl (fun s k => if phased s then camMismatch w k s else s) s

/-- Closed windows are dealt with, in LOCKED or PHASED. -/
def closeWindows (w : Wheel) (s : State) : State :=
  if phased s then closeCheck w s
  else if syncState s = 2 ∧ w.stroke = 4 ∧ !s.angle.retest then decidePhase w (closeTest w s)
  else s

/-- An edge of cam `k` meets the phase test or the check of PHASED. -/
def camPattern (w : Wheel) (k : Nat) (rising : Bool) (s : State) : State :=
  let s := closeWindows w s
  if phased s then
    match camWindow s w 0 k rising (alongNow s) with
    | some (i, e, c) => camMatch w k e (onAngle (fun a => { a with hits := Tbl.insert a.hits (windowKey 0 k i) c }) s)
    | none => if (w.cam k).isEmpty then s else camMismatch w k s
  else if syncState s = 2 ∧ w.stroke = 4 ∧ !s.angle.retest ∧ camServes s w k then
    decidePhase w (testEdge w 1 k rising (testEdge w 0 k rising s))
  else s

/-! ### Tooth positions (angle R84 to R95, wheel R49) -/

/-- `ANG_CFG` is taken over (angle R113). -/
def takeCfg (s : State) : State := onAngle (fun a => { a with cfg := some (wordNow s (globalFields ANG_CFG)) }) s

/-- A tooth period too short for pulse-width readings (wheel R58). -/
def shortPulse (s : State) (p : Frac) : Bool := p.lt (Frac.int (400 * (rd s WHL_DIR_CFG_REV_MAX + 10) : Nat))

/-- The registers and marks of tooth position `j`, reached at time `t`; a direction that can no longer be read is held from here on
(wheel R58, R77). -/
def toothDone (w : Wheel) (j : Nat) (coasted : Bool) (t : Frac) (s : State) : State :=
  let p := period s w (leaving w (reversed s) j)
  let s := onAngle (fun a =>
    { a with
      predicted := p, toothAt := t, recent := ⟨j, t, coasted⟩ :: a.recent.take 11
      lastEdge := if coasted then a.lastEdge else s.cyc, lastPred := if coasted then a.lastPred else p }) s
  let s := wr WHL_STATUS_TOOTH_POS j (wr ANG_TOOTH_TOOTH_REF (angleOf s w j) (wrB ANG_TOOTH_COASTED coasted s))
  let s := if w.dirSrc = 2 ∧ shortPulse s p then wrB WHL_STATUS_DIR_VALID false s else s
  wr ANG_PERIOD_PREDICTED (min p.floor.toNat 0xFFFFFFFF) s

/-- After position `j` the chain runs from `c0` towards the next position, from cycle `at_` on, to be there in `delta` cycles. -/
def runOn (w : Wheel) (j at_ : Nat) (c0 : Int) (hold : Option Int) (delta : Frac) (s : State) : State :=
  setCourse at_ c0 hold (nearest c0 (angleOf s w (followTooth w (reversed s) j))) delta s

/-- The closure error at accepted position `j`, and the chain's course after it: spread, jump or hold (R90 to R92). In REVERSE the error
is taken mirrored, as the distance by which the shadow stands beyond the tooth in the direction of rotation (R94). (log entry 105, DEDUCED) -/
def steerTooth (w : Wheel) (j : Nat) (s : State) : State :=
  let back := reversed s
  let at_ := s.cyc + 3
  let ang := angleOf s w j
  let sh := shadowAt s s.cyc
  let d := sh - nearest sh ang
  let e := if back then -d else d
  let s := onAngle (fun a => { a with shadow := { a.shadow with at_ := s.cyc, start := chainNow s, back } }) s
  let c := chainAt s at_
  let x := nearest c ang
  let beyond := if back then decide (c < x) else decide (x < c)
  let thr := ((pitch w).mul (Frac.make (angCfg s ANG_CFG_JUMP_FRAC) 64)).round
  let jump := !beyond && decide (thr * unit < e.natAbs)
  let links := roundDiv e unit
  let s := wr ANG_ERR_LAST_ERR (ofSigned 24 links) (maxTo ANG_ERR_MAX_MAX_ABS links.natAbs s)
  let s := onAngle (fun a => { a with jumped := jump, errs := links.natAbs :: a.errs.take (w.teeth - 1) }) s
  let s := if jump then
      let s := flag ANG_STATUS_JUMP (count ANG_COUNT_JUMPS 1 s)
      if turn * unit < 2 * e.natAbs * w.cycle then raise 0x0423 0x64 0 0 s else s
    else if beyond then countWait s else s
  runOn w j at_ (if jump || beyond then x else c) (if !jump && beyond then some c else none)
    ((period s w (leaving w back j)).sub (Frac.int 3)) s

/-- The chain's course after coasted position `j`, whose predicted time is `t` (R95). -/
def steerCoast (w : Wheel) (j : Nat) (t : Frac) (s : State) : State :=
  let s := count ANG_COUNT_COASTS 1 (onAngle (fun a => { a with jumped := false }) s)
  runOn w j s.cyc (chainNow s) none ((t.add (period s w (leaving w (reversed s) j))).sub (Frac.int s.cyc)) s

/-- Position `j` is the first after the gap in the direction of rotation (wheel R49, R61). -/
def gapEnd (w : Wheel) (back : Bool) (j : Nat) : Bool :=
  j % w.positions == if back then w.positions - w.missing - 1 else 0

/-- The period `t` is a gap candidate between its neighbours `a` and `b` (wheel R46). -/
def gapLike (w : Wheel) (a t b : Frac) : Bool :=
  let t16 := t.mul (Frac.int 16)
  (a.mul (Frac.int w.gapRatio)).le t16 && (b.mul (Frac.int w.gapRatio)).le t16

/-- At an accepted position the gap is missing, or one shows elsewhere (wheel R49, angle R96). -/
def gapWrong (w : Wheel) (back : Bool) (l : List Mark) : Bool :=
  match l with
  | [] => false
  | n :: rest =>
    let run := (rest.takeWhile (fun m => m.coasted && !gapEnd w back m.pos)).length
    match rest.drop run with
    | g :: a :: b :: _ =>
      if gapEnd w back g.pos then
        !gapLike w (a.time.sub b.time) (g.time.sub a.time) (Frac.div (n.time.sub g.time) (Frac.int (run + 1)))
      else
        match rest with
        | x :: y :: z :: _ => gapLike w (y.time.sub z.time) (x.time.sub y.time) (n.time.sub x.time)
        | _ => false
    | _ => false

/-- Tooth stakes of position `j` fire on an accepted edge; on a coasted position they are missed (scheduling R137). -/
def toothStakes (j : Nat) (coasted : Bool) (s : State) : State :=
  let due := (List.range 4).flatMap (fun p => (pairAt s p).tooth.filterMap (fun x =>
    match desc s x.2 with
    | some d => if d.tooth = j then some x.2 else none
    | none => none))
  due.foldl (fun s i =>
    if coasted then
      match desc s i with
      | some d => endWith i { type := ntMissedTooth, closing := closingWithout s d.output d true } (unplace i s)
      | none => s
    else fireStart i s) s

/-- Every pair recomputes its near list from the prediction of this position (scheduling R127). -/
def recomputeAll (s : State) : State :=
  (List.range 4).foldl (fun s p =>
    if (pairAt s p).halted then s else onPair p (fun q => { q with recompute := (nearOf s p).map (fun x => x.1) }) s) s

/-- One more tooth position without a disagreement of the trackers; a whole revolution ends a tracker fault (faults R484). (log entry 39, DEDUCED) -/
def trackersAgree (w : Wheel) (s : State) : State :=
  let n := s.angle.agreed + 1
  let s := onAngle (fun a => { a with agreed := n }) s
  if s.angle.trackerFault ∧ w.teeth ≤ n then pairRefresh (onAngle (fun a => { a with trackerFault := false }) s) else s

/-- Position `j` is the last before benchmark in the direction of rotation: the stake of the benchmark pulse is loaded for t̂(0) (pairing
R311). (log entry 115, DEDUCED) -/
def benchmarkStake (w : Wheel) (j : Nat) (s : State) : State :=
  let back := reversed s
  let d := ahead back (angleOf s w j) 0
  if phased s ∧ 0 < d ∧ d ≤ ahead back (angleOf s w j) (angleOf s w (followTooth w back j)) then
    { s with tie := { s.tie with bmFall := some (cycleOf (timeOf s w 0)) } }
  else s

/-- What a tooth position means for phasing, learning and the Sequencer. -/
def afterTooth (w : Wheel) (j : Nat) (coasted : Bool) (t : Frac) (s : State) : State :=
  let s := trackersAgree w s
  let s := learnTooth w (crankInUse s) j t s
  let s := if syncState s = 2 then
      let n := s.angle.lockedTeeth + 1
      let late := n = 4 * (w.teeth * (w.cycle / w.positions)) ∧ !s.angle.told040B
      let s := onAngle (fun a => { a with lockedTeeth := n, told040B := a.told040B || late }) s
      let s := if late then raise 0x040B 0x64 0 0 s else s
      if w.stroke = 4 ∧ s.angle.retest ∧ j % w.positions = 1 then freshTest s
      else if w.stroke = 4 then closeWindows w s
      else decidePhase w s
    else closeWindows w s
  benchmarkStake w j (recomputeAll (if phased s then toothStakes j coasted s else s))

/-- How tooth position `j` is reached. -/
inductive Arrival where
  /-- An accepted edge of the crank input in use. -/
  | edge
  /-- The accepted edge that confirms a change of direction: the chain holds through it, until the next position (wheel R61). -/
  | turning
  /-- Coasted (angle R95). -/
  | coast
  deriving DecidableEq, Repr

/-- Tooth position `j` is reached, by an accepted edge of the crank input in use or coasted. -/
def tooth (w : Wheel) (j : Nat) (how : Arrival) (s : State) : State :=
  let coasted := how == .coast
  let s := passTooth w (takeCfg s)
  let t := if coasted then s.angle.toothAt.add s.angle.predicted else Frac.int s.cyc
  let len := t.sub s.angle.toothAt
  let i := leaving w (reversed s) (rd s WHL_STATUS_TOOTH_POS)
  let fresh := !coasted && !coastedLast s
  let s := if coasted then s else learnFiring w j len s
  let s := recordTime w t (if fresh then some (Frac.div len (Frac.int (weight w i))) else none) (useMaps w j s)
  let s := judgeFast w (chooseBand w s)
  let s := onAngle (fun a => { a with coasts := if coasted then a.coasts + 1 else 0 }) s
  let s := toothDone w j coasted t (match how with
    | .edge => steerTooth w j s
    | .turning => s
    | .coast => steerCoast w j t s)
  match speedCause s w with
  | some c => lossOfSync w c none none s
  | none =>
    if !coasted && gapWrong w (reversed s) s.angle.recent then lossOfSync w 1 none none s else afterTooth w j coasted t s

/-! ### Searching the gap (wheel R46 to R50) -/

/-- The accepted edges, newest first, show a gap candidate one edge ago (R46). -/
def gapCandidate (w : Wheel) : List Nat → Bool
  | a :: b :: c :: d :: _ => decide (w.gapRatio * (c - d) ≤ 16 * (b - c)) && decide (w.gapRatio * (a - b) ≤ 16 * (b - c))
  | _ => false

/-- What an accepted edge changes in the search. -/
inductive Found where
  | nothing | sighted | seek | locked
  deriving DecidableEq, Repr

/-- An accepted edge in SEEK or SIGHTED (Table 2-6). -/
def Crank.searchEdge (w : Wheel) (edges : List Nat) (now : Nat) (x : Crank) : Crank × Found :=
  let cand := gapCandidate w edges
  if x.search = 0 then
    if cand then ({ x with search := 1, count := 0, since := [now] }, .sighted) else (x, .nothing)
  else
    let x := { x with count := x.count + 1, since := now :: x.since }
    if cand then
      if x.count = w.teeth then ({ x with search := 2 }, .locked) else ({ x with count := 0, since := [now] }, .nothing)
    else if w.teeth ≤ x.count then ({ x with search := 0, count := 0, since := [] }, .seek)
    else (x, .nothing)

/-- The period that ends at the newest edge is longer than the gap period at 8 rpm (R47). -/
def tooLong (w : Wheel) : List Nat → Bool
  | a :: b :: _ => decide ((w.missing + 1) * 3000000000 < (a - b) * w.positions)
  | _ => false

/-- The edge just accepted on crank input `i` is the first of a new sequence (R47). -/
def restartEdges (i : Nat) (s : State) : State :=
  onCrank i (fun x => { x with search := 0, count := 0, since := [] }) (onSensor i (fun y => { y with edges := y.edges.take 1 }) s)

/-- The search on crank input `i` takes the edge just accepted. -/
def searchOn (w : Wheel) (i : Nat) (s : State) : State × Found :=
  let l := (sensorAt s i).edges
  let x := crankAt s i
  if tooLong w l then (restartEdges i s, if x.search = 0 then .nothing else .seek)
  else
    let (x, f) := x.searchEdge w l s.cyc
    (onCrank i (fun _ => x) s, f)

/-- Sum and number of the accepted periods since SIGHTED, each divided by its w; the gap is the last but one (angle R88). -/
def earlyPeriods (w : Wheel) (since : List Nat) : Frac × Nat :=
  let l := (since.zip since.tail).map (fun (a, b) => Frac.int ((a : Int) - b))
  let l := match l with
    | a :: g :: r => a :: Frac.div g (Frac.int (w.missing + 1)) :: r
    | r => r
  (l.foldl Frac.add {}, l.length)

/-- Tracking begins on crank input `i` at this edge: only its periods since SIGHTED count. -/
def beginTracking (w : Wheel) (i : Nat) (s : State) : State :=
  let (sum, n) := earlyPeriods w (crankAt s i).since
  recordTime w (Frac.int s.cyc) none (onAngle (fun a =>
    { a with times := [], sum, sumN := n, recent := [], errs := [], coasts := 0, jumped := false }) s)

/-- The position of edge k + 1 of R46 in the first revolution (R50). -/
def lockTooth (w : Wheel) (back : Bool) : Nat := if back then w.positions - w.missing - 2 else 1

/-- The three positions before it, newest first, with their times. -/
def lockMarks (w : Wheel) (back : Bool) (edges : List Nat) : List Mark :=
  let p := if back then [w.positions - w.missing - 1, 0, 1] else [0, w.positions - w.missing - 1, w.positions - w.missing - 2]
  (p.zip (edges.drop 1)).map (fun (j, t) => ⟨j, Frac.int t, false⟩)

/-- Tracking begins at the confirmed gap of crank input `i`: the band, the marks before it, and the chain standing at H0 (R50, R52). -/
def lockOn (w : Wheel) (i : Nat) (s : State) : State :=
  let back := reversed s
  let j := lockTooth w back
  let s := judgeFast w (chooseBand w (beginTracking w i (takeCfg s)))
  let s := onAngle (fun a =>
    { a with recent := lockMarks w back (sensorAt s i).edges, lockedTeeth := 0, told040B := false }) s
  let c : Int := toothAngle w {} i j * unit
  let s := toothDone w j false (Frac.int s.cyc) (standAt c s)
  runOn w j (s.cyc + 3) c none ((s.angle.predicted).sub (Frac.int 3)) s

/-- The gap is confirmed on crank input `i`: LOCKED, under H0 (R50, R52). -/
def lock (w : Wheel) (i : Nat) (s : State) : State :=
  let s := decidePhase w (freshTest (setSync 2 (lockOn w i s)))
  match speedCause s w with
  | some x => lossOfSync w x none none s
  | none => s

/-- An accepted edge of the crank input in use in SEEK or SIGHTED. -/
def searchInUse (w : Wheel) (i : Nat) (s : State) : State :=
  let (s, f) := searchOn w i (passTooth w (wrB ANG_STATUS_FP_LEARNING false s))
  match f with
  | .nothing => s
  | .sighted => setSync 1 s
  | .seek => setSync 0 s
  | .locked => lock w i s

/-! ### Direction (wheel R56 to R63) -/

/-- The direction changes: the chain holds, a search begins again, and in PHASED the Armed and Running events end (R61 to R63).
(log entries 26, DEDUCED, 27, DEDUCED) -/
def setDirection (w : Wheel) (rev : Bool) (s : State) : State :=
  if reversed s = rev then s
  else
    let here := chain s
    let any := s.seq.descs.any (fun p => p.2.stage.fixed)
    let ran := s.seq.descs.any (fun p => p.2.stage.fixed && p.2.onAt.isSome)
    let s := holdChain (wrB WHL_STATUS_REVERSE rev s)
    let s := watchFrom (learnAbort 0x0144 s)
    let s := if w.reversible then wrB WHL_STATUS_ASTERN rev s else s
    let s := if syncState s = 1 then setSync 0 (restartSearch s) else s
    let s := if phased s ∧ (w.reversible ∨ rev) then seqReversed s else s
    let s := if phased s ∧ rev ∧ !w.reversible then
        raise 0x0409 0x64 0 ((if any then actEvent else 0) + if ran then actOff else 0)
          (onAngle (fun a => { a with reversal := some (a.reversal.getD here) }) s)
      else s
    acqConditions s

/-- A direction reading; the change that `DIR_CONFIRM` readings agree on (R59). -/
def readDirection (w : Wheel) (rev : Bool) (s : State) : Option Bool × State :=
  let s := wrB WHL_STATUS_DIR_VALID true s
  if rev = reversed s then (none, onAngle (fun a => { a with dirRun := 0 }) s)
  else
    let n := s.angle.dirRun + 1
    if n < w.dirConfirm then (none, onAngle (fun a => { a with dirRun := n }) s)
    else (some rev, onAngle (fun a => { a with dirRun := 0 }) s)

/-- The filtered level of input `i` without a change of this cycle. -/
def levelBefore (s : State) (i : Nat) : Bool :=
  let x := sensorAt s i
  x.level != (decide (0 < s.cyc) && x.changed == s.cyc)

/-- Quadrature: the level of crank B at an accepted edge of crank A, which is handled before an edge of crank B in the same cycle
(R56). (log entry 26, DEDUCED) -/
def quadEdge (w : Wheel) (s : State) : State :=
  if w.dirSrc ≠ 1 ∨ dirHeld s w then s
  else
    match readDirection w (levelBefore s 1 != w.quadFwd) s with
    | (some rev, s) => setDirection w rev s
    | (none, s) => s

/-- A confirmed pulse-width reading takes effect at an accepted edge of the crank input in use (R61). (log entry 26, DEDUCED) -/
def widthEdge (w : Wheel) (s : State) : State :=
  match s.angle.dirNext with
  | some rev => setDirection w rev (onAngle (fun a => { a with dirNext := none }) s)
  | none => s

/-- The predicted tooth period is too short for pulse-width readings (R58). (log entry 33, DEDUCED) -/
def tooFast (s : State) : Bool :=
  synced s && shortPulse s s.angle.predicted

/-- The pulse of crank input `i` ends: its width is read as a direction (R57). While R58 ignores readings, a width outside both ranges
is not counted either. (log entry 103, DESIGN CHOICE) -/
def pulseEnds (i : Nat) (s : State) : State :=
  match s.angle.wheel, (sensorAt s i).pulse with
  | some w, some t =>
    let s := onSensor i (fun x => { x with pulse := none }) s
    if w.dirSrc ≠ 2 ∨ srcOf s ≠ i then s
    else if tooFast s then wrB WHL_STATUS_DIR_VALID false s
    else
      let n := s.cyc - t
      let within := fun lo hi => decide (400 * rd s lo ≤ n) && decide (n ≤ 400 * rd s hi)
      if within WHL_DIR_CFG_FWD_MIN WHL_DIR_CFG_FWD_MAX || within WHL_DIR_CFG_REV_MIN WHL_DIR_CFG_REV_MAX then
        match readDirection w (within WHL_DIR_CFG_REV_MIN WHL_DIR_CFG_REV_MAX) s with
        | (some rev, s) => onAngle (fun a => { a with dirNext := some rev }) s
        | (none, s) => s
      else count WHL_NOISE_CAM_DIR_INVALID 1 s
  | _, _ => s

/-! ### Failover and cam limp (wheel R64 to R71) -/

/-- Cam limp begins; `i` is the crank input lost last (R69, angle R98, R99). `TOOTH_POS` keeps the last crank position until cam limp
ends. (log entry 104, DESIGN CHOICE) -/
def enterLimp (w : Wheel) (i : Nat) (s : State) : State :=
  let here := chain s
  let c := chainNow s
  let s := wr WHL_STATUS_CRANK_SRC 2 (wrB WHL_STATUS_LIMP true (wrB WHL_STATUS_DIR_VALID false (restartSearch s)))
  let s := raise 0x0403 (0x60 + i) 0 (actSync + actReduced) (learnAbort 0x0144 s)
  let s := onAngle (fun a => { a with limpSpeed := Frac.div (pitch w) a.mean, limpLast := none, cycleGood := false }) s
  let s := (camsOn s w).foldl (fun s k =>
    let behind := nextAmong (!reversed s) here ((w.cam k).map (fun e => e.angle))
    let a := if reversed s then (here + behind) % turn else (here + turn - behind) % turn
    fixFrozen w k ((camAt s k).last.getD a) s) s
  acqConditions (limpSteer w s.cyc here c none s)

/-- The search moves to crank input `i` in SEEK (R64). (log entry 29, DEDUCED) -/
def moveSearch (i : Nat) (s : State) : State := setSync 0 (wr WHL_STATUS_CRANK_SRC i (restartSearch s))

/-- Crank input `i` takes over the count of positions (R65), with its own K positions to coast. (log entry 107, DESIGN CHOICE) -/
def takeOver (i : Nat) (s : State) : State :=
  wr WHL_STATUS_CRANK_SRC i (onAngle (fun a => { a with coasts := 0 }) (learnAbort 0x0144 s))

/-- Crank input `i` is lost, found by `cause`: its fault, then failover, cam limp or loss of sync (R64 to R66, R69). (log entry 29, DEDUCED) -/
def loseCrank (w : Wheel) (i cause : Nat) (s : State) : State :=
  let o := 1 - i
  let can := w.bRole ≠ 0 ∧ crankServes s o
  let used := srcOf s = i
  let limp := phased s ∧ !(camTargets s w).isEmpty
  let quad := w.bRole = 1 ∧ can
  let act :=
    if !used then if w.dirSrc = 1 then actReduced else 0
    else if !synced s then if can then actSync else 0
    else actSync + if quad ∨ limp then actReduced else 0
  let s := raise (0x0401 + i) (0x60 + i) 0 act (wrB (lostFld i) true (learnLost i s))
  let s := if dirHeld s w then wrB WHL_STATUS_DIR_VALID false s else s
  let s := if !synced s ∧ quadHeld s w ∧ !w.reversible then wrB WHL_STATUS_REVERSE false s else s
  if !used then s
  else if !synced s then if can then moveSearch o s else s
  else if quad then takeOver o s
  else if limp then enterLimp w i s
  else lossOfSync w cause (some i) none s

/-- The other crank input is lost at the second accepted edge of input `i` in a row (R64). -/
def lossTest (w : Wheel) (i : Nat) (s : State) : State :=
  if w.bRole = 0 then s
  else
    let o := 1 - i
    let s := onCrank o (fun x => { x with alone := 0 }) (onCrank i (fun x => { x with alone := x.alone + 1 }) s)
    if 2 ≤ (crankAt s i).alone ∧ crankServes s o then loseCrank w o 4 s else s

/-- A background search on crank input `i` has found its position: it takes over the chain, or the disagreement is counted
(R71). (log entries 32, DEDUCED, 104, DESIGN CHOICE) -/
def leaveLimp (w : Wheel) (i : Nat) (s : State) : State :=
  let back := reversed s
  let here := chain s
  let j0 := lockTooth w back
  let t := beginTracking w i (takeCfg s)
  let fits := fun j =>
    let d := signed 24 (ofSigned 24 ((trueAngle t w i j : Int) - here))
    decide (2 * d.natAbs * w.cycle ≤ turn)
  match (if w.stroke = 4 then [j0, j0 + w.positions] else [j0]).find? fits with
  | none =>
    onCrank i (fun x => { x with search := 1, count := 0, since := [s.cyc] }) (count WHL_LOSS_LIMP_DISAGREE 1 s)
  | some j =>
    let t := wrB ANG_STATUS_FP_LEARNING false (wr WHL_STATUS_CRANK_SRC i (wrB WHL_STATUS_LIMP false (wrB (lostFld i) false t)))
    let t := onAngle (fun a => { a with shadow := { a.shadow with at_ := t.cyc, start := chainNow t, back } }) t
    let t := judgeFast w (chooseBand w t)
    let t := acqConditions (toothDone w j false (Frac.int t.cyc) (steerTooth w j t))
    match speedCause t w with
    | some x => lossOfSync w x none none t
    | none => recomputeAll t

/-- An accepted edge of crank input `i` in cam limp (R66, R71). -/
def background (w : Wheel) (i : Nat) (s : State) : State :=
  if i = 1 ∧ w.bRole = 0 then s
  else
    let (s, f) := searchOn w i (wrB ANG_STATUS_FP_LEARNING false s)
    if f = .locked then leaveLimp w i s else s

/-- The tooth position of the edge that crank input `i` delivers now, by the chain (R44, R68). (log entry 28, DEDUCED) -/
def nearPos (s : State) (w : Wheel) (i : Nat) : Option Nat :=
  if !synced s || limping s then none
  else
    let a := ofSigned 24 ((chain s : Int) - filterLag s w i - w.tooth0 - crankOffset w i)
    let k := (roundDiv (a * w.cycle : Nat) turn).toNat % w.cycle
    if isMissing w k then
      let r := k % w.positions - w.teeth
      some (if w.missing ≤ 2 * r then (k + w.missing - r) % w.cycle else (k + w.cycle - 1 - r) % w.cycle)
    else some k

/-- An accepted crank A edge towards crank A's return (R68): the state, and whether it has taken position `j` over. (log entry 36, DEDUCED) -/
def returnTest (w : Wheel) (prev : Option Nat) (s : State) : State × Bool :=
  match (crankAt s 0).pos with
  | none => (onCrank 0 (fun x => { x with good := 0 }) s, false)
  | some j =>
    let d := signed 24 (ofSigned 24 ((trueAngle s w 0 j : Int) - chain s))
    let close := decide (8 * d.natAbs * w.cycle ≤ turn)
    let next := match prev with
      | some p => decide (followTooth w (reversed s) p = j)
      | none => false
    let n := if !close then 0 else if next then (crankAt s 0).good + 1 else 1
    if n < w.teeth ∨ !w.crankReturn then (onCrank 0 (fun x => { x with good := n }) s, false)
    else
      let from_ := srcOf s
      let s := wr WHL_STATUS_CRANK_SRC 0 (wrB WHL_STATUS_A_LOST false (onCrank 0 (fun x => { x with good := 0 }) s))
      if from_ = 0 then (s, false)
      else (if rd s WHL_STATUS_TOOTH_POS = j then s else tooth w j .edge s, true)

end Sys2Proof.Machine
end

