-- ==== Sys2Proof/Machine/Wheel.lean ====
section
/-! DEFINITION. The events of the wheel inputs: filtered edges, VR arming, coasting, frozen inputs, cam windows and waits of the
chain, and the input configuration (wheel R37 to R60, angle R93 to R98). -/
namespace Sys2Proof.Machine

/-! ### VR arming (wheel R37) -/

/-- The shorter of the last two accepted periods of an input, from its accepted edges. -/
def shorterPeriod : List Nat → Option Nat
  | a :: b :: c :: _ => some (min (a - b) (b - c))
  | _ => none

/-- The same for the arming of a VR input, where a single period stands for both. (log entry 102, DESIGN CHOICE) -/
def armingPeriod : List Nat → Option Nat
  | [a, b] => some (a - b)
  | l => shorterPeriod l

/-- The period by which input `i` falls back to its floor, if it has one. (log entry 102, DESIGN CHOICE) -/
def armPeriod (s : State) (i : Nat) : Option Frac :=
  let l := (sensorAt s i).edges
  if i < 2 then
    if synced s && !limping s then some s.angle.predicted else (armingPeriod l).map (fun n => Frac.int n)
  else
    match l with
    | a :: b :: _ => some (Frac.int ((a : Int) - b))
    | _ => none

/-- The arming threshold of input `i`, in 1/8 mV: the larger of the floor and what the last accepted tooth set. -/
def armThreshold (s : State) (i : Nat) : Nat := max (400 * rd s (WHL_IN_CFG_VR_FLOOR i)) ((sensorAt s i).armed.getD 0)

/-- A VR zero crossing whose signal reached `peak` mV before it has not armed. -/
def unarmed (s : State) (i peak : Nat) : Bool := isSet s (WHL_IN_CFG_TYPE i) && decide (8 * peak < armThreshold s i)

/-- Timing edge of input `i`: a rising edge where `EDGE` is 1 (Table 2-2). -/
def isTiming (s : State) (i : Nat) (rising : Bool) : Bool := rising == isSet s (WHL_IN_CFG_EDGE i)

/-- Input `i` accepts a timing edge whose peak was `peak` mV: its time and the threshold of the next tooth. (log entry 25, DEDUCED) -/
def acceptEdge (i peak : Nat) (s : State) : State :=
  let s := onSensor i (fun x => { x with edges := (s.cyc :: x.edges).take 4, pulse := if i < 2 then some s.cyc else none }) s
  onSensor i (fun x => { x with
    armed := if (armPeriod s i).isSome then some (rd s (WHL_IN_CFG_ARM_FRAC i) * peak) else none }) s

/-- The filtered level of input `i` changes; pulse programs see it (pulse R170). -/
def levelChange (i : Nat) (rising : Bool) (s : State) : State :=
  pulseLevel i rising (onSensor i (fun x => { x with level := rising, changed := s.cyc }) s)

/-! ### Crank edges -/

/-- The reference period of the noise window of crank input `i` (wheel R44). (log entries 24, DEDUCED, 28, DEDUCED) -/
def noiseRef (s : State) (w : Wheel) (i : Nat) : Option Frac :=
  (shorterPeriod (sensorAt s i).edges).map (fun own =>
    if !synced s || limping s then Frac.int own
    else if srcOf s = i then s.angle.predicted
    else match (crankAt s i).pos with
      | some j => period s w (leaving w (reversed s) j)
      | none => s.angle.predicted)

/-- An edge now on crank input `i` arrives within the noise window (wheel R43). -/
def tooEarly (s : State) (w : Wheel) (i : Nat) : Bool :=
  match (sensorAt s i).edges, noiseRef s w i with
  | e :: _, some r => (Frac.int (16 * ((s.cyc : Int) - e))).lt (r.mul (Frac.int w.noise))
  | _, _ => false

/-- A rejected edge counts; the 17th of a revolution raises `F_0407` (wheel R43, R45). -/
def rejectEdge (i : Nat) (s : State) : State :=
  let s := count (if i = 1 then WHL_NOISE_CRANK_B else WHL_NOISE_CRANK_A) 1 s
  let n := (crankAt s i).revNoise + 1
  let told := (crankAt s i).noisy
  let s := onCrank i (fun x => { x with revNoise := n, noisy := x.noisy || decide (n = 17) }) s
  if n = 17 ∧ !told then raise 0x0407 (0x60 + i) 0 0 s else s

/-- An accepted edge counts towards the revolution of R45; the next revolution begins after it when it was the last. -/
def countEdge (w : Wheel) (x : Crank) : Crank :=
  if w.teeth ≤ x.revEdges + 1 then { x with revEdges := 0, revNoise := 0, noisy := false } else { x with revEdges := x.revEdges + 1 }

/-- What an accepted edge of crank input `i` does first: it counts, and tells direction and the loss of the other input (R56 to R61,
R64). -/
def crankAccepted (w : Wheel) (i peak : Nat) (s : State) : State :=
  let s := onAngle (fun a => { a with lastTooth := some s.cyc }) (acceptEdge i peak s)
  let s := onCrank i (fun x => { countEdge w x with pos := nearPos s w i }) s
  let s := if i = 0 then quadEdge w s else s
  lossTest w i (if srcOf s = i then widthEdge w s else s)

/-- Crank A out of use may return to it with this edge of input `i`; true when its tooth has been taken (R68). -/
def crankReturns (w : Wheel) (i : Nat) (prev : Option Nat) (s : State) : State × Bool :=
  if i = 0 ∧ (srcOf s = 1 ∨ (srcOf s = 0 ∧ isSet s WHL_STATUS_A_LOST)) then returnTest w prev s else (s, false)

/-- What an accepted edge of crank input `i` is to the trackers: a search, a tooth, or an edge that only learns; `turned` tells that it
has changed the direction (R46 to R71). -/
def crankTracks (w : Wheel) (i : Nat) (turned : Bool) (s : State) : State :=
  if srcOf s = i then
    if synced s then tooth w (followTooth w (reversed s) (rd s WHL_STATUS_TOOTH_POS)) (if turned then .turning else .edge) s
    else searchInUse w i s
  else if !synced s ∧ tooLong w (sensorAt s i).edges then restartEdges i s
  else
    match (crankAt s i).pos with
    | some j => learnTooth w i j (Frac.int s.cyc) s
    | none => s

/-- An accepted edge of crank input `i` (wheel R46 to R71). -/
def acceptedCrank (w : Wheel) (i peak : Nat) (s : State) : State :=
  let t := crankAccepted w i peak s
  let r := crankReturns w i (crankAt s i).pos t
  if limping t then background w i r.1
  else if r.2 then r.1
  else crankTracks w i (reversed s != reversed t) r.1

/-- The filter of input `i` can pass a change now: the input has held its new level for `FILTER_N` cycles since the filter passed the
last change (R38). (log entry 108, DEDUCED) -/
def filterPasses (s : State) (i : Nat) : Bool :=
  decide ((sensorAt s i).changed + rd s (WHL_IN_CFG_FILTER_N i) ≤ s.cyc)

/-- The filtered level of crank input `i` changes; a VR crossing that has not armed is none. (log entry 108, DEDUCED) -/
def crankEdge (i : Nat) (rising : Bool) (peak : Nat) (s : State) : State :=
  if !inputOn s i || (sensorAt s i).level == rising || !filterPasses s i then s
  else if !isTiming s i rising then pulseEnds i (levelChange i rising s)
  else if unarmed s i peak then s
  else
    let s := leaveDoze (levelChange i rising s)
    if !domainOn s 44 then onAngle (fun a => { a with lastTooth := some s.cyc }) s
    else match s.angle.wheel with
    | none => onAngle (fun a => { a with lastTooth := some s.cyc }) (acceptEdge i peak s)
    | some w => if tooEarly s w i then rejectEdge i s else acceptedCrank w i peak s

/-- `CRANK_EDGE`: crank input A or B filters an edge; `peak` is the amplitude in mV that a VR signal reached before it. -/
def execCrankEdge (dt : Nat) (b rising : Bool) (peak : BitVec 16) (s : State) : Host.Outcome State Fault Refusal :=
  event dt (crankEdge b.toNat rising peak.toNat) s

/-! ### Cam edges -/

/-- The filtered level of cam input `k` changes. (log entry 108, DEDUCED) -/
def camEdge (k : Nat) (rising : Bool) (peak : Nat) (s : State) : State :=
  let i := k + 2
  if !inputOn s i || (sensorAt s i).level == rising || !filterPasses s i then s
  else if isTiming s i rising && unarmed s i peak then s
  else
    let s := levelChange i rising s
    let s := if isTiming s i rising then acceptEdge i peak s else s
    match s.angle.wheel with
    | none => s
    | some w => camPattern w k rising s

/-- `CAM_EDGE`: cam input A or B filters an edge. -/
def execCamEdge (dt : Nat) (b rising : Bool) (peak : BitVec 16) (s : State) : Host.Outcome State Fault Refusal :=
  event dt (camEdge b.toNat rising peak.toNat) s

/-- `CAM_WINDOW_EXPIRY`: the chain has passed the end of a cam window (R52, R55). -/
def execCamWindowExpiry (dt : Nat) (s : State) : Host.Outcome State Fault Refusal :=
  event dt (fun s =>
    match s.angle.wheel with
    | some w => closeWindows w s
    | none => s) s

/-- The VR input `i` falls back to its floor (R37). -/
def vrTimeout (i : Nat) (s : State) : State :=
  match (sensorAt s i).edges, armPeriod s i with
  | e :: _, some p =>
    if (p.mul (Frac.int 2)).le (Frac.int ((s.cyc : Int) - e)) then onSensor i (fun x => { x with armed := none }) s else s
  | _, _ => s

/-- `VR_ARM_TIMEOUT`: no arming within twice the period. -/
def execVrArmTimeout (dt : Nat) (input : Fin 4) (s : State) : Host.Outcome State Fault Refusal :=
  event dt (vrTimeout input.val) s

/-! ### Coasting, frozen inputs, waits -/

/-- Position after the present one is coasted, its deadline past (angle R95 to R97). -/
def coastTooth (w : Wheel) (s : State) : State :=
  let a := s.angle
  if !synced s || limping s || !(a.toothAt.add (a.predicted.mul (Frac.make 3 2))).le (Frac.int s.cyc) then s
  else
    let j := followTooth w (reversed s) (rd s WHL_STATUS_TOOTH_POS)
    if j % w.positions = 0 then lossOfSync w 1 none none s
    else if angCfg s ANG_CFG_COAST_K + 1 ≤ a.coasts then
      let i := srcOf s
      loseCrank w i 2 (raise 0x0420 (0x60 + i) 0 actSync s)
    else tooth w j .coast s

/-- `COAST`: no accepted edge by 1.5 predicted periods. (log entry 32, DEDUCED) -/
def execCoast (dt : Nat) (s : State) : Host.Outcome State Fault Refusal :=
  event dt (fun s =>
    match s.angle.wheel with
    | some w => coastTooth w s
    | none => s) s

/-- The time without a level change on input `i` after which it is frozen; `none` where it is not tested (angle R98). -/
def frozenAfter (s : State) (w : Wheel) (i : Nat) : Option Frac :=
  if !synced s then none
  else if i < 2 then if limping s || !crankServes s i then none else some s.angle.predicted
  else if limping s && camServes s w (i - 2) then (camAt s (i - 2)).frozenRef
  else none

/-- Input `i` is frozen: a crank input is lost, a cam input goes out of service. -/
def freeze (w : Wheel) (i : Nat) (s : State) : State :=
  match frozenAfter s w i with
  | none => s
  | some r =>
    if !((r.mul (Frac.int (angCfg s ANG_CFG_FROZEN_F + 1 : Nat))).le (Frac.int ((s.cyc : Int) - (sensorAt s i).changed))) then s
    else if i < 2 then
      loseCrank w i 3 (raise 0x0421 (0x60 + i) 0 (if srcOf s = i then actSync else 0) s)
    else
      let p := alongNow s
      let s := onCam (i - 2) (fun x => { x with out := true, matched := 0, misses := 0, runFrom := p }) s
      let last := (camTargets s w).isEmpty
      let s := raise 0x0421 (0x60 + i) 0 (if last then actSync else actReduced) s
      if last then lossOfSync w 3 none none s else s

/-- `FROZEN_INPUT`: no level change on an input for F reference times. -/
def execFrozenInput (dt : Nat) (input : Fin 4) (s : State) : Host.Outcome State Fault Refusal :=
  event dt (fun s =>
    match s.angle.wheel with
    | some w => freeze w input.val s
    | none => s) s

/-- The chain's course has reached its stake (angle R93). -/
def atStake (s : State) : Bool :=
  match s.angle.courses.find? (fun c => decide (c.at_ ≤ s.cyc)) with
  | none => false
  | some c =>
    let d : Int := (s.cyc - c.at_ : Nat) * c.step
    c.step != 0 && match c.stake with
      | none => false
      | some t => if c.back then decide (c.start - d ≤ t) else decide (t ≤ c.start + d)

/-- `CHAIN_WAIT`: the chain waits at the stake; each wait counts once. (log entry 39, DEDUCED) -/
def execChainWait (dt : Nat) (s : State) : Host.Outcome State Fault Refusal :=
  event dt (fun s =>
    if synced s && atStake s && !s.angle.waited then countWait (onAngle (fun a => { a with waited := true }) s) else s) s

/-! ### Configuration (wheel R39, R60, angle R113) -/

/-- A write of `WHL_IN_CFG` of input `i`; enabling a crank input begins its count of R45 anew. -/
def whlInWrite (i : Nat) (x : Word) (s : State) : State :=
  let off := WHL_IN_CFG i
  if rotating s then flag WHL_STATUS_CFG_REJ { s with sw := off :: s.sw }
  else
    let was := inputOn s i
    let s := swWrite off (globalFields off) x s
    if i < 2 ∧ !was ∧ inputOn s i then onCrank i (fun c => { c with revEdges := 0, revNoise := 0, noisy := false }) s else s

/-- `WHL_IN_CFG_WRITE`. -/
def execWhlInCfgWrite (dt : Nat) (i : Fin 4) (x : Word) (s : State) : Host.Outcome State Fault Refusal :=
  event dt (writes 0 (WHL_IN_CFG i) (whlInWrite i.val x)) s

/-- A write of `WHL_DIR_CFG`, discarded unless the limits rise. -/
def whlDirWrite (x : Word) (s : State) : State :=
  if bits x 7 0 < bits x 15 8 ∧ bits x 15 8 < bits x 23 16 ∧ bits x 23 16 < bits x 31 24 then
    swWrite WHL_DIR_CFG (globalFields WHL_DIR_CFG) x s
  else flag WHL_STATUS_CFG_REJ { s with sw := WHL_DIR_CFG :: s.sw }

/-- `WHL_DIR_CFG_WRITE`. -/
def execWhlDirCfgWrite (dt : Nat) (x : Word) (s : State) : Host.Outcome State Fault Refusal := event dt (writes 0 WHL_DIR_CFG (whlDirWrite x)) s

/-- Strictly rising. -/
def rising : List Nat → Bool
  | a :: b :: r => decide (a < b) && rising (b :: r)
  | _ => true

/-- The offset of band register `k`. -/
def bandOff (k : Nat) : Nat := [ANG_BAND0, ANG_BAND1, ANG_BAND2, ANG_BAND3].getD k ANG_BAND0

/-- A write of `ANG_BAND0` to `ANG_BAND3`; a change of a limit clears the firing pattern table. -/
def bandWrite (k : Nat) (x : Word) (s : State) : State :=
  let off := bandOff k
  let t := swWrite off (globalFields off) x s
  if rotating s || !rising (bandLimits t) then flag ANG_STATUS_CFG_REJ { s with sw := off :: s.sw }
  else if bandLimits t = bandLimits s then t
  else clearFiring t

/-- `ANG_BAND_WRITE`. -/
def execAngBandWrite (dt : Nat) (k : Fin 4) (x : Word) (s : State) : Host.Outcome State Fault Refusal :=
  event dt (writes 0 (bandOff k) (bandWrite k.val x)) s

end Sys2Proof.Machine
end

