-- ==== Sys2Proof/Machine/WheelCmd.lean ====
section
/-! DEFINITION. Wheel and angle commands, benchmark crossings and the end of closure learning (wheel R40, R41, R74, angle R81,
R102 to R110, scheduling R150, R153, command reference R519). -/
namespace Sys2Proof.Machine

/-! ### LOAD_WHEEL (wheel R40, R41, Table 19-4) -/

/-- The first `n` edges of a pattern whose words begin at `base`. -/
def patternOf (m : Msg) (base n : Nat) : List CamEdge :=
  (List.range n).map (fun i => let x := word m (base + i); { angle := bits x 31 8, rising := bitOf x.toNat 0 })

/-- The wheel description of Table 19-4. -/
def wheelOf (m : Msg) : Wheel :=
  let v0 := word m 0
  let v3 := word m 3
  let v4 := word m 4
  let missing := bits v0 21 20
  let gap := bits v0 15 10
  { positions := bits v0 31 22, missing, stroke := bits v0 19 16
    gapRatio := if gap = 0 then if missing = 1 then 24 else 36 else gap
    noise := bits v0 9 6, bRole := bits v0 5 4, dirSrc := bits v0 3 2, quadFwd := bitOf v0.toNat 1, reversible := bitOf v0.toNat 0
    tooth0 := bits (word m 1) 31 8, bOffset := signed 24 (bits (word m 2) 31 8)
    camTol := bits v3 31 8, dirConfirm := bits v3 7 5, phaseConfirm := bits v3 4 0
    camFault := bits v4 31 28, limpEvents := bitOf v4.toNat 27, crankReturn := bitOf v4.toNat 26
    camA := patternOf m 5 (bits v4 25 21), camB := patternOf m 21 (bits v4 20 16) }

/-- `lo ≤ x ≤ hi`. -/
def inside (lo hi x : Nat) : Bool := decide (lo ≤ x) && decide (x ≤ hi)

/-- The first word of a wheel description that holds a reserved bit or a field out of its range (Tables 2-3, 19-4). -/
def wheelBad (m : Msg) : Option Nat :=
  let w := wheelOf m
  let v4 := word m 4
  let nA := bits v4 25 21
  let nB := bits v4 20 16
  let masks := [0xFFFFFFFF, 0xFFFFFF00, 0xFFFFFF00, 0xFFFFFFFF, 0xFFFF0000] ++
    (List.range 16).map (fun i => if i < nA then 0xFFFFFF01 else 0) ++ (List.range 16).map (fun i => if i < nB then 0xFFFFFF01 else 0)
  let ok0 := inside 12 720 w.positions && inside 1 2 w.missing && (w.stroke == 2 || w.stroke == 4) && inside 24 56 w.gapRatio &&
    inside 4 15 w.noise && inside 0 2 w.bRole && inside 0 2 w.dirSrc
  let ok3 := inside 11651 1048576 w.camTol && inside 1 4 w.dirConfirm && inside 1 16 w.phaseConfirm
  let ok4 := inside 1 8 w.camFault && inside 0 16 nA && inside 0 16 nB
  let fields := if !ok0 then some 0 else if !ok3 then some 3 else if !ok4 then some 4 else none
  match fields, reservedBad m masks with
  | some a, some b => some (min a b)
  | some a, none => some a
  | none, r => r

/-- Circular distance of two angles. -/
def apart (a b : Nat) : Nat := min (ahead false a b) (ahead true a b)

/-- Two edges of a pattern lie closer than twice the tolerance. -/
def overlaps (tol : Nat) : List CamEdge → Bool
  | [] => false
  | e :: l => l.any (fun f => decide (apart e.angle f.angle < 2 * tol)) || overlaps tol l

/-- Every edge of a pattern, moved by half a cycle, finds an edge of its polarity within twice the tolerance. -/
def ambiguous (tol : Nat) (l : List CamEdge) : Bool :=
  !l.isEmpty && l.all (fun e => l.any (fun f =>
    f.rising == e.rising && decide (apart ((e.angle + 8388608) % turn) f.angle ≤ 2 * tol)))

/-- The refusal of a description that is in range (Table 2-4). (log entry 38, DEDUCED) -/
def wheelRefusal (w : Wheel) : Option Nat :=
  if 16 * (w.missing + 1) ≤ w.gapRatio then some 0x0131
  else if w.bRole = 0 ∧ w.dirSrc = 1 then some 0x0132
  else if w.reversible ∧ w.dirSrc = 0 then some 0x0133
  else if overlaps w.camTol w.camA || overlaps w.camTol w.camB then some 0x0134
  else if w.stroke = 4 ∧ (ambiguous w.camTol w.camA || ambiguous w.camTol w.camB) then some 0x0135
  else none

/-- Crank input `i` takes its map from flash where the key matches and the entries pass (angle R105). -/
def loadMap (w : Wheel) (i : Nat) (s : State) : State :=
  match Tbl.find s.angle.flashMaps i with
  | none => setMap i {} 0 s
  | some f =>
    if f.key = w.key ∧ f.sound then setMap i f.map f.place s
    else raise 0x0422 (0x60 + i) 0 actReduced (setMap i {} 0 s)

/-- The firing pattern table is reloaded where its key and the place of the map match those of crank A, which comes into use, else cleared
(angle R110). -/
def loadFiring (w : Wheel) (s : State) : State :=
  let s := onAngle (fun a => { a with tableDirty := false }) (clearFiring s)
  match s.angle.flashTable with
  | none => s
  | some t =>
    if t.key = w.key ∧ t.input = 0 ∧ t.place = s.angle.places.1 then
      (List.range 8).foldl (fun s b => wr (fpCycles b) (t.counts.getD b 0) s) (onAngle (fun a => { a with firing := t.entries }) s)
    else s

/-- A wheel description comes into force: SEEK on crank A (wheel R40, R74). -/
def useWheel (w : Wheel) (s : State) : State :=
  let s := onAngle (fun a =>
    { a with wheel := some w, cams := [], dirRun := 0, dirNext := none, dirUnknown := false, reversal := none, retest := false }) s
  let s := restartSearch s
  let s := [WHL_STATUS_A_LOST, WHL_STATUS_B_LOST, WHL_STATUS_CAMA_FAULT, WHL_STATUS_CAMB_FAULT].foldl (fun s f => wrB f false s) s
  let s := wrB WHL_STATUS_DIR_VALID false (if w.dirSrc = 0 then wrB WHL_STATUS_REVERSE false s else s)
  let s := wrB WHL_STATUS_ASTERN (w.reversible && reversed s) (wr WHL_STATUS_CRANK_SRC 0 s)
  loadFiring w (loadMap w 1 (loadMap w 0 (setSync 0 s)))

/-- `LOAD_WHEEL (0x0130)`; `sound` tells whether its angle pairs pass at hop 2. -/
def loadWheel (sound : Bool) (m : Msg) (s : State) : State :=
  if rotating s then refuse 0x0130 m 5 s
  else match wheelBad m with
    | some i => respond 0x0130 m 0x0130 i [] s
    | none =>
      if !sound then hop2 0x0130 0xFFFF m s
      else match wheelRefusal (wheelOf m) with
        | some c => refuse 0x0130 m c s
        | none => ok 0x0130 m (useWheel (wheelOf m) s)

/-- `LOAD_WHEEL`: a wheel description. -/
def execLoadWheel (m : Msg) (sound : Bool) (s : State) : Host.Outcome State Fault Refusal := command 0x0130 m (loadWheel sound m) s

/-! ### RESYNC and LOAD_STATIONS -/

/-- `RESYNC (0x0131)`: SEEK, on crank A when it is in service (wheel R68, R74, Table 2-6). -/
def resync (m : Msg) (s : State) : State :=
  match s.angle.wheel with
  | none => refuse 0x0131 m 6 s
  | some w =>
    if s.angle.stations = [] then refuse 0x0131 m 6 s
    else
      let src := if inputOn s 0 then 0 else if limping s then 0 else srcOf s
      ok 0x0131 m (
        if synced s then lossOfSync w 9 none (some src) s
        else if syncState s = 1 then
          let s := wrB WHL_STATUS_A_LOST false (wrB WHL_STATUS_B_LOST false s)
          setSync 0 (wr WHL_STATUS_CRANK_SRC src (restartSearch s))
        else s)

/-- `RESYNC`. -/
def execResync (m : Msg) (s : State) : Host.Outcome State Fault Refusal := command 0x0131 m (resync m) s

/-- `LOAD_STATIONS (0x0132)` (angle R80, R81): the count, the length, R36, then the angles. -/
def loadStations (sound : Bool) (m : Msg) (s : State) : State :=
  let n := bits (word m 0) 4 0
  if n = 0 ∨ 24 < n then refuse 0x0132 m 0x0136 s
  else if m.words.length ≠ n + 1 then respond 0x0132 m 0x0B 0xFF [] s
  else if rotating s then refuse 0x0132 m 5 s
  else match reservedBad m (0x1F :: List.replicate n 0xFFFFFF00) with
    | some i => respond 0x0132 m 0x0136 i [] s
    | none =>
      if !sound then hop2 0x0132 0xFFFF m s
      else
        let l := (m.words.drop 1).map (fun x => bits x 31 8)
        if l.headD 1 ≠ 0 ∨ !l.Nodup then refuse 0x0132 m 0x0136 s
        else ok 0x0132 m (onAngle (fun a => { a with stations := l }) s)

/-- `LOAD_STATIONS`: the station table. -/
def execLoadStations (m : Msg) (sound : Bool) (s : State) : Host.Outcome State Fault Refusal := command 0x0132 m (loadStations sound m) s

/-! ### Closure learning (angle R102, R103) -/

/-- The maps come from the partner (pairing Table 10-3). (log entry 38, DEDUCED) -/
def mirrored (s : State) : Bool := rd s PAIR_STATUS_ROLE == 2 && decide (2 ≤ rd s PAIR_STATUS_VERSION)

/-- The crank inputs in service under the wheel description. -/
def cranksOn (s : State) (w : Wheel) : List Nat := (List.range 2).filter (fun i => crankServes s i && (i == 0 || w.bRole != 0))

/-- `LEARN_CLOSURE (0x0140)`: the first condition of Table 3-2 that holds refuses it. -/
def learnClosure (m : Msg) (s : State) : State :=
  let v := word m 0
  let force := bitOf v.toNat 8
  let n := if bits v 7 0 = 0 then 16 else bits v 7 0
  if !synced s || limping s then refuse 0x0140 m 0x0A s
  else if injecting s && !force then refuse 0x0140 m 0x0140 s
  else if reversed s then refuse 0x0140 m 0x0141 s
  else if s.angle.learn.isSome then refuse 0x0140 m 4 s
  else if n < 8 ∨ 64 < n then refuse 0x0140 m 0x0142 s
  else if 512 ≤ v.toNat then respond 0x0140 m 0x0142 0 [] s
  else if mirrored s then refuse 0x0140 m 0x0147 s
  else match s.angle.wheel with
    | none => refuse 0x0140 m 0x0A s
    | some w =>
      let cycles := if force then 64 else n
      let revs := if w.stroke = 2 then cycles else 2 * cycles
      wrB ANG_STATUS_CL_LEARNING true
        (onAngle (fun a => { a with learn := some { cmd := m, force, revs, inputs := cranksOn s w } }) s)

/-- `LEARN_CLOSURE`: begins closure learning; its answer comes at the end. -/
def execLearnClosure (m : Msg) (s : State) : Host.Outcome State Fault Refusal := command 0x0140 m (learnClosure m) s

/-- The new maps of a completed learning: input and map, `none` where an entry is out of range. -/
def learned (w : Wheel) (l : Learn) : List (Nat × Option ClosureMap) :=
  l.inputs.map (fun i => (i, learnMap w l.revs (if l.force then 2 else 1) (Tbl.get {} l.tracks i)))

/-- The qualities in the answer: the new map's where one was learned (Table 19-3). -/
def learnAnswer (s : State) (maps : List (Nat × Option ClosureMap)) : Word :=
  let new := fun i => (maps.find? (fun x => x.1 == i)).bind (fun x => x.2)
  let q := fun i => match new i with
    | some c => c.quality
    | none => rd s (qualFld i)
  wd (q 0 + 4 * q 1 + (if (new 0).isSome then 256 else 0) + if (new 1).isSome then 512 else 0)

/-- Closure learning that has completed or was aborted is reported; new maps wait for tooth position 0 or P (R103, R104). -/
def learnEnd (s : State) : State :=
  match s.angle.learn, s.angle.wheel with
  | some l, some w =>
    match l.outcome with
    | none => s
    | some code =>
      let s := flag ANG_STATUS_LEARN_DONE (wrB ANG_STATUS_CL_LEARNING false (onAngle (fun a => { a with learn := none }) s))
      if code ≠ 0 then refuse 0x0140 l.cmd code s
      else
        let maps := learned w l
        let wait := maps.filterMap (fun (i, x) => x.map (fun c => ({ input := i, key := w.key, map := c, cmd := none } : MapWait)))
        let s := onAngle (fun a => { a with mapNext := a.mapNext ++ wait }) s
        if maps.any (fun x => x.2.isNone) then refuse 0x0140 l.cmd 0x0142 s
        else respond 0x0140 l.cmd 0 0 [learnAnswer s maps] s
  | _, _ => s

/-- `CLOSURE_LEARN_END`. -/
def execClosureLearnEnd (dt : Nat) (s : State) : Host.Outcome State Fault Refusal := event dt learnEnd s

/-- With FORCE = 0 an event that is armed ends learning (Table 3-2); the Sequencer arms in its pace. (log entry 34, DEDUCED) -/
def learnWatch (s : State) : State :=
  match s.angle.learn with
  | some l => if !l.force && s.seq.descs.any (fun p => p.2.stage.fixed) then learnAbort 0x0140 s else s
  | none => s

/-! ### Closure maps (angle R100, R104, R105) -/

/-- Two entries in one word of `CLOSURE_MAP_GET`. -/
def mapWord (m : ClosureMap) (k : Nat) : Word :=
  wd (ofSigned 16 (Tbl.get 0 m.entries (2 * k)) + 65536 * ofSigned 16 (Tbl.get 0 m.entries (2 * k + 1)))

/-- The response of `CLOSURE_MAP_GET` while a wheel is loaded: its key and quality, then the entries. -/
def mapWords (w : Wheel) (c : ClosureMap) : List Word :=
  let r0 := w.positions * 2 ^ 22 + w.missing * 2 ^ 20 + (if w.stroke = 4 then 2 ^ 19 else 0) + c.quality * 2 ^ 17
  [wd r0, wd (w.tooth0 * 256)] ++ (List.range ((w.positions + 1) / 2)).map (mapWord c)

/-- `CLOSURE_MAP_GET (0x0141)`. -/
def mapGet (m : Msg) (s : State) : State :=
  match reservedBad m [1] with
  | some i => respond 0x0141 m 0x0B i [] s
  | none =>
    let c := mapOf s (word m 0).toNat
    match s.angle.wheel with
    | none => respond 0x0141 m 0 0 [wd (c.quality * 2 ^ 17), 0] s
    | some w =>
      respond 0x0141 m 0 0 (mapWords w c) s

/-- `CLOSURE_MAP_GET`: a crank input's map. -/
def execClosureMapGet (m : Msg) (s : State) : Host.Outcome State Fault Refusal := command 0x0141 m (mapGet m) s

/-- The entries of `CLOSURE_MAP_PUT`, by revolution position. (log entry 35, DEDUCED) -/
def putEntries (m : Msg) : List (Nat × Int) :=
  let l := (m.words.drop 2).map (fun x => signed 16 (bits x 15 0))
  (List.range l.length).zip l

/-- A written map breaks R100. -/
def mapBreaks (w : Wheel) (quality : Nat) (l : List (Nat × Int)) : Bool :=
  !(quality == 1 || quality == 2) || l.any (fun x => decide (16384 < x.2.natAbs)) ||
    l.any (fun x => isMissing w x.1 && x.2 != 0) ||
    l.foldl (fun (t : Int) x => t + if isMissing w x.1 then 0 else (weight w x.1 : Int) * x.2) 0 != 0

/-- `CLOSURE_MAP_PUT (0x0142)`: waits for tooth position 0 or P, and is answered after its flash write. (log entry 38, DEDUCED) -/
def mapPut (m : Msg) (s : State) : State :=
  let v0 := word m 0
  let p := bits v0 31 22
  let key : WheelKey := ⟨if bitOf v0.toNat 19 then 4 else 2, p, bits v0 21 20, bits (word m 1) 31 8⟩
  if p < 12 ∨ 720 < p then refuse 0x0142 m 0x0146 s
  else if m.words.length ≠ p + 2 then respond 0x0142 m 0x0B 0xFF [] s
  else if rotating s then refuse 0x0142 m 5 s
  else match s.angle.wheel with
    | none => refuse 0x0142 m 0x0145 s
    | some w =>
      if key ≠ w.key then refuse 0x0142 m 0x0145 s
      else match reservedBad m (0xFFFF0000 :: 0xFFFFFF00 :: List.replicate p 0xFFFF) with
        | some i => respond 0x0142 m 0x0146 i [] s
        | none =>
          let l := putEntries m
          if mapBreaks w (bits v0 18 17) l then refuse 0x0142 m 0x0146 s
          else if mirrored s then refuse 0x0142 m 0x0147 s
          else
            let c : ClosureMap := { entries := l.foldl (fun t x => Tbl.set 0 t x.1 x.2) [], quality := bits v0 18 17 }
            onAngle (fun a => { a with mapNext := a.mapNext ++ [{ input := bits v0 16 16, key := w.key, map := c, cmd := some m }] }) s

/-- `CLOSURE_MAP_PUT`: writes a crank input's map. -/
def execClosureMapPut (m : Msg) (s : State) : Host.Outcome State Fault Refusal := command 0x0142 m (mapPut m) s

/-- `FIRING_TABLE_CLEAR (0x0143)`: at the next benchmark crossing. -/
def execFiringTableClear (m : Msg) (s : State) : Host.Outcome State Fault Refusal :=
  command 0x0143 m (fun s => ok 0x0143 m (onAngle (fun a => { a with clearTable := true }) s)) s

/-! ### Benchmark crossings (scheduling R150, R151, R153, drive R194) -/

/-- A client's direction whose exchange of banks is due at crossing `n` exchanges them, and its near events of the old bank leave their
slots (R150, R151). -/
def switchBank (n c : Nat) (astern : Bool) (s : State) : State :=
  let (pend, act, at_) := bankFields c astern
  if isSet s pend && decide (rd s at_ = n) then
    nearToWheel (fun d => d.client == c && d.astern == astern && d.bank == rd s act) (wr act (1 - rd s act) (wrB pend false s))
  else s

/-- The exchanges of banks due at crossing `n`. -/
def switchBanks (n : Nat) (s : State) : State :=
  (List.range 256).foldl (fun s c => switchBank n c true (switchBank n c false s)) s

/-- The chain has crossed benchmark in PHASED since the last crossing was counted. -/
def crossed (s : State) : Bool := phased s && decide (chainNow s / (turn * unit) ≠ s.angle.wraps)

/-- The settings that take effect at a benchmark crossing: the review interval, the late limit and the bank slips. -/
def crossingSettings (s : State) : State :=
  { s with seq := { s.seq with
      reviewD := rd s SEQ_CFG_REVIEW_D, defLate := rd s SEQ_CFG_DEF_LATE
      slips := (rd s DRV_BANK_SLIP_BANK0, rd s DRV_BANK_SLIP_BANK1) } }

/-- The holder of the benchmark role drives the line low for 1 µs from the cycle that its stake was loaded with at the last tooth before
benchmark (pairing R311). (log entry 115, DEDUCED) -/
def benchmarkPulse (s : State) : State :=
  let t := s.tie.bmFall.getD s.cyc
  let s := { s with tie := { s.tie with bmFall := none } }
  if isSet s PAIR_STATUS_BM_HOLDER && driving s then
    { s with tie := { s.tie with bmLow := some (t + 400) }, out := .benchmarkLow t (t + 400) :: s.out }
  else s

/-- A benchmark crossing: `SEQ_CYCLE` counts, and what waits for a crossing takes place. (log entry 36, DEDUCED) -/
def benchmark (s : State) : State :=
  if !crossed s then s
  else
    let s := benchmarkPulse (onAngle (fun a => { a with wraps := chainNow s / (turn * unit) }) s)
    let s := crossingSettings (wr SEQ_CYCLE_CYCLE ((rd s SEQ_CYCLE_CYCLE + 1) % 2 ^ 32) s)
    let s := switchBanks (rd s SEQ_CYCLE_CYCLE) s
    match s.angle.wheel with
    | some w => firingCrossing w s
    | none => s

/-- `BENCHMARK_CROSSING`. -/
def execBenchmarkCrossing (dt : Nat) (s : State) : Host.Outcome State Fault Refusal := event dt benchmark s

end Sys2Proof.Machine
end

