-- ==== Sys2Proof/Machine/Pace.lean ====
section
/-! DEFINITION. The pace, stakes, frames on the profile link and the status return link, lane faults and lockstep disagreements
(architecture R15 to R30, drive R200, R201, protection R251). -/
namespace Sys2Proof.Machine

/-! ### The status return link (protection R251, drive R214, auxiliary R283) -/

/-- The occurrence of Running descriptor `i` ends with `a`; with its converter at work the notice waits for the measurement
(closing R262, Table 8-5). -/
def endMeasured (i : Nat) (a : NoteArgs) (s : State) : State :=
  match desc s i with
  | none => s
  | some d =>
    if d.frozen s ∨ !awaits s d.output d.serial then endWith i a s
    else
      let s := { s with
        angle := { s.angle with lastInjection := some (rd s SEQ_CYCLE_CYCLE, chain s) }
        seq := { s.seq with waiting := s.seq.waiting ++
          [⟨d.output, d.serial, noteOf s i d { a with freed := d.endsHere }, if d.endsHere then some i else none⟩] } }
      if d.endsHere then unplace i s else requeue i s

/-- The drive die has reported the end of the event of `serial` on output `o` in cycle `at_`: its end stake is withdrawn, its lane
lowered, and every event that holds the lane receives the notice that `f` makes of it. -/
def endReported (o serial at_ : Nat) (f : State → Desc → NoteArgs) (s : State) : State :=
  match bySerial s serial with
  | none => s
  | some (i, d) =>
    if d.stage ≠ .running ∨ at_ < d.onAt.getD 0 then s
    else
      let hs := (laneAt s o).holders
      let l := if i ∈ hs then hs else [i]
      let s := l.foldl (fun s j => unplace j s) s
      let s := if i ∈ hs then laneOff o true none s else s
      l.foldl (fun s j =>
        match desc s j with
        | some e => endMeasured j (f s e) s
        | none => s) s

/-- Cycles from lane ON to cycle `t`, 0 where the output was never energised. -/
def energisedTo (d : Desc) (ran : Bool) (t : Nat) : Nat :=
  match d.onAt with
  | some x => if ran then t - x else 0
  | none => 0

/-- What one report of the drive die does. A start that found no frame ends its own event alone: an event that shares the lane with
it has passed its checks and runs on (architecture R27). -/
def deliver (s : State) : Report → State
  | .tripped o x reason t ran =>
    endReported o x t (fun s d =>
      { type := ntTripped, reason, energised := energisedTo d ran t, delay := d.delay, closing := closingWithout s o d ran }) s
  | .truncated o x t ran =>
    endReported o x t (fun s d =>
      { type := ntTruncated, outcome := if ran then ocNone else ocSkipped, energised := energisedTo d ran t, delay := d.delay
        closing := closingWithout s o d false }) (noteBit x flTruncated s)
  | .boost o x outcome delay t ended =>
    if ended then
      endReported o x t (fun s d =>
        { type := ntBoost, outcome, energised := energisedTo d true t, delay, closing := closingWithout s o d false }) s
    else match bySerial s x with
      | some (i, d) => sendNote i { type := ntBoost, outcome, energised := ranFor s d, delay, closing := closingWithout s o d false } s
      | none => s
  | .noFrame o x t ran =>
    let note := fun (s : State) (d : Desc) =>
      ({ type := ntSuppressed, reason := 7, energised := energisedTo d ran t, delay := d.delay, closing := closingWithout s o d ran } : NoteArgs)
    match bySerial s x with
    | none => s
    | some (i, d) =>
      if !ran && (laneAt s o).holders.any (fun j => j != i) then
        if d.stage ≠ .running ∨ t < d.onAt.getD 0 then s else endWith i (note s d) (unhold i (unplace i s))
      else endReported o x t note s
  | .laneFault o x t =>
    endReported o x t (fun s d =>
      { type := ntSuppressed, reason := 6, energised := energisedTo d true t, delay := d.delay, closing := closingWithout s o d true }) s

/-- Every report on the status return link reaches the timing die. -/
def statusReturn (s : State) : State :=
  let l := s.seq.reports
  l.foldl deliver { s with seq := { s.seq with reports := [] } }

/-- `STATUS_RETURN_FRAME`: a frame of the status return link reaches the timing die (R251). -/
def execStatusReturnFrame (dt : Nat) (s : State) : Host.Outcome State Fault Refusal := event dt statusReturn s

/-! ### The profile link (drive R200, R201) -/

/-- The pair whose frame the link carries next, round robin. -/
def nextLink (s : State) : Option Nat :=
  ((List.range 4).map (fun k => (s.seq.turn + k) % 4)).find? (fun p => !(pairAt s p).link.isEmpty)

/-- The generation count of the slot that frame `f` names matches; an output frame names no slot. -/
def genMatches (s : State) (f : Frame) : Bool :=
  decide (36 ≤ f.output) || match profileOf s f.profile with
    | some p => p.gen == f.gen
    | none => false

/-- The checked frames of an output with `f` after them; a pulse binding's frame replaces the last one of its kind. -/
def withFrame (f : Frame) (l : List Frame) : List Frame := (if f.serial = 0 then l.filter (fun g => g.serial != 0) else l) ++ [f]

/-- The oldest frame of the pair in turn arrives; `pass` tells that every pair of words passes. (log entry 48, DEDUCED) -/
def frameArrives (pass : Bool) (s : State) : State :=
  match nextLink s with
  | none => s
  | some p =>
    match (pairAt s p).link with
    | [] => s
    | f :: rest =>
      let s := onPair p (fun q => { q with link := rest }) { s with seq := { s.seq with turn := (p + 1) % 4 } }
      if !pass || !genMatches s f then raise 0x0207 (outSource f.output) (hopDetail s f.serial 7) actEvent s
      else if f.output < 36 then onChan f.output (fun c => { c with frames := withFrame f c.frames }) s
      else onAux (f.output - 36) (fun x => { x with frames := withFrame f x.frames }) s

/-- `PROFILE_FRAME`: the drive die checks the next frame of the profile link (R200). -/
def execProfileFrame (dt : Nat) (pass : Bool) (s : State) : Host.Outcome State Fault Refusal := event dt (frameArrives pass) s

/-! ### Stakes (R25) -/

/-- Injection stake `slot` of pair `p`, whose value and complement comparators match as given in this cycle. -/
def stakeMatch (p slot : Nat) (value compl : Bool) (s : State) : State :=
  match Tbl.find (pairAt s p).stakes slot with
  | none => s
  | some x =>
    if value && compl then (if x.cycle = s.cyc then fireStake x s else s)
    else if value || compl then suppress x.desc 5 0x0205 s
    else s

/-- `STAKE_FIRE` (R25). -/
def execStakeFire (dt : Nat) (p : Fin 4) (slot : Fin 32) (value compl : Bool) (s : State) : Host.Outcome State Fault Refusal :=
  event dt (stakeMatch p slot value compl) s

/-! ### Lane faults (R26) -/

/-- A lane fault on output `o`: off with fast switch-off, latched, and its isolating switch open (R26, pairing R291). (log entry 48, DEDUCED) -/
def laneFault (o : Nat) (s : State) : State :=
  if (laneAt s o).fault then s
  else
    let x := if o < 36 then (chan s o).serial else (auxAt s (o - 36)).serial
    let x := if (laneAt s o).on then x else 0
    let ran := if o < 36 then energised s o else isSet s (AUX_STAT_ON (o - 36))
    let s := onLane o (fun l => { l with fault := true }) s
    let s := if o < 36 then
        (members s o).foldl (fun s m => onChan m (fun y => { y with ended := y.ended || y.lane }) (quench m 3 false s)) s
      else auxSwitchOff (o - 36) s
    let act := actLatch + (if ran then actOff else 0) + if x ≠ 0 then actEvent else 0
    let s := raise 0x0206 (outSource o) (hopDetail s x 6) act s
    if x ≠ 0 then report (.laneFault o x s.cyc) s else s

/-- `LANE_FAULT`: both wires of the lane pair of output `o` stand at one level for over 4 ns (R26). -/
def execLaneFault (dt : Nat) (o : Fin 52) (s : State) : Host.Outcome State Fault Refusal := event dt (laneFault o) s

/-! ### Lockstep (R28 to R30) -/

/-- The trackers differ by `diff` links, or in sync state or direction for more than four cycles (R29). (log entry 37, DESIGN CHOICE) -/
def trackersDiffer (diff : Nat) (states : Bool) (s : State) : State :=
  let s := maxTo ANG_LOCKSTEP_MAX_DIFF diff s
  if diff ≤ 8 && !states then s
  else
    let act := (if synced s then lossAction s (coastEnd s) else 0) + resignAct s
    let s := raise 0x0301 0x64 0 act (onAngle (fun a => { a with trackerFault := true, agreed := 0 }) s)
    let s := match s.angle.wheel with
      | some w => lossOfSync w 6 none none s
      | none => s
    pairRefresh (resign 2 true s)

/-- `TRACKER_DISAGREE`: the two chains differ by `diff` links in this cycle, or (`states`) the sync states or directions have differed
for more than four cycles (R29). -/
def execTrackerDisagree (dt : Nat) (diff : Nat) (states : Bool) (s : State) : Host.Outcome State Fault Refusal :=
  event dt (trackersDiffer diff states) s

/-- Serial of descriptor `i`, 0 when it is not allocated. -/
def serialOf (s : State) (i : Nat) : Nat :=
  match desc s i with
  | some d => d.serial
  | none => 0

/-- One failure within the pace and what the module does about it (R24, R27, R30, pulse R165). (log entry 46, DESIGN CHOICE) -/
def upset (s : State) : Upset → State
  | .eccCorrected => count SEQ_ECC_CORRECTED 1 s
  | .eccFailed i =>
    match desc s i with
    | none => s
    | some d =>
      let act := actEvent + if d.onAt.isSome then actOff else 0
      suppress i 3 0x0203 (raise 0x0320 0x65 (hopDetail s (serialOf s i) 3) act (count SEQ_ECC_UNCORRECTED 1 s))
  | .memory i => suppress i 3 0x0203 s
  | .load i => suppress i 4 0x0204 s
  | .disagree p =>
    if 4 ≤ p ∨ (pairAt s p).halted then s
    else pairRefresh (resign 2 true (haltPair p (raise (0x0310 + p) (0x50 + p) 0 (actHalt + actOff + resignAct s) s)))
  | .fetch n => if 64 ≤ n ∨ !(ctxAt s n).runs then s else pulseFault 0x0133 n s
  | .param p a mask =>
    if 4 ≤ p ∨ 2048 ≤ a then s
    else
      let (v, c) := paramAt s p a
      onPls p (fun x => { x with params := Tbl.set (0, 2 ^ 32 - 1) x.params a (v, (c ^^^ mask) % 2 ^ 32) }) s
  | .profile n i mask =>
    match profileOf s n with
    | none => s
    | some x =>
      let x := { x with compl := x.compl.set i (x.compl.getD i 0 ^^^ mask) }
      { s with drive := { s.drive with profiles := Tbl.insert s.drive.profiles n x } }
  | .trim c mask => if 36 ≤ c then s else onTrim c (fun x => { x with compl := x.compl ^^^ mask.toNat }) s

/-! ### The pace (R16 to R18) -/

/-- What is wired to the pins that the module does not drive brings them these levels (pairing R292, timers R343). (log entry 73, DEDUCED) -/
def padsIn (pads : Option PadLevels) (s : State) : State :=
  match pads with
  | some x => gpoPads x.gpo.toNat (pinsOutside x.tio x.pep s)
  | none => s

/-- What the drive die and the ADCs have measured up to this pace: VBAT in 0.1 V, the course of the two banks, drain voltages in 10 mV, and
the course of the auxiliary outputs' currents and voltages (drive R216, R222, protection R227 to R238, auxiliary R277 to R289); and the
levels at the pins. -/
def sample (vbat : Nat) (boost : List BoostRun) (drains : List (Fin 36 × BitVec 12)) (aux : List AuxRun) (pads : Option PadLevels)
    (s : State) : State :=
  let s := boostMeasure boost { s with drive := { s.drive with vbat } }
  padsIn pads (auxMeasure aux (drains.foldl (fun s x => drainRead x.1 x.2.toNat s) s))

/-- The work of one pace: the state frame, the microcode of the four tally pairs, which leaves their pulse shares to come. -/
def paceWork (upsets : List Upset) (s : State) : State :=
  let s := sendTie (pairRefresh (releaseInhibits (powerUpdate s)))
  let s := upsets.foldl upset s
  handoverPace (tokenPass (learnWatch (microcode (paramPass s))))

/-- `PACE`: at each pace boundary; what has been measured, and the failures of the hard path within the pace, come with it
(R16, R17). -/
def execPace (dt : Nat) (vbat : BitVec 12) (boost : List BoostRun) (drains : List (Fin 36 × BitVec 12)) (aux : List AuxRun)
    (pads : Option PadLevels) (upsets : List Upset) (s : State) :
    Host.Outcome State Fault Refusal :=
  event dt (fun s =>
    if s.cyc % 100 ≠ 0 then s
    else paceWork upsets (sample vbat.toNat boost drains aux pads s)) s

end Sys2Proof.Machine
end

