-- ==== Sys2Proof/Machine/Rtc.lean ====
section
/-! DEFINITION. The real-time clock: seconds, staged writes, latched reads (power R462 to R466). -/
namespace Sys2Proof.Machine

/-- An event of the always-on island, which runs in every power state: the core cycle counter advances only while the core
clock runs. -/
def islandEvent (dt : Nat) (f : State → State) (s : State) : Host.Outcome State Fault Refusal :=
  .next (f (if awake s then passTime dt s else s))

/-- A leap year (R462). -/
def leapYear (y : Nat) : Bool := (y % 4 == 0 && y % 100 != 0) || y % 400 == 0

/-- Days of month `m` of year `y`. -/
def monthDays (y m : Nat) : Nat :=
  if m = 2 then (if leapYear y then 29 else 28)
  else if m ∈ [4, 6, 9, 11] then 30 else 31

/-- The next day. -/
def Cal.nextDay (c : Cal) : Cal :=
  if c.day < monthDays c.year c.month then { c with day := c.day + 1 }
  else if c.month < 12 then { c with day := 1, month := c.month + 1 }
  else { c with day := 1, month := 1, year := if 2399 ≤ c.year then 2000 else c.year + 1 }

/-- The next second. -/
def Cal.nextSecond (c : Cal) : Cal :=
  if c.second < 59 then { c with second := c.second + 1 }
  else if c.minute < 59 then { c with second := 0, minute := c.minute + 1 }
  else if c.hour < 23 then { c with second := 0, minute := 0, hour := c.hour + 1 }
  else Cal.nextDay { c with second := 0, minute := 0, hour := 0 }

/-- The last second before the calendar starts again (R462). -/
def Cal.last (c : Cal) : Bool :=
  c.year == 2399 && c.month == 12 && c.day == 31 && c.hour == 23 && c.minute == 59 && c.second == 59

/-- Days from 2000-01-01 to the first day of year `y`, of the calendar of R462. -/
def yearDays (y : Nat) : Nat :=
  let n := y - 2000
  365 * n + (n + 3) / 4 - (n + 99) / 100 + (n + 399) / 400

/-- Day of the week, 0 = Monday; 2000-01-01 is 5 (Table 16-8). -/
def weekday (c : Cal) : Nat :=
  let m := (List.range 12).foldl (fun a i => if i + 1 < c.month then a + monthDays c.year (i + 1) else a) 0
  (yearDays c.year + m + (c.day - 1) + 5) % 7

/-- The RTC changed by `f`. -/
def onRtc (f : Rtc → Rtc) (s : State) : State := { s with rtc := f s.rtc }

/-- `RTC_SECOND`: the prescaler completes a second and the calendar advances; after 2399-12-31 23:59:59 it starts again,
flagged (R462). -/
def execRtcSecond (dt : Nat) (s : State) : Host.Outcome State Fault Refusal :=
  islandEvent dt (fun s =>
    let s := if s.rtc.cal.last then wrB RTC_STATUS_TIME_LOST true s else s
    onRtc (fun r => { r with cal := r.cal.nextSecond }) s) s

/-- The staged date, or the present one. -/
def Rtc.resultDate (r : Rtc) : Nat × Nat × Nat := r.date.getD (r.cal.year, r.cal.month, r.cal.day)

/-- The staged write passes the checks of R465. -/
def Rtc.stagedOk (r : Rtc) : Bool :=
  let (y, m, d) := r.resultDate
  decide (2000 ≤ y) && decide (y ≤ 2399) && decide (1 ≤ m) && decide (m ≤ 12) && decide (1 ≤ d) && decide (d ≤ monthDays y m) &&
    match r.time with
    | none => true
    | some (h, mi, sec) => decide (h ≤ 23) && decide (mi ≤ 59) && decide (sec ≤ 59)

/-- The calendar after the apply (R464). -/
def Rtc.applied (r : Rtc) : Cal :=
  let (y, m, d) := r.resultDate
  let c := { r.cal with year := y, month := m, day := d }
  match r.time with
  | none => c
  | some (h, mi, sec) => { c with hour := h, minute := mi, second := sec }

/-- The staged fields are gone. -/
def Rtc.unstaged (r : Rtc) : Rtc := { r with time := none, date := none, ready := false, cmds := [] }

/-- `RTC_APPLY`: at the next 32.768 kHz tick the staged set is applied, or rejected whole (R464, R465); a waiting `RTC_SET`
is answered. -/
def execRtcApply (dt : Nat) (s : State) : Host.Outcome State Fault Refusal :=
  islandEvent dt (fun s =>
    if !s.rtc.ready then s
    else
      let cmds := s.rtc.cmds
      let good := s.rtc.stagedOk
      let s := wrB RTC_STATUS_STAGED false s
      let s := if good then
          let s := onRtc (fun r => { r.unstaged with cal := r.applied }) s
          let s := wrB RTC_STATUS_TIME_LOST false s
          bookRecord 4 0 0 0 0 s.cyc 0 s
        else flag RTC_STATUS_WRITE_ERR (onRtc Rtc.unstaged s)
      cmds.foldl (fun s m => if good then ok 0x0420 m s else refuse 0x0420 m 0x0420 s) s) s

/-- `ISLAND_BROWN_OUT`: the rail fell below 1.8 V; every RTC field restarts at 2000-01-01 00:00:00, flagged (R466). -/
def execIslandBrownOut (dt : Nat) (s : State) : Host.Outcome State Fault Refusal :=
  islandEvent dt (fun s =>
    wr RTC_SUB_SUB 0 (wrB RTC_STATUS_WRITE_ERR false
      (wrB RTC_STATUS_STAGED false (wrB RTC_STATUS_TIME_LOST true { s with rtc := {} })))) s

/-- `ISLAND_SOURCE_CHANGE`: the ideal diode changes the feed, `vcell` true for VCELL (R466); fed from VCELL alone no wake
source is watched (R458). -/
def execIslandSourceChange (dt : Nat) (vcell : Bool) (s : State) : Host.Outcome State Fault Refusal :=
  islandEvent dt (wrB RTC_STATUS_SRC vcell) s

/-- The word of `RTC_TIME`. -/
def rtcTimeWord (s : State) : Word :=
  let c := s.rtc.cal
  BitVec.ofNat 32 (weekday c * 2 ^ 24 + c.hour * 2 ^ 16 + c.minute * 2 ^ 8 + c.second)

/-- The word of `RTC_DATE`: the latched date; `KEEP` reads 0. -/
def rtcDateWord (s : State) : Word :=
  let c := s.rtc.latched
  BitVec.ofNat 32 (c.year * 2 ^ 16 + c.month * 2 ^ 8 + c.day)

/-- A read of `RTC_TIME` latches the date and the prescaler (R463). The prescaler's value is free. -/
def rtcTimeRead (s : State) : Word × State :=
  let w := rtcTimeWord s
  let (sub, s) := draw s
  (w, wr RTC_SUB_SUB sub (onRtc (fun r => { r with latched := r.cal }) s))

/-- `RTC_TIME_READ`: PF0 reads `RTC_TIME` (R463). (log entry 85, DESIGN CHOICE) -/
def execRtcTimeRead (dt : Nat) (s : State) : Host.Outcome State Fault Refusal :=
  event dt (fun s => let (w, s) := rtcTimeRead s; { s with out := .readData 0 RTC_TIME w :: s.out }) s

/-- A write of `RTC_TIME` stages hours, minutes and seconds (R464). -/
def rtcTimeWrite (x : Word) (s : State) : State :=
  onRtc (fun r => { r with time := some (bits x 20 16, bits x 13 8, bits x 5 0) }) s

/-- `RTC_TIME_WRITE`: PF0 writes `x` to `RTC_TIME` (R464). -/
def execRtcTimeWrite (dt : Nat) (x : Word) (s : State) : Host.Outcome State Fault Refusal :=
  event dt (writes 0 RTC_TIME (rtcTimeWrite x)) s

/-- A write of `RTC_DATE`: the date is staged unless `KEEP` is 1, and the write is the final field write (R464). -/
def rtcDateWrite (x : Word) (s : State) : State :=
  let d := if bitOf x.toNat 31 then s.rtc.date else some (bits x 27 16, bits x 11 8, bits x 4 0)
  wrB RTC_STATUS_STAGED true (onRtc (fun r => { r with date := d, ready := true }) s)

/-- `RTC_DATE_WRITE`: PF0 writes `x` to `RTC_DATE` (R464). -/
def execRtcDateWrite (dt : Nat) (x : Word) (s : State) : Host.Outcome State Fault Refusal :=
  event dt (writes 0 RTC_DATE (rtcDateWrite x)) s

/-- `RTC_SET (0x0420)`: stages through firmware and is answered at the applying tick (R464, command reference R524). -/
def execRtcSet (m : Msg) (s : State) : Host.Outcome State Fault Refusal :=
  command 0x0420 m (fun s =>
    match reservedBad m [0xFFFFFFFF, 0xFC000003] with
    | some i => respond 0x0420 m 0x0B i [] s
    | none =>
      let v0 := word m 0
      let v1 := word m 1
      let keep := bitOf v1.toNat 1
      let dateOnly := bitOf v1.toNat 0
      if keep && dateOnly then refuse 0x0420 m 0x0420 s
      else
        let t := if dateOnly then s.rtc.time else some (bits v0 10 6, bits v0 5 0, bits v1 31 26)
        let d := if keep then s.rtc.date else some (bits v0 31 20, bits v0 19 16, bits v0 15 11)
        wrB RTC_STATUS_STAGED true (onRtc (fun r => { r with time := t, date := d, ready := true, cmds := r.cmds ++ [m] }) s)) s

/-- `RTC_GET (0x0421)`: a latched read of the clock (R524). (log entry 85, DESIGN CHOICE) -/
def execRtcGet (m : Msg) (s : State) : Host.Outcome State Fault Refusal :=
  command 0x0421 m (fun s =>
    let (sub, s) := draw s
    respond 0x0421 m 0 0
      [calWord s.rtc.cal, secWord s.rtc.cal sub,
       BitVec.ofNat 32 (weekday s.rtc.cal * 4 + 2 * rd s RTC_STATUS_SRC + rd s RTC_STATUS_TIME_LOST)] s) s

end Sys2Proof.Machine
end

