-- ==== Sys2Proof/Machine/Power.lean ====
section
/-! DEFINITION. Power states: requests, DOZE, entry and exit of STANDBY and SENTINEL, wake sources, PMBus requests, votes by
command (power R450 to R461). -/
namespace Sys2Proof.Machine

/-- Power state changed by `f`. -/
def onPower (f : Power → Power) (s : State) : State := { s with power := f s.power }

/-- A step of entry or exit. -/
def setPhase (p : PwrPhase) (s : State) : State := onPower (fun x => { x with phase := p }) s

/-! ### Requests (R450, R451, Table 16-2) -/

/-- An output is enabled (Table 16-2, value 4). -/
def anyEnabled (s : State) : Bool := rd s DRV_CH_EN0_EN != 0 || rd s DRV_CH_EN1_EN != 0 || rd s AUX_EN_EN != 0

/-- A descriptor is stored, a context runs or a list runs (Table 16-2, value 5). -/
def anythingStored (s : State) : Bool :=
  !s.seq.descs.isEmpty || (List.range 64).any (fun n => (ctxAt s n).runs) || rd s ACQ_RUN_RUNNING != 0

/-- The first row of Table 16-2 that refuses a request for `t`: its value and its code. -/
def powerRefusal (s : State) (t : Nat) : Option (Nat × Nat) :=
  let now := rd s PWR_STATUS_STATE
  if t = now ∨ (t = 0 ∧ now ≠ 1) then some (1, 0x0410)
  else if t = 0 then none
  else if isSet s PWR_STATUS_CHANGING || s.boot.swap.isSome || isSet s ANG_STATUS_CL_LEARNING then some (2, 4)
  else if rotating s then some (3, 5)
  else if anyEnabled s then some (4, 0x0411)
  else if 2 ≤ t && anythingStored s then some (5, 0x0412)
  else none

/-- An accepted request for `t`: RUN and DOZE at once; entry of STANDBY and SENTINEL begins with the boosts, whose registers keep
their values (R452, R453, Table 16-3). -/
def powerEnter (t : Nat) (s : State) : State :=
  if t < 2 then wr PWR_STATUS_STATE t s
  else
    let s := setPhase (.boosts t) (onPower (fun x => { x with cancel := false }) (wrB PWR_STATUS_CHANGING true s))
    (List.range 2).foldl (fun s b =>
      let x := boostState s b
      if x = 0 ∨ x = 4 ∨ x = 5 then s else boostStop b s) s

/-- PF0 writes `x` to `PWR_CTRL`: with `GO` the request is submitted, and a refusal sets `REQ_REJ` and `REJ_CAUSE` (R450). (log entry 84, DEDUCED) -/
def pwrCtrlWrite (x : Word) (s : State) : State :=
  let t := bits x 1 0
  let s := wr PWR_CTRL_TARGET t s
  if !bitOf x.toNat 31 then s
  else match powerRefusal s t with
    | some (v, _) => wr PWR_STATUS_REJ_CAUSE v (flag PWR_STATUS_REQ_REJ s)
    | none => powerEnter t s

/-- `PWR_CTRL_GO_WRITE`: PF0 writes `PWR_CTRL` with `GO` = 1 (R450). -/
def execPwrCtrlGoWrite (dt : Nat) (x : Word) (s : State) : Host.Outcome State Fault Refusal :=
  event dt (writes 0 PWR_CTRL (pwrCtrlWrite (x ||| 0x80000000))) s

/-- `POWER_REQUEST (0x0410)`: answered, and then the change begins (R450, R453). -/
def powerRequest (m : Msg) (s : State) : State :=
  match reservedBad m [0x00000003] with
  | some i => respond 0x0410 m 0x0410 i [] s
  | none =>
    let t := (word m 0).toNat
    match powerRefusal s t with
    | some (v, code) => respond 0x0410 m code v [] s
    | none => powerEnter t (ok 0x0410 m s)

/-- `POWER_REQUEST`: the SAFETY client requests a power state. -/
def execPowerRequest (m : Msg) (s : State) : Host.Outcome State Fault Refusal := command 0x0410 m (powerRequest m) s

/-- The word of `PWR_ON`, or of `PWR_HELD`, computed from the domains. -/
def powerWord (held_ : Bool) (s : State) : Word := wd (if held_ then powerHeld s else powerOn s)

/-- The clients that vote for group `g`, client 0 in bit 0 of the first of eight words. -/
def voteWords (s : State) (g : Nat) : List Word :=
  (List.range 8).map (fun i => wd ((List.range 32).foldl (fun a j =>
    if bitOf (rd s (CLI_PWR_VOTE_VOTE (32 * i + j))) g then a + 2 ^ j else a) 0))

/-- `POWER_STATUS (0x0411)` (Table 19-10). -/
def powerStatus (m : Msg) (s : State) : State :=
  let w := fun o => wordNow s (globalFields o)
  respond 0x0411 m 0 0
    ([w PWR_STATUS, w PWR_BASE, powerWord false s, powerWord true s, w PWR_ISL] ++ (List.range 17).flatMap (voteWords s)) s

/-- `POWER_STATUS`: reads the power registers and every client's votes. -/
def execPowerStatus (m : Msg) (s : State) : Host.Outcome State Fault Refusal := command 0x0411 m (powerStatus m) s

/-- `POWER_VOTE (0x0412)`: the caller's votes (R448). -/
def powerVote (m : Msg) (s : State) : State :=
  match reservedBad m [0x0001FFFF] with
  | some i => respond 0x0412 m 0x0B i [] s
  | none => ok 0x0412 m (powerUpdate (wr (CLI_PWR_VOTE_VOTE m.client) (word m 0).toNat s))

/-- `POWER_VOTE`: sets the caller's power votes. -/
def execPowerVote (m : Msg) (s : State) : Host.Outcome State Fault Refusal := command 0x0412 m (powerVote m) s

/-! ### Retention (R454, Table 16-4) -/

/-- `off` is one of the `n` registers `r`. -/
def isOne (r : Nat → Nat) (n off : Nat) : Bool := inArr off (r 0) (r 1 - r 0) n

/-- The field with key `k` belongs to the content of Table 16-4. -/
def retained (k : Nat) : Bool :=
  let off := k / 32
  isOne WHL_IN_CFG 4 off || [WHL_DIR_CFG, ANG_CFG, ANG_BAND0, ANG_BAND1, ANG_BAND2, ANG_BAND3, SEQ_CFG, DRV_PAIR, DRV_BANK_SLIP,
      PAIR_CFG, HL_SHED_CFG, PWR_BASE, PWR_WAKE_CFG].contains off ||
    isOne SEQ_QUOTA 256 off || (List.range 4).any (fun p => k == (PLS_CTRL_OWNER p).key) ||
    isOne DRV_CH_CFG 36 off || (List.range 36).any (fun c => k == (DRV_CH_SENSE_L_NOM c).key) ||
    isOne BST_CFG 2 off || isOne BST_CAP 2 off || isOne PRT_CFG 36 off ||
    isOne CD_CFG 36 off || isOne CD_DET 36 off || isOne CD_PLAUS 36 off || isOne CD_TRIMLIM 36 off ||
    isOne AUX_CFG 16 off || isOne AUX_OPEN 16 off || k == ACQ_REF_SEL.key || k == TMR_PIN_DIR.key ||
    isOne MON_THR 16 off || isOne MON_CTL 16 off || isOne HL_CLIENT 256 off || isOne HL_OWN 52 off ||
    isOne CAN_CTRL 4 off || isOne CAN_NBT 4 off || isOne CAN_DBT 4 off || isOne CAN_TDC 4 off || isOne CAN_TP 4 off ||
    isOne CAN_BIND 16 off || isOne CAN_BINDR 16 off || isOne DMA_GRANT 12 off

/-- The content of Table 16-4 goes to retention memory. (log entry 83, DESIGN CHOICE) -/
def retentionSave (s : State) : State :=
  let s := onAngle (fun a => { a with keptWheel := a.wheel, keptStations := a.stations }) s
  onPower (fun x => { x with saved := s.regs.filter (fun p => retained p.1) }) s

/-! ### Entry of STANDBY and SENTINEL (R453, R455, R460, R461) -/

/-- The Field Book queue is written out, one program of a copy at a time. -/
def bookFlush : Nat → State → State
  | 0, s => s
  | n + 1, s =>
    match s.book.half, s.book.queue with
    | some r, _ => bookFlush n (bookWriteB r true s)
    | none, r :: _ => bookFlush n (bookWriteA r true s)
    | none, [] => s

/-- Every session ends; nothing is stored, so no loss policy acts (Table 16-3). -/
def quietSessions (s : State) : State :=
  (List.range 256).foldl (fun s c =>
    if sessionOpen s c then
      let s := hostVector c (flag (CLI_HL_STATUS_SESSION_LOST c) (wrB (CLI_HL_STATUS_SESSION c) false s))
      onClient c (fun x => { x with ringLeft := false, requests := x.requests.map (fun r => { r with dead := true }) })
        (wr (CLI_PWR_VOTE_VOTE c) 0 s)
    else s) s

/-- Entry is cancelled: RUN again, with the boosts that `ENABLE` names, the role elected anew, `CANCELLED` and a POWER record
(R461). The layout of the record's detail is not stated, so its value is free. (log entry 82, DEDUCED) -/
def cancelEntry (s : State) : State :=
  let s := dispatchAll (setPhase .none (onPower (fun x => { x with cancel := false }) (wrB PWR_STATUS_CHANGING false s)))
  let s := (List.range 2).foldl (fun s b =>
    if isSet s (BST_CFG_ENABLE b) ∧ boostState s b ≠ 4 then boostStart b s else s) s
  let (v, s) := draw (flag PWR_STATUS_CANCELLED s)
  let s := bookRecord 3 0 0 0 0 s.cyc (wd v) s
  powerUpdate (if role s = 3 then tieStart (onTie (fun t => { t with since := none }) s) else s)

/-- The boosts of an entry are OFF, or FAILED: a wake of this step cancels entry; else sessions end, the Field Book is written out,
the module leaves its role and isolates, and retention is saved (Table 16-3, R461). (log entry 82, DEDUCED) -/
def boostsOff (s : State) : State :=
  match s.power.phase with
  | .boosts t =>
    if (List.range 2).any (fun b => boostState s b != 0 && boostState s b != 4) then s
    else if s.power.cancel then cancelEntry s
    else
      let s := bookFlush 1200 (quietSessions s)
      let s := onTie (fun x => { x with trained := false, blocks := [], rxMap := none }) (wrB PAIR_STATUS_LINK_UP false (stepDown 3 s))
      setPhase (.saved t) (retentionSave s)
  | _ => s

/-- `STANDBY_BOOSTS_OFF`: the boosts are OFF during entry, and the steps up to the retention save complete (R453). -/
def execStandbyBoostsOff (dt : Nat) (s : State) : Host.Outcome State Fault Refusal := event dt boostsOff s

/-- Every domain goes to `x`. -/
def domainsAll (x : Domain) (s : State) : State := (List.range 143).foldl (fun s d => setDomain d x s) s

/-- A request to the regulator over PMBus: on or off (R455). -/
def pmbusRequest (on : Bool) (s : State) : State := { s with out := .pmbus on :: s.out }

/-- `ENTRY_WINDOW_OPEN`: at the island tick W0 the isolation of every domain closes and the core clock stops (R453, R460). -/
def execEntryWindowOpen (dt : Nat) (s : State) : Host.Outcome State Fault Refusal :=
  event dt (fun s =>
    match s.power.phase with
    | .saved t => setPhase (.window t) (domainsAll (.isolated s.cyc) s)
    | _ => s) s

/-- The island watches wake source `k`: fed from VKEEP, and its bit of `PWR_WAKE_CFG` is 1 (R458, R459). -/
def watched (s : State) (k : Nat) : Bool := !isSet s RTC_STATUS_SRC && bitOf (rd s PWR_WAKE_CFG_EN) (k - 1)

/-- Wake source `k` is the cause of a wake. -/
def wakeCause (k : Nat) (s : State) : State := wr PWR_ISL_LAST_WAKE k s

/-- A wake in STANDBY sends the PMBus on request; in SENTINEL it releases the hold on start-up, and a full start follows (R457,
R458). -/
def wakeUp (k t : Nat) (s : State) : State :=
  let s := wakeCause k s
  if t = 3 then fullReset 3 s else setPhase (.onWait 1) (pmbusRequest true s)

/-- E: every switch opens, the off request is sent, and the state is reached; a level source that stands is kept, and exit begins
(R453, R460). -/
def windowEnd (level : Bool) (s : State) : State :=
  match s.power.phase with
  | .window t =>
    let s := setPhase (.offWait t) (pmbusRequest false (domainsAll .off s))
    let s := wrB PWR_STATUS_CHANGING false (wr PWR_STATUS_STATE t s)
    if level && watched s 4 then wakeUp 4 t (count PWR_ISL_REWAKES 1 s) else s
  | _ => s

/-- `ENTRY_WINDOW_END`: E of Table 16-3; `level` tells that VKEEP stands below 3.2 V (R460). -/
def execEntryWindowEnd (level : Bool) (s : State) : Host.Outcome State Fault Refusal := .next (windowEnd level s)

/-- Wake source `k` of Table 16-5 occurs (R459 to R461). (log entry 82, DEDUCED) -/
def wakeEvent (k : Nat) (s : State) : State :=
  if !watched s k then s
  else match s.power.phase with
    | .none => s
    | .boosts _ => onPower (fun x => { x with cancel := true }) (wakeCause k s)
    | .saved _ => cancelEntry (wakeCause k s)
    | .window _ => if k = 4 then s else count PWR_ISL_EDGE_LOST 1 s
    | .offWait t | .asleep t => wakeUp k t s
    | .onWait _ => s

/-- `WAKE_EVENT`: wake source `k`, 1 to 4, occurs (R459). -/
def execWakeEvent (dt : Nat) (k : Fin 5) (s : State) : Host.Outcome State Fault Refusal :=
  islandEvent dt (fun s => if (k : Nat) = 0 then s else wakeEvent k s) s

/-! ### Exit of STANDBY (R455 to R457) -/

/-- The fields of the registers that a STANDBY exit leaves as they are: it is not a reset. -/
def exitFields : List Fld :=
  islandFields ++ [GLB_BOOT_RESET_CAUSE, PAIR_STATUS_SLOT, MOD_STATUS_SEATED, MOD_STATUS_LEAVE, MOD_STATUS_LEAVING]

/-- The draws of both boosts begin at the margin draw. (log entry 57, DESIGN CHOICE) -/
def marginDraws (s : State) : State :=
  (List.range 2).foldl (fun s b => (List.range 64).foldl (fun s n => setDraw n b (marginDraw s b) s) s) s

/-- The registers of the saved content, and what acts by them at once (R454). (log entry 84, DEDUCED) -/
def restoreRegs (s : State) : State :=
  let s := { s with regs := s.power.saved.foldl (fun r (p : Nat × Nat) => Tbl.insert r p.1 p.2) s.regs }
  (List.range 28).foldl (fun s c => wrB (DRV_CH_STAT_PAIRED c) (bitOf (rd s DRV_PAIR_PAIR) (c / 2)) s) (crossingSettings s)

/-- The content of Table 16-4 is restored (R454): the registers, and the wheel and stations taken as accepted. (log entry 57, DESIGN CHOICE) -/
def restore (s : State) : State :=
  let s := onAngle (fun a => { a with stations := a.keptStations }) (marginDraws (restoreRegs s))
  match s.angle.keptWheel with
  | some w => useWheel w s
  | none => s

/-- The boosts that `ENABLE` names enter PRECHARGE (R457). -/
def exitBoosts (s : State) : State :=
  (List.range 2).foldl (fun r b => if isSet r (BST_CFG_ENABLE b) then boostStart b r else r) s

/-- The domains that no vote wants go off, and a new cycle begins (R457). -/
def exitPower (s : State) : State :=
  let v := votes s
  let s := (List.range 143).foldl (fun r d => if wanted r v d then r else setDomain d .off r) s
  { s with was := [], hw := [], sw := [] }

/-- The module is back in RUN: everything at its reset value but flash, the island, the reset cause and what is restored; the boosts
that `ENABLE` names enter PRECHARGE, and the domains follow the votes (R454, R457). `good` tells that the retention CRC-32
matches. (log entries 82, DEDUCED, 83, DESIGN CHOICE) -/
def standbyExit (good : Bool) (s : State) : State :=
  let r : State :=
    { State.reset with
      pending := s.pending, out := s.out, fresh := s.fresh
      rtc := { s.rtc with cmds := [] }
      book := { copyA := s.book.copyA, copyB := s.book.copyB, nextSeq := nextSequence s.book }
      angle :=
        { flashMaps := s.angle.flashMaps, flashTable := s.angle.flashTable, mapWrites := s.angle.mapWrites
          keptWheel := s.angle.keptWheel, keptStations := s.angle.keptStations }
      power := { saved := s.power.saved, lostPend := !good, pmbusPend := s.power.pmbusPend }
      host := { perst := s.host.perst }
      boot := { s.boot with since := 0, swap := none, jobs := [], configReady := false, exit := true } }
  let r := exitFields.foldl (fun r f => wr f (rd s f) r) r
  let r := bootFields r
  let r := if good then restore r else flag PWR_STATUS_RET_LOST r
  exitPower (exitBoosts r)

/-- `PMBUS_ACK`: the regulator acknowledges, with power good: entry is complete, or the module leaves STANDBY; `good` tells that the
retention content passes its CRC-32 (R455, R457). -/
def execPmbusAck (good : Bool) (s : State) : Host.Outcome State Fault Refusal :=
  .next (match s.power.phase with
    | .offWait t => setPhase (.asleep t) s
    | .onWait _ => standbyExit good s
    | _ => s)

/-- A PMBus request has gone 2 ms without its acknowledgement (R455). -/
def pmbusLate (s : State) : State :=
  match s.power.phase with
  | .offWait t => setPhase (.asleep t) (onPower (fun x => { x with pmbusPend := 1 }) (flag PWR_ISL_PMBUS_TO s))
  | .onWait 1 => setPhase (.onWait 2) (pmbusRequest true s)
  | .onWait _ => fullReset 2 (onPower (fun x => { x with pmbusPend := 2 }) (flag PWR_ISL_PMBUS_TO s))
  | _ => s

/-- `PMBUS_TIMEOUT` (R455). -/
def execPmbusTimeout (s : State) : Host.Outcome State Fault Refusal := .next (pmbusLate s)

end Sys2Proof.Machine
end

