-- ==== Sys2Proof/Machine/Access.lean ====
section
/-! DEFINITION. Accesses to the global window and the client windows: what every read returns and clears, where every write goes,
and paired writes with their rejects (register reference R525 to R538). -/
namespace Sys2Proof.Machine

/-! ### Configuration space (R532) -/

/-- PF0's SR-IOV capability (host link Table 13-1, Table 20-3). -/
structure SrIov where
  totalVfs : Nat
  firstVfOffset : Nat
  vfStride : Nat
  vfDevice : Nat
  vfEnable : Bool
  deriving DecidableEq, Repr

/-- What a function presents in its configuration space: the identifiers of Table 20-3, and of the properties of Table 13-1 its SR-IOV
capability, ARI, AER, the payload and request sizes it supports, the sizes of its BARs, its MSI-X vectors with MSI-X Enable, and its power
state. -/
structure ConfigSpace where
  vendor : Nat
  device : Nat
  revision : Nat
  classCode : Nat
  subVendor : Nat
  subsystem : Nat
  sriov : Option SrIov
  ari : Bool
  aer : Bool
  maxPayload : Nat
  maxReadRequest : Nat
  bars : List Nat
  msixVectors : Nat
  msixEnable : Bool
  d3hot : Bool
  deriving DecidableEq, Repr

/-- The VF Device ID of PF0's SR-IOV capability (Table 20-3). -/
def vfDeviceId : Nat := 0x3629

/-- What function `fn` presents in its configuration space (R532, host link R369). (log entry 120, DESIGN CHOICE) -/
def configSpace (s : State) (fn : Nat) : ConfigSpace :=
  { vendor := if fn = 0 then 0x1F7C else 0xFFFF
    device := if fn = 0 then 0x3628 else 0xFFFF
    revision := rd s GLB_IDENT_STEPPING
    classCode := 0x118000
    subVendor := 0x1F7C
    subsystem := 0x0041
    sriov := if fn = 0 then some ⟨255, 1, 1, vfDeviceId, s.host.vfEnable⟩ else none
    ari := true, aer := true, maxPayload := 256, maxReadRequest := 512
    bars := if fn = 0 then [0x4000, 0x10000] else [0x4000]
    msixVectors := 8, msixEnable := msixOn s fn, d3hot := (Tbl.get ({} : PcieFn) s.host.pcie fn).d3hot }

/-! ### Paired writes (R7 to R12, R534 to R536) -/

/-- A register of type PW by the offset of its value word: `DRV_CH_EN0`, `DRV_CH_EN1`, `AUX_EN` or a `MON_THR_m`. -/
def isPaired (off : Nat) : Bool :=
  off == DRV_CH_EN0 || off == DRV_CH_EN1 || off == AUX_EN || (List.range 16).any (fun m => off == MON_THR m)

/-- The bits of the fields of a register. (log entry 89, DEDUCED) -/
def fieldMask (fs : List Fld) : Word := BitVec.ofNat 32 (fs.foldl (fun a f => a + f.max * 2 ^ f.lo) 0)

/-- A completed pair gives the PW register at `off` the value `x`. -/
def pairedApply (off : Nat) (x : Word) (s : State) : State :=
  if off = DRV_CH_EN0 then enableWrite false x.toNat s
  else if off = DRV_CH_EN1 then enableWrite true (bits x 3 0) s
  else if off = AUX_EN then auxEnable (bits x 15 0) s
  else monThresholds ((off - MON_THR 0) / 16) x s

/-- The new value and its consequences stand from the cycle after the complement write on (R535). (log entry 89, DEDUCED) -/
def inNextCycle (f : State → State) (s : State) : State :=
  let t := f { s with cyc := s.cyc + 1 }
  { t with cyc := s.cyc }

/-- `PW_PEND` tells whether a value write awaits its complement. -/
def showPend (s : State) : State := wrB (CLI_REG_STATUS_PW_PEND 0) (s.slots.any (fun p => !p.2.expired)) s

/-- A value write opens the slot of its register, or replaces the value that stands in it (R9, R535). -/
def valueWrite (off : Nat) (x : Word) (s : State) : State :=
  showPend { s with slots := Tbl.insert s.slots off { value := x, since := s.cyc } }

/-- A complement is rejected: `cause` 1 LATE, 2 MISMATCH, 3 ORPHAN; the slot is empty afterwards (R536). -/
def pairedReject (off cause : Nat) (s : State) : State :=
  let s := showPend { s with slots := Tbl.erase s.slots off }
  let s := wr (CLI_PW_LAST_OFFSET 0) off (wr (CLI_PW_LAST_CAUSE 0) cause s)
  flag (CLI_REG_STATUS_PW_REJ 0) (count (CLI_REG_STATUS_PW_REJECTS 0) 1 s)

/-- The bits in which value and complement have to differ: those of the register's fields (R7). (log entry 89, DEDUCED) -/
def pairMatches (off : Nat) (v x : Word) : Bool := (v ^^^ x) &&& fieldMask (globalFields off) == fieldMask (globalFields off)

/-- A complement write completes the pair of the register at `off`, or is rejected (R535, R536). A firmware commit of this cycle
takes effect instead of the completed pair (R535). (log entry 89, DEDUCED) -/
def complementWrite (off : Nat) (x : Word) (s : State) : State :=
  match Tbl.find s.slots off with
  | none => pairedReject off 3 s
  | some p =>
    if p.expired ∨ p.since + 64 < s.cyc then pairedReject off 1 s
    else if !pairMatches off p.value x then pairedReject off 2 s
    else
      let s := showPend { s with slots := Tbl.erase s.slots off }
      if s.barred.contains off then s else inNextCycle (pairedApply off (p.value &&& fieldMask (globalFields off))) s

/-- A half of a pair reaches the module unless PF0 is reset in this cycle (R534, R538). -/
def pairedHalf (f : State → State) (s : State) : State := if s.barred.contains (2 ^ 24) then s else f s

/-- The PW registers as operands. -/
def pairedOff (k : Fin 19) : Nat :=
  if k.val = 0 then DRV_CH_EN0 else if k.val = 1 then DRV_CH_EN1 else if k.val = 2 then AUX_EN else MON_THR (k - 3)

/-- `PAIRED_WRITE_VALUE`: PF0 writes `x` to the value word of PW register `k`: 0 `DRV_CH_EN0`, 1 `DRV_CH_EN1`, 2 `AUX_EN`, 3 + m
`MON_THR_m` (R9, R535). -/
def execPairedWriteValue (dt : Nat) (k : Fin 19) (x : Word) (s : State) : Host.Outcome State Fault Refusal :=
  event dt (pairedHalf (valueWrite (pairedOff k) x)) s

/-- `PAIRED_WRITE_COMPLEMENT`: PF0 writes `x` to the complement word of PW register `k` (R535, R536). -/
def execPairedWriteComplement (dt : Nat) (k : Fin 19) (x : Word) (s : State) : Host.Outcome State Fault Refusal :=
  event dt (pairedHalf (complementWrite (pairedOff k) x)) s

/-- `PAIRED_WRITE_EXPIRY`: slots open for 65 cycles expire, without any count (R536). -/
def execPairedWriteExpiry (dt : Nat) (s : State) : Host.Outcome State Fault Refusal :=
  event dt (fun s =>
    showPend { s with slots := s.slots.map (fun p => (p.1, { p.2 with expired := p.2.expired || decide (p.2.since + 65 ≤ s.cyc) })) }) s

/-! ### Writes (R525 to R531) -/

/-- PF0 writes `x` to `CAN_CTRL_c`: `RESTART` acts as R404 says. -/
def canCtrlWrite (c : Nat) (x : Word) (s : State) : State :=
  let s := swWrite (CAN_CTRL c) (globalFields (CAN_CTRL c)) x s
  if bitOf x.toNat 29 then canRestart c s else s

/-- A global write to a system register: link, clients, grants, power, clock. -/
def writeSystem (off : Nat) (x : Word) (s : State) : State :=
  if inArr off 0x3000 4 256 then hlClientWrite ((off - 0x3000) / 4) x s
  else if inArr off 0x3400 4 52 then hlOwnWrite ((off - 0x3400) / 4) x s
  else if inArr off 0x3500 32 4 then canCtrlWrite ((off - 0x3500) / 32) x s
  else if inArr off 0x3504 32 4 ∨ inArr off 0x3508 32 4 then canTimingWrite ((off - 0x3504) / 32) off x s
  else if off = HL_SHED_CFG then shedCfgWrite x s
  else if inArr off 0x3600 8 16 then canBindWrite ((off - 0x3600) / 8) false x s
  else if inArr off 0x3604 8 16 then canBindWrite ((off - 0x3604) / 8) true x s
  else if inArr off 0x4000 4 12 then dmaGrantWrite ((off - 0x4000) / 4) x s
  else if off = PWR_CTRL then pwrCtrlWrite x s
  else if off = PWR_BASE then powerUpdate (swWrite off (globalFields off) x s)
  else if off = RTC_TIME then rtcTimeWrite x s
  else if off = RTC_DATE then rtcDateWrite x s
  else swWrite off (globalFields off) x s

/-- A global write to a register of the timers, pin engines or position interfaces. -/
def writePeriph (off : Nat) (x : Word) (s : State) : State :=
  if off = TMR_START then timersWrite true x s
  else if off = TMR_STOP then timersWrite false x s
  else if off = TMR_PIN then tioWrite x s
  else if 0x2040 ≤ off ∧ off < 0x2440 then timerWrite ((off - 0x2040) / 32) off x s
  else if inArr off 0x2800 128 8 then peRunWrite ((off - 0x2800) / 128) x s
  else if inArr off 0x2804 128 8 then peConfigWrite ((off - 0x2804) / 128) off x s
  else if inArr off 0x2810 128 8 then peTxWrite ((off - 0x2810) / 128) x s
  else if inArr off 0x3800 4 256 then peConfigWrite ((off - 0x3800) / 128) off x s
  else if 0x2C40 ≤ off ∧ off < 0x2DC0 then posWrite ((off - 0x2C40) / 64) off x s
  else swWrite off (globalFields off) x s

/-- A global write to a register of the outputs: drive, boost, protection, closing detection, auxiliary outputs. -/
def writeDrive (off : Nat) (x : Word) (s : State) : State :=
  if off = DRV_PAIR then drvPairWrite x s
  else if inArr off 0x640 16 2 then bstWrite ((off - 0x640) / 16) false x s
  else if inArr off 0x644 16 2 then bstWrite ((off - 0x644) / 16) true x s
  else if inArr off 0x690 16 16 then auxCfgWrite ((off - 0x690) / 16) x s
  else if inArr off 0x698 16 16 then auxStatWrite ((off - 0x698) / 16) x s
  else if inArr off 0xC00 16 36 then drvChCfgWrite ((off - 0xC00) / 16) x s
  else if inArr off 0xED0 4 36 then prtStatWrite ((off - 0xED0) / 4) x s
  else if 0xF60 ≤ off ∧ off < 0x13E0 ∧ (off - 0xF60) % 32 < 16 then cdWrite ((off - 0xF60) / 32) off x s
  else swWrite off (globalFields off) x s

/-- A global write to a register that is not of type PW. -/
def plainWrite (off : Nat) (x : Word) (s : State) : State :=
  if inArr off 0x180 16 4 then plsOwnerWrite ((off - 0x180) / 16) x s
  else if off = PAIR_CFG then pairCfgWrite x s
  else if inArr off 0x420 4 4 then whlInWrite ((off - 0x420) / 4) x s
  else if off = WHL_DIR_CFG then whlDirWrite x s
  else if inArr off 0x498 4 4 then bandWrite ((off - 0x498) / 4) x s
  else if 0x600 ≤ off ∧ off < 0x800 then writeDrive off x s
  else if inArr off 0x800 4 256 then seqQuotaWrite ((off - 0x800) / 4) x s
  else if 0xC00 ≤ off ∧ off < 0x13E0 then writeDrive off x s
  else if off = ACQ_REF then refWrite x s
  else if inArr off 0x1410 4 4 then urgWrite ((off - 0x1410) / 4) x s
  else if 0x2000 ≤ off ∧ off < 0x3000 then writePeriph off x s
  else if 0x3800 ≤ off ∧ off < 0x3C00 then writePeriph off x s
  else writeSystem off x s

/-- A global write to a register that stands, with all its bytes (R526). -/
def globalWrite (off : Nat) (x : Word) (s : State) : State := if isPaired off then valueWrite off x s else plainWrite off x s

/-- A write to the block of DMA channel `ch` by its owner: discarded with `CFG_REJ` while the channel is active, but for `DMA_CTRL`
(DMA R410). -/
def dmaWrite (fn ch off : Nat) (x : Word) (s : State) : State :=
  if dmaOwner s ch ≠ some fn then s
  else if off = 64 * ch + 0x1C then dmaCtrlWrite fn ch x s
  else if dmaActive s ch then flag (DMA_STATUS_CFG_REJ ch) s
  else swWrite (dmaBase + off) (dmaFields off) x s

/-- A write to the window of function `fn`. -/
def clientWrite (fn off : Nat) (x : Word) (s : State) : State :=
  if off = 0x74 then voteWrite fn x s
  else if 0x100 ≤ off ∧ off < 0x120 then
    if isSet s (CLI_RING_CFG_ENABLE fn) then flag (CLI_HL_STATUS_CFG_REJ fn) s
    else swWrite (clientBase fn + off) (clientFields fn off) x s
  else if off = 0x120 then ringCfgWrite fn x s
  else if off = 0x124 then doorbell fn x s
  else if off = 0x12C then resumeWrite fn x s
  else if off = 0x134 then rspHeadWrite fn x s
  else if off = 0x148 then keepAliveWrite fn x s
  else if 0x400 ≤ off ∧ off < 0x700 then dmaWrite fn ((off - 0x400) / 64) (off - 0x400) x s
  else if inArr off 0x300C 16 8 ∧ x.toNat % 2 = 0 then msixUnmask fn ((off - 0x300C) / 16) s
  else swWrite (clientBase fn + off) (clientFields fn off) x s

/-- A complement word of a PW register, by the offset of its value word. -/
def complementOf (off : Nat) : Option Nat := if 4 ≤ off ∧ isPaired (off - 4) then some (off - 4) else none

/-- Offsets at which a client window holds a copy of a global register or of the cycle counter (Table 20-2). -/
def copyOffsets : List Nat := [0x0, 0x4, 0x40, 0x44, 0x58, 0x5C, 0x60, 0x64, 0x68, 0x6C, 0x70, 0x78]

/-- A register, a complement word or a copy stands at `off` of the window (R528). -/
def mapped (fn : Nat) (glob : Bool) (off : Nat) : Bool :=
  if glob then !(globalFields off).isEmpty || (complementOf off).isSome
  else !(clientFields fn off).isEmpty || copyOffsets.contains off
    || (decide (0x400 ≤ off) && decide (off < 0x700) && !(dmaFields (off - 0x400)).isEmpty)

/-- Function `fn` reaches the DWORD at `off`: the global window belongs to PF0, and a client window has 16 KiB (R525). (log entry 90, DEDUCED) -/
def reaches (s : State) (fn : Nat) (glob : Bool) (off : Nat) : Bool :=
  if glob then fn == 0 else fnAnswers s fn && decide (off < 0x4000)

/-- Function `fn` writes the DWORD `x` with byte enables `be` to `off` of the global window or of its own (R525 to R528). (log entry 90, DEDUCED) -/
def accessWrite (fn : Nat) (glob : Bool) (off : Nat) (be : BitVec 4) (x : Word) (s : State) : State :=
  if !reaches s fn glob off then s
  else if s.barred.contains (2 ^ 24 + fn) then s
  else if be ≠ 15 then
    flag (CLI_REG_STATUS_PARTIAL fn) (if mapped fn glob off then s else flag (CLI_REG_STATUS_UNMAPPED fn) s)
  else if !mapped fn glob off then flag (CLI_REG_STATUS_UNMAPPED fn) s
  else if glob then
    match complementOf off with
    | some v => complementWrite v x s
    | none => writes fn (if isPaired off then 2 ^ 23 else off) (globalWrite off x) s
  else writes fn (clientBase fn + off) (clientWrite fn off x) s

/-- `REGISTER_WRITE`: function `fn` writes the DWORD with index `reg` of the global window (`glob`) or of its own (R525 to R528). -/
def execRegisterWrite (dt : Nat) (fn : Fin 256) (glob : Bool) (reg : BitVec 14) (be : BitVec 4) (x : Word) (s : State) :
    Host.Outcome State Fault Refusal :=
  event dt (accessWrite fn glob (4 * reg.toNat) be x) s

/-! ### Reads (R526 to R531) -/

/-- The state with its register fields as they stood at the start of the cycle (R530). (log entry 10, DEDUCED) -/
def atStart (s : State) : State := { s with regs := s.was.foldl (fun r p => Tbl.insert r p.1 p.2) s.regs }

/-- The power domain whose block drives the RO status fields of the register at `off` (R531). -/
def statusDomain (off : Nat) : Option Nat :=
  if 0x180 ≤ off ∧ off < 0x1C0 then some (4 + 2 * ((off - 0x180) / 16))
  else if (0x400 ≤ off ∧ off ≤ 0x410) ∨ (0x480 ≤ off ∧ off ≤ 0x4C8) then some 44
  else if inArr off 0x648 16 2 then some (133 + (off - 0x648) / 16)
  else if inArr off 0x698 16 16 then some (117 + (off - 0x698) / 16)
  else if inArr off 0xC08 16 36 then some (81 + (off - 0xC08) / 16)
  else if inArr off 0xED0 4 36 then some (81 + (off - 0xED0) / 4)
  else if inArr off 0x1410 4 4 then some (68 + (off - 0x1410) / 4)
  else if off = 0x1400 then some 72
  else none

/-- The source block of the register's status fields is powered. (log entry 81, DEDUCED) -/
def sourcePowered (s : State) (off : Nat) : Bool :=
  match statusDomain off with
  | some d => domainAt s d == .on
  | none => true

/-- The word of the fields `fs` of the register at `off`; RO fields of an unpowered source read their reset values (R531). -/
def regWord (s : State) (off : Nat) (fs : List Fld) : Word :=
  if sourcePowered s off then wordNow s fs
  else wordNow (fs.foldl (fun s f => if f.acc = .ro then wr f f.reset s else s) s) fs

/-- The slots that `f` gives for the descriptors of the event memory. -/
def wheelSlots (s : State) (f : Place → Option Nat) : List Nat := s.seq.descs.filterMap (fun d => f d.2.place)

/-- The angle wheel slot of a place. -/
def angleSlot : Place → Option Nat
  | .angle k _ => some k
  | _ => none

/-- The fine wheel slot of a place (R132). -/
def fineSlot : Place → Option Nat
  | .fine p => some (p % 8192)
  | _ => none

/-- The coarse wheel slot of a place (R132). -/
def coarseSlot : Place → Option Nat
  | .coarse p => some (p / 256 % 8192)
  | _ => none

/-- The largest number of descriptors in one slot. (log entry 47, DESIGN CHOICE) -/
def deepest (l : List Nat) : Nat := l.foldl (fun a k => max a (l.count k)) 0

/-- The index of the deepest slot, 0 for an empty wheel; among several it is a free choice, which the spec leaves open. (log entry 47, DESIGN CHOICE) -/
def deepIndex (l : List Nat) (s : State) : Nat × State :=
  match (l.filter (fun k => l.count k == deepest l)).eraseDups with
  | [] => (0, s)
  | [k] => (k, s)
  | ks => let (n, s) := draw s; (ks.getD (n % ks.length) 0, s)

/-- `DEEPEST` and `COUNT` of a wheel. -/
def occWord (l : List Nat) : Word := BitVec.ofNat 32 (deepest l * 65536 + l.length)

/-- The near-list lengths of the four tally pairs. -/
def nearWord (s : State) : Word :=
  BitVec.ofNat 32 ((List.range 4).foldl (fun a p =>
    a + 2 ^ (8 * p) * (s.seq.descs.filter (fun d => d.2.place == .near && pairOf d.2.channel == p)).length) 0)

/-- The word of `ANG_CHAIN`: the chain and the top 8 bits of its fraction; reset values while the tracker is unpowered. (log entry 21, DESIGN CHOICE) -/
def chainWord (s : State) : Word :=
  if domainAt s 44 == .on then BitVec.ofNat 32 (chain s * 256 + (chainNow s % unit * 256 / unit).toNat)
  else regWord s 0x480 (globalFields 0x480)

/-- Bits of the outputs from `lo` on that client `c` owns, `n` of them. -/
def ownWord (s : State) (c lo n : Nat) : Word :=
  BitVec.ofNat 32 ((List.range n).foldl (fun a i => setBit a i (owns s c (lo + i))) 0)

/-- The tally pairs granted to client `c` (pulse R184). -/
def pulseOwnWord (s : State) (c : Nat) : Word :=
  BitVec.ofNat 32 ((List.range 4).foldl (fun a p => setBit a p (plsOwner s p == c)) 0)

/-- The two halves of the cycle counter (timers R341, R344). -/
def cycleLo (s : State) : Word := BitVec.ofNat 32 s.cyc
/-- The upper half. -/
def cycleHi (s : State) : Word := BitVec.ofNat 32 (s.cyc / 2 ^ 32)

/-- The word of `ACQ_URG_k`: `GO` reads 1 until the conversion begins (acquisition R325). (log entry 72, DEDUCED) -/
def urgWord (s : State) (k : Nat) : Word :=
  let t := atStart s
  regWord (if urgentPending s k then t else wrB (ACQ_URG_GO k) false t) (ACQ_URG k) (globalFields (ACQ_URG k))

/-- The word of `HL_OWN_c`: the grant of the odd member of a paralleled pair reads as that of its even member (host link R392). -/
def grantWord (s : State) (c : Nat) : Word :=
  let e := evenMember s c
  regWord s (HL_OWN e) (globalFields (HL_OWN e))

/-- A read of a global register that hardware computes or that acts beyond its fields; none for every other one. (log entry 10, DEDUCED) -/
def readSpecial (off : Nat) (s : State) : Option (Word × State) :=
  if off = GLB_BOOT then some (bootWord (atStart s), s)
  else if off = SEQ_OCC_ANGLE then some (occWord (wheelSlots s angleSlot), s)
  else if off = SEQ_OCC_FINE then some (occWord (wheelSlots s fineSlot), s)
  else if off = SEQ_OCC_COARSE then some (occWord (wheelSlots s coarseSlot), s)
  else if off = SEQ_DEEP_IDX0 then
    let (a, s) := deepIndex (wheelSlots s angleSlot) s
    let (f, s) := deepIndex (wheelSlots s fineSlot) s
    some (BitVec.ofNat 32 (f * 65536 + a), s)
  else if off = SEQ_DEEP_IDX1 then
    let (c, s) := deepIndex (wheelSlots s coarseSlot) s
    some (BitVec.ofNat 32 c, s)
  else if off = SEQ_NEAR then some (nearWord s, s)
  else if off = ANG_CHAIN then some (chainWord s, s)
  else if off = TMR_CYCLE_LO then some (cycleLo s, s)
  else if off = TMR_CYCLE_HI then some (cycleHi s, s)
  else if inArr off 0x2048 32 32 then some (BitVec.ofNat 32 (timerRead s ((off - 0x2048) / 32)), s)
  else if inArr off 0x2814 128 8 then some (peRxRead ((off - 0x2814) / 128) s)
  else if inArr off 0x1410 4 4 then some (urgWord s ((off - 0x1410) / 4), s)
  else if inArr off 0x3400 4 36 then some (grantWord (atStart s) ((off - 0x3400) / 4), s)
  else if off = PWR_ON then some (BitVec.ofNat 32 (powerOn s), s)
  else if off = PWR_HELD then some (BitVec.ofNat 32 (powerHeld s), s)
  else if off = RTC_TIME then some (rtcTimeRead s)
  else if off = RTC_DATE then some (rtcDateWord s, s)
  else none

/-- A read of the global window: the word, and the state after its side effects (R14, R342, R531). -/
def globalRead (off : Nat) (s : State) : Word × State :=
  match complementOf off with
  | some v => (~~~wordOf s (globalFields v) &&& fieldMask (globalFields v), s)
  | none =>
    if regPower s off ≠ .on then (0, s)
    else match readSpecial off s with
      | some r => r
      | none => (regWord (atStart s) off (globalFields off), (globalFields off).foldl (fun s f => clearRead f s) s)

/-- A copy that a client window holds of a register or state outside it (Table 20-2); none at every other offset. -/
def readCopy (fn off : Nat) (s : State) : Option Word :=
  let t := atStart s
  let copy := fun o => some (regWord t o (globalFields o))
  if off = 0x0 then copy GLB_IDENT
  else if off = 0x4 then copy GLB_FW_VERSION
  else if off = 0x40 then copy WHL_STATUS
  else if off = 0x44 then some (chainWord s)
  else if off = 0x58 then some (pulseOwnWord t fn)
  else if off = 0x5C then some (ownWord t fn 0 32)
  else if off = 0x60 then some (ownWord t fn 32 4)
  else if off = 0x64 then some (ownWord t fn 36 16)
  else if off = 0x68 then copy PAIR_STATUS
  else if off = 0x6C then some (cycleLo s)
  else if off = 0x70 then some (cycleHi s)
  else if off = 0x78 then some (BitVec.ofNat 32 (bits (wordNow t (globalFields PWR_STATUS)) 31 29 * 2 ^ 29))
  else none

/-- A SAFETY inhibit stands on an output that client `c` owns. -/
def inhibited (s : State) (c : Nat) : Bool := (List.range 52).any (fun o => bitOf s.seq.inhibit o && owns s c o)

/-- The fields of a client register that copy other state: `QUOTA`, `INHIBIT`, `CLIENT`, `CLASS`, `MP_SAT` and `CAN_BOUND`. -/
def copiedBits (fn off : Nat) (s : State) : Word :=
  let t := atStart s
  let b := fun (c : Bool) (n : Nat) => if c then 2 ^ n else 0
  if off = 0x48 then BitVec.ofNat 32 (rd t (SEQ_QUOTA_QUOTA fn) * 65536)
  else if off = 0x4C then BitVec.ofNat 32 (b (inhibited t fn) 8)
  else if off = 0x140 then
    BitVec.ofNat 32 (fn * 2 ^ 24 + classOf t fn * 2 ^ 14 + b (mpSat t) 11 + b (canBindingOf t fn).isSome 10)
  else 0

/-- A read of the window of function `fn`. (log entry 90, DEDUCED) -/
def clientRead (fn off : Nat) (s : State) : Word × State :=
  match readCopy fn off s with
  | some w => (w, s)
  | none =>
    if 0x400 ≤ off ∧ off < 0x700 then
      if dmaOwner (atStart s) ((off - 0x400) / 64) = some fn then (wordOf s (dmaFields (off - 0x400)), s) else (0, s)
    else if off = 0x12C then (0, s)
    else (wordOf s (clientFields fn off) ||| copiedBits fn off s, (clientFields fn off).foldl (fun s f => clearRead f s) s)

/-- The bytes that the byte enables request (R527). -/
def byteMask (be : BitVec 4) : Word :=
  BitVec.ofNat 32 ((List.range 4).foldl (fun a i => if bitOf be.toNat i then a + 255 * 2 ^ (8 * i) else a) 0)

/-- Function `fn` reads the DWORD at `off` of the global window or of its own: the word it returns, and the state after the read's
side effects, which apply to the whole register (R526 to R530). -/
def accessRead (fn : Nat) (glob : Bool) (off : Nat) (be : BitVec 4) (s : State) : State :=
  if !reaches s fn glob off then s
  else
    let (w, s) := if !mapped fn glob off then (0, flag (CLI_REG_STATUS_UNMAPPED fn) s)
      else if glob then globalRead off s else clientRead fn off s
    { s with out := .readData fn (if glob then off else clientBase fn + off) (w &&& byteMask be) :: s.out }

/-- `READ_CLEAR_READ`: function `fn` reads the DWORD with index `reg` of the global window (`glob`) or of its own; the read clears
what reading clears (R14, R526 to R530). -/
def execReadClearRead (dt : Nat) (fn : Fin 256) (glob : Bool) (reg : BitVec 14) (be : BitVec 4) (s : State) :
    Host.Outcome State Fault Refusal :=
  event dt (accessRead fn glob (4 * reg.toNat) be) s

end Sys2Proof.Machine
end

