-- ==== Sys2Proof/Machine/AcqEvents.lean ====
section
/-! DEFINITION. The timed events of the acquisition lists, the window monitors and the comparator tests (acquisition R315 to R341). -/
namespace Sys2Proof.Machine

/-! ### Converters (R323) -/

/-- `CONVERSION_DONE`: converter `k` completes its conversion; `vin` and `vref` are the input and the reference in µV (R323). -/
def execConversionDone (dt : Nat) (k : Fin 4) (vin vref : Nat) (s : State) : Host.Outcome State Fault Refusal :=
  event dt (conversionDone k vin vref) s

/-! ### Triggers (R320 to R324, R330) -/

/-- `ACQ_ANGLE_TRIGGER`: the chain reaches the next trigger angle of ANGLE list `l` (R320). -/
def execAcqAngleTrigger (dt : Nat) (l : Fin 32) (s : State) : Host.Outcome State Fault Refusal :=
  event dt (fun s =>
    let x := acqList s l
    if acqRunning s l ∧ x.kind = 0 ∧ acqLive s x then angleTriggers l (x.steps + 1) s else s) s

/-- `ACQ_TIME_TRIGGER`: the trigger time of TIME list `l` arrives (R321). -/
def execAcqTimeTrigger (dt : Nat) (l : Fin 32) (s : State) : Host.Outcome State Fault Refusal :=
  event dt (fun s =>
    let x := acqList s l
    if acqRunning s l ∧ x.kind = 1 ∧ x.next ≤ s.cyc then
      acqTrigger l (onList l (fun y => { y with next := x.next + x.period }) s)
    else s) s

/-! ### Knock windows (R328) -/

/-- `KNOCK_WINDOW_OPEN`: the chain reaches A0 of KNOCK list `l` (R328). -/
def execKnockWindowOpen (dt : Nat) (l : Fin 32) (s : State) : Host.Outcome State Fault Refusal := event dt (knockOpen l) s

/-- `KNOCK_TRIGGER`: `KPER` paces after the last trigger of KNOCK list `l` (R328). -/
def execKnockTrigger (dt : Nat) (l : Fin 32) (s : State) : Host.Outcome State Fault Refusal :=
  event dt (fun s => match (acqList s l).knock with
    | some k => if k.next ≤ s.cyc ∧ chainLinks s < k.close then knockTrigger l s else s
    | none => s) s

/-- `KNOCK_WINDOW_CLOSE`: the chain reaches A0 + `WIDTH` of KNOCK list `l` (R328). -/
def execKnockWindowClose (dt : Nat) (l : Fin 32) (s : State) : Host.Outcome State Fault Refusal :=
  event dt (fun s => match (acqList s l).knock with
    | some k => if k.close ≤ chainLinks s then knockClose l false s else s
    | none => s) s

/-! ### The reference (R329 to R331) -/

/-- `REFERENCE_SETTLED`: the settling time of the reference ends (R330). -/
def execReferenceSettled (dt : Nat) (s : State) : Host.Outcome State Fault Refusal := event dt refSettled s

/-- `EXT_REF_RANGE`: the external reference comes within (`within`) or leaves 2.0 V to 3.0 V (R330). (log entry 72, DEDUCED) -/
def execExtRefRange (dt : Nat) (within : Bool) (s : State) : Host.Outcome State Fault Refusal :=
  event dt (fun s =>
    let s := wrB ACQ_REF_EXT_RANGE (!within) { s with acq := { s.acq with extOk := within } }
    if rd s ACQ_REF_SEL ≠ 1 then s
    else if within then { s with acq := { s.acq with refAt := s.cyc } }
    else refUnsettle s) s

/-- `ACQ_REF_WRITE`: PF0 writes the reference selection (R329). -/
def execAcqRefWrite (dt : Nat) (x : Word) (s : State) : Host.Outcome State Fault Refusal := event dt (writes 0 ACQ_REF (refWrite x)) s

/-! ### Urgent conversions (R325) -/

/-- `ACQ_URG_GO_WRITE`: PF0 writes `ACQ_URG_k` (R325). -/
def execAcqUrgGoWrite (dt : Nat) (k : Fin 4) (x : Word) (s : State) : Host.Outcome State Fault Refusal :=
  event dt (writes 0 (ACQ_URG k) (urgWrite k x)) s

/-! ### Violations (R333) -/

/-- `MONITOR_THRESHOLD_CROSSING`: the guarding comparator pair of monitor `i` reports its input, at code `q`, across a threshold
(R333, R335). -/
def execMonitorThresholdCrossing (dt : Nat) (i : Fin 16) (q : BitVec 10) (s : State) : Host.Outcome State Fault Refusal :=
  event dt (monCrossing i q.toNat) s

/-- `MONITOR_VIOLATION`: the input of monitor `i` has stood beyond `HIGH` (`high`) or `LOW` for `FILTER` µs (R333). -/
def execMonitorViolation (dt : Nat) (i : Fin 16) (high : Bool) (s : State) : Host.Outcome State Fault Refusal :=
  event dt (monViolation i high) s

/-- `MONITOR_RECOVER`: the input of monitor `i` returns to code `q` (R333). -/
def execMonitorRecover (dt : Nat) (i : Fin 16) (q : BitVec 10) (s : State) : Host.Outcome State Fault Refusal :=
  event dt (monRecover i q.toNat) s

/-! ### Self-test of a monitor (R334 to R336) -/

/-- `MONITOR_AUTO_TEST`: the once-per-second test of monitor `i` is due (R334). -/
def execMonitorAutoTest (dt : Nat) (i : Fin 16) (s : State) : Host.Outcome State Fault Refusal := event dt (monAuto i) s

/-! ### Self-test of a channel's comparators (R337, R338) -/

/-- `MONITOR_TEST_STEP`: a self-test step of item `i` ends (items 0 to 15 monitors, 16 to 51 the comparators of channels 0 to 35);
`aboveLow` and `aboveHigh` are the outputs of the pair under test. For a channel whose test is deferred it is the retest of R222. -/
def execMonitorTestStep (dt : Nat) (i : Fin 52) (aboveLow aboveHigh : Bool) (s : State) : Host.Outcome State Fault Refusal :=
  event dt (fun s => if i.val < 16 then monStep i (aboveLow, aboveHigh) s else cmpStep (i.val - 16) (aboveLow, aboveHigh) s) s

end Sys2Proof.Machine
end

