-- ==== Sys2Proof/Machine/PeriphEvents.lean ====
section
/-! DEFINITION. The timed events of the timers, the pin engines and the position feedback (R345 to R368). -/
namespace Sys2Proof.Machine

/-- `TMR_START_WRITE`: PF0 writes `x` to `TMR_START` (R345, R347). -/
def execTmrStartWrite (dt : Nat) (x : Word) (s : State) : Host.Outcome State Fault Refusal :=
  event dt (writes 0 TMR_START (timersWrite true x)) s

/-- `TMR_STOP_WRITE`: PF0 writes `x` to `TMR_STOP` (R345, R347). -/
def execTmrStopWrite (dt : Nat) (x : Word) (s : State) : Host.Outcome State Fault Refusal :=
  event dt (writes 0 TMR_STOP (timersWrite false x)) s

/-! ### Match and capture (R348, R349) -/

/-- `TIMER_MATCH`: a tick of timer `t` makes `COUNT` equal to `CMP` (R348). -/
def execTimerMatch (dt : Nat) (t : Fin 32) (s : State) : Host.Outcome State Fault Refusal :=
  event dt (fun s => if matchDue s t then timerMatch t s else s) s

/-- The level that an edge of source `src` of Table 12-1 leaves on a pad that the module does not drive. (log entry 73, DEDUCED) -/
def padEdge (src : Nat) (rising : Bool) (s : State) : State :=
  if 4 ≤ src ∧ src < 12 then tioPads (setBit (rd s TMR_PIN_LEVEL) (src - 4) rising) s
  else if 32 ≤ src ∧ src < 56 then (if driving s then s else setPad (src - 32) rising s)
  else s

/-- `TIMER_CAPTURE`: the filter of timer `t` passes an edge of its capture source (R349). -/
def execTimerCapture (dt : Nat) (t : Fin 32) (rising : Bool) (s : State) : Host.Outcome State Fault Refusal :=
  event dt (fun s =>
    if domainOn s (54 + t.val / 4) then timerEdge t rising (padEdge (rd s (TMR_CFG_CAP_SRC t)) rising s) else s) s

/-- `PE_RUN_WRITE`: PF0 writes `x` to `PE_CTRL` of engine `n` (R352). -/
def execPeRunWrite (dt : Nat) (n : Fin 8) (x : Word) (s : State) : Host.Outcome State Fault Refusal :=
  event dt (writes 0 (PE_CTRL n) (peRunWrite n x)) s

/-- `PE_TX_WRITE`: PF0 writes `x` to `PE_TX` of engine `n` (R356). -/
def execPeTxWrite (dt : Nat) (n : Fin 8) (x : Word) (s : State) : Host.Outcome State Fault Refusal :=
  event dt (writes 0 (PE_TX n) (peTxWrite n x)) s

/-- `PE_RX_READ`: PF0 reads `PE_RX` of engine `n` (R356). -/
def execPeRxRead (dt : Nat) (n : Fin 8) (s : State) : Host.Outcome State Fault Refusal :=
  event dt (fun s => let (w, s) := peRxRead n s; { s with out := .readData 0 (PE_RX n) w :: s.out }) s

/-! ### The program word (Table 12-2) -/

/-- `PIN_ENGINE_TICK`: a tick of engine `n`; `pins` are its four pins as they stood two cycles before (R351, R354). -/
def execPinEngineTick (dt : Nat) (n : Fin 8) (pins : BitVec 4) (s : State) : Host.Outcome State Fault Refusal :=
  event dt (fun s => if peRuns s n ∧ (peAt s n).next ≤ 256 * s.cyc + 255 then peTick n pins.toNat s else s) s

/-- `POSITION_INPUT_CHANGE`: the filtered inputs A, B, Z (U, V, W) of interface `i` take these levels (R360). -/
def execPositionInputChange (dt : Nat) (i : Fin 6) (a b z : Bool) (s : State) : Host.Outcome State Fault Refusal :=
  event dt (fun s => if posOn s i then posInputs i a b z s else s) s

/-- `POSITION_INDEX`: a filtered rising edge of Z, after the other changes of its cycle (R361). -/
def execPositionIndex (dt : Nat) (i : Fin 6) (s : State) : Host.Outcome State Fault Refusal :=
  event dt (fun s =>
    let x := posAt s i
    if !posOn s i || !indexEdge s i then s
    else
      let s := onPos i (fun x => { x with z := true, zAt := some s.cyc, idxAt := some s.cyc }) s
      if posMode s i 1 && (!isSet s (POS_CFG_IDX_QUAL i) || (x.a && x.b)) then posIndex i s else s) s

/-! ### SENT and SSI (R362 to R364) -/

/-- `SENT_FRAME`: the pulses of a frame on input A, in core cycles: calibration, status, data, CRC, and the pause pulse or
the next calibration pulse (R362). -/
def execSentFrame (dt : Nat) (i : Fin 6) (pulses : List Nat) (s : State) : Host.Outcome State Fault Refusal :=
  event dt (sentFrame i pulses) s

/-- `SSI_FRAME_START`: the data input has (`idle`) or has not read 1 for the preceding `MONO` µs (R363). -/
def execSsiFrameStart (dt : Nat) (i : Fin 6) (idle : Bool) (s : State) : Host.Outcome State Fault Refusal :=
  event dt (ssiStart i idle) s

/-- `SSI_FRAME_DONE`: the frame ends; `data` holds the changes of the data input since its start, each with the cycles from there
and the new level, the oldest first (R363, R364). -/
def execSsiFrameDone (dt : Nat) (i : Fin 6) (data : List (Nat × Bool)) (s : State) : Host.Outcome State Fault Refusal :=
  event dt (ssiDone i data) s

/-- `POSITION_SOURCE_LOST`: no valid frame has ended in the time of R364, or four SSI idle tests have failed. -/
def execPositionSourceLost (dt : Nat) (i : Fin 6) (s : State) : Host.Outcome State Fault Refusal :=
  event dt (fun s =>
    let x := posAt s i
    if (posMode s i 3 && decide (x.validAt + sentLimit s i ≤ s.cyc)) ||
       (posMode s i 4 && pinsDriven s && decide (4 ≤ x.fails)) then posLost i s else s) s

/-! ### Register writes (R358, R365, R366) -/

/-- `POS_COUNT_WRITE`: PF0 writes `x` to `POS_COUNT` of interface `i` (R366). -/
def execPosCountWrite (dt : Nat) (i : Fin 6) (x : Word) (s : State) : Host.Outcome State Fault Refusal :=
  event dt (writes 0 (POS_COUNT i) (fun s => if posOn s i then posPreset i x s else s)) s

end Sys2Proof.Machine
end

