-- ==== Sys2Proof/Machine/PulseEvents.lean ====
section
/-! DEFINITION. The commands that execute one pulse instruction, and the timed events of the pulse programs (pulse R160 to R181). -/
namespace Sys2Proof.Machine

/-! ### The instruction commands -/

/-- A command that has context `n` execute `op` in the present cycle. (log entry 52, DESIGN CHOICE) -/
def instruction (dt : Nat) (n : Fin 64) (op : POp) (s : State) : Host.Outcome State Fault Refusal :=
  event dt (fun s =>
    if canExecute s n.val then (pulseStep n.val (if op.legal then some op else none) s.cyc s).1 else s) s

/-- ADD (Table 5-4). -/
def execAdd (dt : Nat) (n : Fin 64) (cd ca : Fin 16) (b : PArg) (s : State) : Host.Outcome State Fault Refusal :=
  instruction dt n (.alu .add cd.val ca.val b) s

/-- SUB (Table 5-4). -/
def execSub (dt : Nat) (n : Fin 64) (cd ca : Fin 16) (b : PArg) (s : State) : Host.Outcome State Fault Refusal :=
  instruction dt n (.alu .sub cd.val ca.val b) s

/-- AND (Table 5-4). -/
def execAnd (dt : Nat) (n : Fin 64) (cd ca : Fin 16) (b : PArg) (s : State) : Host.Outcome State Fault Refusal :=
  instruction dt n (.alu .and cd.val ca.val b) s

/-- OR (Table 5-4). -/
def execOr (dt : Nat) (n : Fin 64) (cd ca : Fin 16) (b : PArg) (s : State) : Host.Outcome State Fault Refusal :=
  instruction dt n (.alu .or cd.val ca.val b) s

/-- XOR (Table 5-4). -/
def execXor (dt : Nat) (n : Fin 64) (cd ca : Fin 16) (b : PArg) (s : State) : Host.Outcome State Fault Refusal :=
  instruction dt n (.alu .xor cd.val ca.val b) s

/-- SHL (Table 5-4). -/
def execShl (dt : Nat) (n : Fin 64) (cd ca : Fin 16) (b : PArg) (s : State) : Host.Outcome State Fault Refusal :=
  instruction dt n (.alu .shl cd.val ca.val b) s

/-- SHR (Table 5-4). -/
def execShr (dt : Nat) (n : Fin 64) (cd ca : Fin 16) (b : PArg) (s : State) : Host.Outcome State Fault Refusal :=
  instruction dt n (.alu .shr cd.val ca.val b) s

/-- MUL16 (Table 5-4). -/
def execMul16 (dt : Nat) (n : Fin 64) (cd ca : Fin 16) (b : PArg) (s : State) : Host.Outcome State Fault Refusal :=
  instruction dt n (.alu .mul16 cd.val ca.val b) s

/-- LDP (R166). -/
def execLdp (dt : Nat) (n : Fin 64) (cd ca : Fin 16) (off : BitVec 11) (s : State) : Host.Outcome State Fault Refusal :=
  instruction dt n (.ldp cd.val ca.val off.toNat) s

/-- STP (R166). -/
def execStp (dt : Nat) (n : Fin 64) (cd ca : Fin 16) (off : BitVec 11) (s : State) : Host.Outcome State Fault Refusal :=
  instruction dt n (.stp cd.val ca.val off.toNat) s

/-- WAITA (R168). -/
def execWaita (dt : Nat) (n : Fin 64) (cd ca : Fin 16) (limit : Option (Fin 16)) (s : State) : Host.Outcome State Fault Refusal :=
  instruction dt n (.waita cd.val ca.val (limit.map Fin.val)) s

/-- WAITT (R169). -/
def execWaitt (dt : Nat) (n : Fin 64) (cd ca : Fin 16) (rel : Bool) (s : State) : Host.Outcome State Fault Refusal :=
  instruction dt n (.waitt cd.val ca.val rel) s

/-- WAITE (R170). -/
def execWaite (dt : Nat) (n : Fin 64) (cd : Fin 16) (limit : Option (Fin 16)) (det : Bool) (kind : BitVec 2)
    (source : BitVec 5) (s : State) : Host.Outcome State Fault Refusal :=
  instruction dt n (.waite cd.val (limit.map Fin.val) det kind.toNat source.toNat) s

/-- STK (R164, R174, R175). -/
def execStk (dt : Nat) (n : Fin 64) (cd ca : Fin 16) (slot : Fin 4) (action : BitVec 2) (s : State) :
    Host.Outcome State Fault Refusal :=
  instruction dt n (.stk cd.val ca.val slot.val action.toNat) s

/-- ADCT (R175). -/
def execAdct (dt : Nat) (n : Fin 64) (cd ca : Fin 16) (line : Fin 16) (s : State) : Host.Outcome State Fault Refusal :=
  instruction dt n (.adct cd.val ca.val line.val) s

/-- CAPT (Table 5-5). -/
def execCapt (dt : Nat) (n : Fin 64) (cd ca : Fin 16) (source : BitVec 6) (s : State) : Host.Outcome State Fault Refusal :=
  instruction dt n (.capt cd.val ca.val source.toNat) s

/-- QIN (R173). -/
def execQin (dt : Nat) (n : Fin 64) (cd : Fin 16) (q : BitVec 4) (s : State) : Host.Outcome State Fault Refusal :=
  instruction dt n (.qin cd.val q.toNat) s

/-- QOUT (R173). -/
def execQout (dt : Nat) (n : Fin 64) (ca : Fin 16) (q : BitVec 4) (s : State) : Host.Outcome State Fault Refusal :=
  instruction dt n (.qout ca.val q.toNat) s

/-- BR (Table 5-4). -/
def execBr (dt : Nat) (n : Fin 64) (t : BitVec 12) (s : State) : Host.Outcome State Fault Refusal :=
  instruction dt n (.br t.toNat) s

/-- BRZ (Table 5-4). -/
def execBrz (dt : Nat) (n : Fin 64) (ca : Fin 16) (t : BitVec 12) (s : State) : Host.Outcome State Fault Refusal :=
  instruction dt n (.brz ca.val t.toNat) s

/-- BRN (Table 5-4). -/
def execBrn (dt : Nat) (n : Fin 64) (ca : Fin 16) (t : BitVec 12) (s : State) : Host.Outcome State Fault Refusal :=
  instruction dt n (.brn ca.val t.toNat) s

/-- BRC (Table 5-4). -/
def execBrc (dt : Nat) (n : Fin 64) (c : Fin 16) (t : BitVec 12) (s : State) : Host.Outcome State Fault Refusal :=
  instruction dt n (.brc c.val t.toNat) s

/-- YIELD (R160). -/
def execYield (dt : Nat) (n : Fin 64) (s : State) : Host.Outcome State Fault Refusal := instruction dt n .yield s

/-- HALT (R179). -/
def execHalt (dt : Nat) (n : Fin 64) (s : State) : Host.Outcome State Fault Refusal := instruction dt n .halt s

/-! ### Waking (R167 to R173) -/

/-- `PULSE_WAKE`: where a pulse share begins, what has happened since the pace boundary wakes context `n`, which the share then
dispatches in its order. -/
def execPulseWake (dt : Nat) (n : Fin 64) (s : State) : Host.Outcome State Fault Refusal :=
  event dt (fun s =>
    if shareBegins s ∧ !(pairAt s (n.val / 16)).halted then wakeCtx none n.val s else s) s

/-- `WAIT_LIMIT_EXPIRY`: where a pulse share begins, the time limit of context `n` wakes it unless its condition has occurred
(R167, R172). -/
def execWaitLimitExpiry (dt : Nat) (n : Fin 64) (s : State) : Host.Outcome State Fault Refusal :=
  event dt (fun s =>
    if shareBegins s ∧ !(pairAt s (n.val / 16)).halted then shareWake n.val s else s) s

/-! ### Stakes that fire (R25, R174, R176) -/

/-- `PULSE_STAKE_FIRE`: pulse stake `slot` of pair `p`, whose value and complement comparators match as given. -/
def execPulseStakeFire (dt : Nat) (p : Fin 4) (slot : Fin 32) (value compl : Bool) (s : State) :
    Host.Outcome State Fault Refusal :=
  event dt (fun s =>
    match Tbl.find (plsAt s p.val).stakes slot.val with
    | none => s
    | some x =>
      let s' := onPls p.val (fun q => { q with stakes := Tbl.erase q.stakes slot.val }) s
      if value && compl then (if x.cycle = s.cyc then firePulse p.val x s' else s)
      else if value || compl then failPulse p.val x s'
      else s) s

/-! ### The bank exchange (R181) -/

/-- `PULSE_BANK_EXCHANGE`: the first pace boundary after firmware accepted a `PULSE_SWITCH`, which is answered with its pace
number. -/
def execPulseBankExchange (dt : Nat) (p : Fin 4) (s : State) : Host.Outcome State Fault Refusal :=
  event dt (fun s =>
    match (plsAt s p.val).switch with
    | none => s
    | some (m, at_) =>
      if s.cyc % 100 = 0 ∧ at_ < s.cyc then
        respond 0x0151 m 0 0 [wd (paceNow s % 2 ^ 32)] (exchange p.val (onPls p.val (fun x => { x with switch := none }) s))
      else s) s

end Sys2Proof.Machine
end

