-- ==== Sys2Proof/Machine/StageEvents.lean ====
section
/-! DEFINITION. The timed events of the power stages: solenoid drive, boost supplies, stage protection, closing detection, auxiliary outputs
(drive R187 to R226, boost R227 to R254, closing R255 to R275, auxiliary R277 to R290). -/
namespace Sys2Proof.Machine

/-! ### Phases and regulation -/

/-- `PHASE_EXIT_TIME`: the `TIME` of the phase in progress on channel `c` elapses (R203). -/
def execPhaseExitTime (dt : Nat) (c : Fin 36) (s : State) : Host.Outcome State Fault Refusal :=
  event dt (phaseExitTimeDue c) s

/-- `WINDOW_COMPARATOR_CROSSING`: the coil current of channel `c` crosses `I_HIGH` (`high`) or `I_LOW` of the phase in
progress, rising (`up`) or falling (R204). (log entry 61, DESIGN CHOICE) -/
def execWindowComparatorCrossing (dt : Nat) (c : Fin 36) (high up : Bool) (s : State) : Host.Outcome State Fault Refusal :=
  event dt (comparator c high up) s

/-- `REGULATION_MIN_TIME`: a minimum time of channel `c` ends (R205). -/
def execRegulationMinTime (dt : Nat) (c : Fin 36) (s : State) : Host.Outcome State Fault Refusal :=
  event dt (minTimeOver c) s

/-- `TIME_ONLY_TOGGLE`: a `T_ON` or `T_OFF` interval of channel `c` ends (R206). -/
def execTimeOnlyToggle (dt : Nat) (c : Fin 36) (s : State) : Host.Outcome State Fault Refusal :=
  event dt (toggleSource c) s

/-! ### The end of the decay (R210, protection R237) -/

/-- `DECAY_END`: the decaying current of channel `c` falls below 50 mA; `drawn` holds the draws G_m in µJ, as the drive die measured them,
of the events that ran since the channel was last idle, oldest first (R210, protection R237). -/
def execDecayEnd (dt : Nat) (c : Fin 36) (drawn : List Nat) (s : State) : Host.Outcome State Fault Refusal :=
  event dt (decayOver c drawn) s

/-! ### The duty limit (R213, R214) -/

/-- `DUTY_LIMIT_REACHED`: the energised time of channel `c` reaches its allowance (R214). -/
def execDutyLimitReached (dt : Nat) (c : Fin 36) (s : State) : Host.Outcome State Fault Refusal :=
  event dt (dutyCut c) s

/-! ### Plausibility (R217) -/

/-- `PLAUS_TIMEOUT`: 4 × t_exp have passed without an `I_HIGH` crossing on channel `c` (R217). -/
def execPlausTimeout (dt : Nat) (c : Fin 36) (s : State) : Host.Outcome State Fault Refusal :=
  event dt (plausTimedOut c) s

/-! ### Storing a profile (R198) -/

/-- `PROFILE_STORE_DONE`: the drive die has stored and checked a profile slot (R198). -/
def execProfileStoreDone (dt : Nat) (s : State) : Host.Outcome State Fault Refusal := event dt profileStored s

/-! ### Offset calibration (R222 to R224) -/

/-- `SENSE_CAL_RUN`: channel `c` is tested for a deferred calibration (R222). -/
def execSenseCalRun (dt : Nat) (c : Fin 36) (s : State) : Host.Outcome State Fault Refusal := event dt (calRun c) s

/-- `SENSE_CAL_DONE`: the 40 µs of the calibration of channel `c` are over; `mA` is the mean sense output (R223). -/
def execSenseCalDone (dt : Nat) (c : Fin 36) (mA : Int) (s : State) : Host.Outcome State Fault Refusal :=
  event dt (calDone c mA) s

/-- `SENSE_CAL_TIMEOUT`: channel `c` has not become idle within the limit (R222). -/
def execSenseCalTimeout (dt : Nat) (c : Fin 36) (s : State) : Host.Outcome State Fault Refusal :=
  event dt (calTimeout c) s

/-- `BOOST_READY_CHANGE`: the bank voltage of controller `b`, in 0.1 V, crosses V_ready (R234). -/
def execBoostReadyChange (dt : Nat) (b : Fin 2) (v : BitVec 12) (s : State) : Host.Outcome State Fault Refusal :=
  event dt (setVcap b v.toNat) s

/-! ### Discharge (R232) -/

/-- `BOOST_DISCHARGE_END`: the bank of controller `b`, read as `v`, has fallen below 50 V in DISCHARGE (R232). -/
def execBoostDischargeEnd (dt : Nat) (b : Fin 2) (v : BitVec 12) (s : State) : Host.Outcome State Fault Refusal :=
  event dt (fun s =>
    let s := setVcap b v.toNat s
    if boostState s b = 5 ∧ v.toNat < 500 then boostEnter b 0 (onBoost b (fun y => { y with bleed := false }) s) else s) s

/-! ### The clamp (R239) -/

/-- `CLAMP_ENGAGE`: the bank of controller `b`, read as `v`, reaches the clamp level (R239). -/
def execClampEngage (dt : Nat) (b : Fin 2) (v : BitVec 12) (s : State) : Host.Outcome State Fault Refusal :=
  event dt (fun s =>
    let s := setVcap b v.toNat s
    if (boostAt s b).clamped ∨ v.toNat < 10 * clampLevel s b then s
    else
      let s := onBoost b (fun y => { y with clamped := true }) s
      if vbatHolds s b then s
      else raisePerCycle 0x0523 b (0x58 + b) 0 0 (flag (BST_STATUS_CLAMP_SEEN b) (count (BST_COUNT_CLAMPS b) 1 s))) s

/-- `CLAMP_RELEASE`: the bank of controller `b`, read as `v`, falls below V_clamp − 2 V (R239). -/
def execClampRelease (dt : Nat) (b : Fin 2) (v : BitVec 12) (s : State) : Host.Outcome State Fault Refusal :=
  event dt (fun s =>
    let s := setVcap b v.toNat s
    if v.toNat < 10 * (clampLevel s b - 2) then onBoost b (fun y => { y with clamped := false }) s else s) s

/-! ### Waiting for the boost (Table 7-3) -/

/-- `BOOST_WAIT_EXPIRY`: `BOOST_WAIT` elapses on channel `c` (R235). -/
def execBoostWaitExpiry (dt : Nat) (c : Fin 36) (s : State) : Host.Outcome State Fault Refusal := event dt (boostWaitOver c) s

/-! ### Configuration (R232, R237, R241, R254) -/

/-- `BST_CFG_WRITE`: PF0 writes `x` to `BST_CFG_b`, or to `BST_CAP_b` (`cap`) (R254). -/
def execBstCfgWrite (dt : Nat) (b : Fin 2) (cap : Bool) (x : Word) (s : State) : Host.Outcome State Fault Refusal :=
  event dt (writes 0 (if cap then BST_CAP b else BST_CFG b) (bstWrite b cap x)) s

/-- `RAMP_VIOLATION`: `t` cycles into the ramp of a high side (`high`) or the low side of channel `c`, which began at V_DS = `v0`, the ramp
monitor measures `vds`, both in 0.1 V, and a current slope of `slope`, in 0.1 A/µs (R243, R244). -/
def execRampViolation (dt : Nat) (c : Fin 36) (high : Bool) (t : Nat) (v0 vds slope : BitVec 12) (s : State) :
    Host.Outcome State Fault Refusal :=
  event dt (fun s =>
    if energised s c && rampViolated s c high t v0.toNat vds.toNat slope.toNat then tripLatched c 0x0524 (if high then 0x23 else 0x24) s
    else s) s

/-- `DESATURATION`: the high side (`high`) or the low side of channel `c` has stood at V_DS of at least `vds`, in 0.1 V, for the last `held`
cycles (R245). -/
def execDesaturation (dt : Nat) (c : Fin 36) (high : Bool) (vds : BitVec 12) (held : Nat) (s : State) : Host.Outcome State Fault Refusal :=
  event dt (fun s =>
    if energised s c && desaturated s c high vds.toNat held then tripLatched c 0x0525 (if high then 0x25 else 0x26) s else s) s

/-! ### The off-state test (R247) -/

/-- `OFF_STATE_TEST`: the drive die begins an off-state test of channel `c` (R247). -/
def execOffStateTest (dt : Nat) (c : Fin 36) (s : State) : Host.Outcome State Fault Refusal :=
  event dt (fun s =>
    if testDue s c then onChan c (fun x => { x with test := some s.cyc, testAt := s.cyc }) s else s) s

/-- `OFF_STATE_TEST_RESULT`: the 20 µs of the test of channel `c` are over, with these voltages in 0.1 V (R247). -/
def execOffStateTestResult (dt : Nat) (c : Fin 36) (drain high : BitVec 12) (s : State) :
    Host.Outcome State Fault Refusal :=
  event dt (testResult c drain.toNat high.toNat) s

/-! ### The open-load check (R248) -/

/-- `OPEN_LOAD_CHECK`: the current of channel `c` at `OPEN_T`, in 10 mA, and what its drain then does (R248). -/
def execOpenLoadCheck (dt : Nat) (c : Fin 36) (amps drain : BitVec 12) (s : State) : Host.Outcome State Fault Refusal :=
  event dt (openLoad c amps.toNat drain.toNat) s

/-! ### Thermal limits (R249, R250) -/

/-- `CHANNEL_THERMAL`: the junction temperature of channel `c` is measured, °C + 64 (R249). -/
def execChannelThermal (dt : Nat) (c : Fin 36) (t : BitVec 8) (s : State) : Host.Outcome State Fault Refusal :=
  event dt (channelThermal c t.toNat) s

/-- `SUBSTRATE_THERMAL`: the temperature of zone A or B (`zone`) is measured, °C + 64 (R250). -/
def execSubstrateThermal (dt : Nat) (zone : Fin 2) (t : BitVec 8) (s : State) : Host.Outcome State Fault Refusal :=
  event dt (zoneThermal zone t.toNat) s

/-! ### Latches (R252) -/

/-- `PRT_LATCH_WRITE`: PF0 writes `x` to `PRT_STAT_c` (R253, R254). -/
def execPrtLatchWrite (dt : Nat) (c : Fin 36) (x : Word) (s : State) : Host.Outcome State Fault Refusal :=
  event dt (writes 0 (PRT_STAT c) (prtStatWrite c x)) s

/-- `CLOSING_KINK`: converter `k` has sampled `v`, sample 0 first, and `below` is the first sample at which the current was below
50 mA (R257 to R261). -/
def execClosingKink (dt : Nat) (k : Fin 8) (v : List (BitVec 12)) (below : Nat) (s : State) :
    Host.Outcome State Fault Refusal :=
  event dt (kinkFound k v below) s

/-- `CLOSING_WINDOW_END`: the closing window that converter `k` serves ends (R260). -/
def execClosingWindowEnd (dt : Nat) (k : Fin 8) (s : State) : Host.Outcome State Fault Refusal := event dt (windowOver k) s

/-! ### Protection -/

/-- `INRUSH_END`: the inrush window of output `n` ends by its timer or its I²t bound (R280). (log entry 63, DEDUCED) -/
def execInrushEnd (dt : Nat) (n : Fin 16) (aux : List AuxRun) (s : State) : Host.Outcome State Fault Refusal :=
  event dt (fun s => inrushEnd n (auxMeasure aux s)) s

/-- `AUX_SHORT`: output `n` meets criterion (a) or (b) of R282. -/
def execAuxShort (dt : Nat) (n : Fin 16) (aux : List AuxRun) (s : State) : Host.Outcome State Fault Refusal :=
  event dt (fun s => auxShort n (auxMeasure aux s)) s

/-- `AUX_OPEN_LOAD`: output `n` has drawn less than `OPEN_I` for 2 ms outside its inrush window (R286). -/
def execAuxOpenLoad (dt : Nat) (n : Fin 16) (aux : List AuxRun) (s : State) : Host.Outcome State Fault Refusal :=
  event dt (fun s => auxOpen n (auxMeasure aux s)) s

/-- `AUX_BACKFEED`: output `n` stands above half of V_feed while off (R287). -/
def execAuxBackfeed (dt : Nat) (n : Fin 16) (aux : List AuxRun) (s : State) : Host.Outcome State Fault Refusal :=
  event dt (fun s => auxBackfeed n (auxMeasure aux s)) s

/-- `AUX_THERMAL`: the junction temperature of output `n` is measured, °C + 64 (R288). -/
def execAuxThermal (dt : Nat) (n : Fin 16) (t : BitVec 8) (s : State) : Host.Outcome State Fault Refusal :=
  event dt (auxThermal n t.toNat) s

/-! ### Latches (R284) -/

/-- `RETRY_RELEASE`: the retry interval of output `o` (0 to 35 channels, 36 to 51 auxiliary outputs) ends (R252, R284). -/
def execRetryRelease (dt : Nat) (o : Fin 52) (s : State) : Host.Outcome State Fault Refusal :=
  event dt (fun s => if o.val < 36 then retryChannel o s else retryAux (o.val - 36) s) s

/-- `AUX_LATCH_WRITE`: PF0 writes `AUX_STAT_n` (R289). -/
def execAuxLatchWrite (dt : Nat) (n : Fin 16) (x : Word) (s : State) : Host.Outcome State Fault Refusal :=
  event dt (writes 0 (AUX_STAT n) (auxStatWrite n x)) s

end Sys2Proof.Machine
end

