-- ==== Sys2Proof/Machine/Dispatch.lean ====
section
/-! DEFINITION. What each command does: one arm per constructor, each a direct call of its meaning. -/
namespace Sys2Proof.Machine

/-- The effect of a command on everything but the queue. (log entry 95, DESIGN CHOICE) -/
def exec (i : Instr) (s : State) : Host.Outcome State Fault Refusal :=
  match i with
  | .pace dt vbat boost drains aux pads upsets => Sys2Proof.Machine.execPace dt vbat boost drains aux pads upsets s
  | .stakeFire dt p slot value compl => Sys2Proof.Machine.execStakeFire dt p slot value compl s
  | .profileFrame dt pass => Sys2Proof.Machine.execProfileFrame dt pass s
  | .statusReturnFrame dt => Sys2Proof.Machine.execStatusReturnFrame dt s
  | .laneFault dt o => Sys2Proof.Machine.execLaneFault dt o s
  | .trackerDisagree dt diff states => Sys2Proof.Machine.execTrackerDisagree dt diff states s
  | .crankEdge dt b rising peak => Sys2Proof.Machine.execCrankEdge dt b rising peak s
  | .camEdge dt b rising peak => Sys2Proof.Machine.execCamEdge dt b rising peak s
  | .camWindowExpiry dt => Sys2Proof.Machine.execCamWindowExpiry dt s
  | .vrArmTimeout dt input => Sys2Proof.Machine.execVrArmTimeout dt input s
  | .coast dt => Sys2Proof.Machine.execCoast dt s
  | .frozenInput dt input => Sys2Proof.Machine.execFrozenInput dt input s
  | .chainWait dt => Sys2Proof.Machine.execChainWait dt s
  | .benchmarkCrossing dt => Sys2Proof.Machine.execBenchmarkCrossing dt s
  | .closureLearnEnd dt => Sys2Proof.Machine.execClosureLearnEnd dt s
  | .add dt n cd ca b => Sys2Proof.Machine.execAdd dt n cd ca b s
  | .sub dt n cd ca b => Sys2Proof.Machine.execSub dt n cd ca b s
  | .and dt n cd ca b => Sys2Proof.Machine.execAnd dt n cd ca b s
  | .or dt n cd ca b => Sys2Proof.Machine.execOr dt n cd ca b s
  | .xor dt n cd ca b => Sys2Proof.Machine.execXor dt n cd ca b s
  | .shl dt n cd ca b => Sys2Proof.Machine.execShl dt n cd ca b s
  | .shr dt n cd ca b => Sys2Proof.Machine.execShr dt n cd ca b s
  | .mul16 dt n cd ca b => Sys2Proof.Machine.execMul16 dt n cd ca b s
  | .ldp dt n cd ca off => Sys2Proof.Machine.execLdp dt n cd ca off s
  | .stp dt n cd ca off => Sys2Proof.Machine.execStp dt n cd ca off s
  | .waita dt n cd ca limit => Sys2Proof.Machine.execWaita dt n cd ca limit s
  | .waitt dt n cd ca rel => Sys2Proof.Machine.execWaitt dt n cd ca rel s
  | .waite dt n cd limit det kind source => Sys2Proof.Machine.execWaite dt n cd limit det kind source s
  | .stk dt n cd ca slot action => Sys2Proof.Machine.execStk dt n cd ca slot action s
  | .capt dt n cd ca source => Sys2Proof.Machine.execCapt dt n cd ca source s
  | .adct dt n cd ca line => Sys2Proof.Machine.execAdct dt n cd ca line s
  | .qin dt n cd q => Sys2Proof.Machine.execQin dt n cd q s
  | .qout dt n ca q => Sys2Proof.Machine.execQout dt n ca q s
  | .br dt n t => Sys2Proof.Machine.execBr dt n t s
  | .brz dt n ca t => Sys2Proof.Machine.execBrz dt n ca t s
  | .brn dt n ca t => Sys2Proof.Machine.execBrn dt n ca t s
  | .brc dt n c t => Sys2Proof.Machine.execBrc dt n c t s
  | .yield dt n => Sys2Proof.Machine.execYield dt n s
  | .halt dt n => Sys2Proof.Machine.execHalt dt n s
  | .pulseWake dt n => Sys2Proof.Machine.execPulseWake dt n s
  | .waitLimitExpiry dt n => Sys2Proof.Machine.execWaitLimitExpiry dt n s
  | .pulseStakeFire dt p slot value compl => Sys2Proof.Machine.execPulseStakeFire dt p slot value compl s
  | .pulseBankExchange dt p => Sys2Proof.Machine.execPulseBankExchange dt p s
  | .phaseExitTime dt c => Sys2Proof.Machine.execPhaseExitTime dt c s
  | .windowComparatorCrossing dt c high up => Sys2Proof.Machine.execWindowComparatorCrossing dt c high up s
  | .regulationMinTime dt c => Sys2Proof.Machine.execRegulationMinTime dt c s
  | .timeOnlyToggle dt c => Sys2Proof.Machine.execTimeOnlyToggle dt c s
  | .decayEnd dt c drawn => Sys2Proof.Machine.execDecayEnd dt c drawn s
  | .dutyLimitReached dt c => Sys2Proof.Machine.execDutyLimitReached dt c s
  | .plausTimeout dt c => Sys2Proof.Machine.execPlausTimeout dt c s
  | .profileStoreDone dt => Sys2Proof.Machine.execProfileStoreDone dt s
  | .senseCalRun dt c => Sys2Proof.Machine.execSenseCalRun dt c s
  | .senseCalDone dt c mA => Sys2Proof.Machine.execSenseCalDone dt c mA s
  | .senseCalTimeout dt c => Sys2Proof.Machine.execSenseCalTimeout dt c s
  | .boostReadyChange dt b v => Sys2Proof.Machine.execBoostReadyChange dt b v s
  | .boostPrechargeTimeout dt b => Sys2Proof.Machine.execBoostPrechargeTimeout dt b s
  | .boostFail dt b cause boost => Sys2Proof.Machine.execBoostFail dt b cause boost s
  | .boostDischargeEnd dt b v => Sys2Proof.Machine.execBoostDischargeEnd dt b v s
  | .clampEngage dt b v => Sys2Proof.Machine.execClampEngage dt b v s
  | .clampRelease dt b v => Sys2Proof.Machine.execClampRelease dt b v s
  | .boostWaitExpiry dt c => Sys2Proof.Machine.execBoostWaitExpiry dt c s
  | .rampViolation dt c high t v0 vds slope => Sys2Proof.Machine.execRampViolation dt c high t v0 vds slope s
  | .desaturation dt c high vds held => Sys2Proof.Machine.execDesaturation dt c high vds held s
  | .offStateTest dt c => Sys2Proof.Machine.execOffStateTest dt c s
  | .offStateTestResult dt c drain high => Sys2Proof.Machine.execOffStateTestResult dt c drain high s
  | .openLoadCheck dt c amps drain => Sys2Proof.Machine.execOpenLoadCheck dt c amps drain s
  | .channelThermal dt c t => Sys2Proof.Machine.execChannelThermal dt c t s
  | .substrateThermal dt zone t => Sys2Proof.Machine.execSubstrateThermal dt zone t s
  | .retryRelease dt o => Sys2Proof.Machine.execRetryRelease dt o s
  | .closingKink dt k v below => Sys2Proof.Machine.execClosingKink dt k v below s
  | .closingWindowEnd dt k => Sys2Proof.Machine.execClosingWindowEnd dt k s
  | .inrushEnd dt n aux => Sys2Proof.Machine.execInrushEnd dt n aux s
  | .auxShort dt n aux => Sys2Proof.Machine.execAuxShort dt n aux s
  | .auxOpenLoad dt n aux => Sys2Proof.Machine.execAuxOpenLoad dt n aux s
  | .auxBackfeed dt n aux => Sys2Proof.Machine.execAuxBackfeed dt n aux s
  | .auxThermal dt n t => Sys2Proof.Machine.execAuxThermal dt n t s
  | .tieTrainingDone dt slot ver lat serialLow partnerDrives partnerHas => Sys2Proof.Machine.execTieTrainingDone dt slot ver lat serialLow partnerDrives partnerHas s
  | .tieTrainingTimeout dt => Sys2Proof.Machine.execTieTrainingTimeout dt s
  | .tieStateFrame dt w0 w1 w2 w3 w4 w5 w6 w7 => Sys2Proof.Machine.execTieStateFrame dt w0 w1 w2 w3 w4 w5 w6 w7 s
  | .backgroundBlock dt x0 x1 x2 x3 => Sys2Proof.Machine.execBackgroundBlock dt x0 x1 x2 x3 s
  | .tieSilence dt => Sys2Proof.Machine.execTieSilence dt s
  | .resignEdge dt => Sys2Proof.Machine.execResignEdge dt s
  | .resignRelease dt => Sys2Proof.Machine.execResignRelease dt s
  | .resignStuck dt => Sys2Proof.Machine.execResignStuck dt s
  | .isolationClose dt sound => Sys2Proof.Machine.execIsolationClose dt sound s
  | .benchmarkEdge dt => Sys2Proof.Machine.execBenchmarkEdge dt s
  | .benchmarkPulseMissing dt => Sys2Proof.Machine.execBenchmarkPulseMissing dt s
  | .benchmarkListenEnd dt => Sys2Proof.Machine.execBenchmarkListenEnd dt s
  | .benchmarkClaim dt k => Sys2Proof.Machine.execBenchmarkClaim dt k s
  | .quietHandoverResign dt => Sys2Proof.Machine.execQuietHandoverResign dt s
  | .handoverTimeout dt => Sys2Proof.Machine.execHandoverTimeout dt s
  | .acqAngleTrigger dt l => Sys2Proof.Machine.execAcqAngleTrigger dt l s
  | .acqTimeTrigger dt l => Sys2Proof.Machine.execAcqTimeTrigger dt l s
  | .conversionDone dt k vin vref => Sys2Proof.Machine.execConversionDone dt k vin vref s
  | .knockWindowOpen dt l => Sys2Proof.Machine.execKnockWindowOpen dt l s
  | .knockTrigger dt l => Sys2Proof.Machine.execKnockTrigger dt l s
  | .knockWindowClose dt l => Sys2Proof.Machine.execKnockWindowClose dt l s
  | .referenceSettled dt => Sys2Proof.Machine.execReferenceSettled dt s
  | .extRefRange dt within => Sys2Proof.Machine.execExtRefRange dt within s
  | .monitorViolation dt k high => Sys2Proof.Machine.execMonitorViolation dt k high s
  | .monitorRecover dt k q => Sys2Proof.Machine.execMonitorRecover dt k q s
  | .monitorAutoTest dt k => Sys2Proof.Machine.execMonitorAutoTest dt k s
  | .monitorTestStep dt k aboveLow aboveHigh => Sys2Proof.Machine.execMonitorTestStep dt k aboveLow aboveHigh s
  | .timerMatch dt t => Sys2Proof.Machine.execTimerMatch dt t s
  | .timerCapture dt t rising => Sys2Proof.Machine.execTimerCapture dt t rising s
  | .pinEngineTick dt n pins => Sys2Proof.Machine.execPinEngineTick dt n pins s
  | .positionInputChange dt k a b z => Sys2Proof.Machine.execPositionInputChange dt k a b z s
  | .positionIndex dt k => Sys2Proof.Machine.execPositionIndex dt k s
  | .sentFrame dt k pulses => Sys2Proof.Machine.execSentFrame dt k pulses s
  | .ssiFrameStart dt k idle => Sys2Proof.Machine.execSsiFrameStart dt k idle s
  | .ssiFrameDone dt k data => Sys2Proof.Machine.execSsiFrameDone dt k data s
  | .positionSourceLost dt k => Sys2Proof.Machine.execPositionSourceLost dt k s
  | .doorbell dt fn x => Sys2Proof.Machine.execDoorbell dt fn x s
  | .requestRead dt c ws => Sys2Proof.Machine.execRequestRead dt c ws s
  | .indirectFetchDone dt c seq ws => Sys2Proof.Machine.execIndirectFetchDone dt c seq ws s
  | .heldNoticeWrite dt c => Sys2Proof.Machine.execHeldNoticeWrite dt c s
  | .faultRecord dt => Sys2Proof.Machine.execFaultRecord dt s
  | .leaseExpiry dt c => Sys2Proof.Machine.execLeaseExpiry dt c s
  | .dataLinkDown dt => Sys2Proof.Machine.execDataLinkDown dt s
  | .perst dt asserted => Sys2Proof.Machine.execPerst dt asserted s
  | .hotReset dt => Sys2Proof.Machine.execHotReset dt s
  | .functionLevelReset dt fn => Sys2Proof.Machine.execFunctionLevelReset dt fn s
  | .vfEnableClear dt => Sys2Proof.Machine.execVfEnableClear dt s
  | .loadWindow dt load => Sys2Proof.Machine.execLoadWindow dt load s
  | .shedTimeout dt c opcode seq => Sys2Proof.Machine.execShedTimeout dt c opcode seq s
  | .watchdogExpiry dt k running => Sys2Proof.Machine.execWatchdogExpiry dt k running s
  | .coreRestartDone dt k => Sys2Proof.Machine.execCoreRestartDone dt k s
  | .canFrameReceived dt c ext ident fd b => Sys2Proof.Machine.execCanFrameReceived dt c ext ident fd b s
  | .canTpTimeout dt k => Sys2Proof.Machine.execCanTpTimeout dt k s
  | .canBusOff dt c => Sys2Proof.Machine.execCanBusOff dt c s
  | .canRejoin dt c => Sys2Proof.Machine.execCanRejoin dt c s
  | .dmaBurstDone dt write good => Sys2Proof.Machine.execDmaBurstDone dt write good s
  | .dmaRetry dt ch => Sys2Proof.Machine.execDmaRetry dt ch s
  | .intcRequest dt k up => Sys2Proof.Machine.execIntcRequest dt k up s
  | .intcAccept dt k => Sys2Proof.Machine.execIntcAccept dt k s
  | .intcGroupOpen dt g => Sys2Proof.Machine.execIntcGroupOpen dt g s
  | .msixCoalRelease dt c v => Sys2Proof.Machine.execMsixCoalRelease dt c v s
  | .msixUnmask dt c v => Sys2Proof.Machine.execMsixUnmask dt c v s
  | .resetRelease slot => Sys2Proof.Machine.execResetRelease slot s
  | .supplyFault dt battery => Sys2Proof.Machine.execSupplyFault dt battery s
  | .firmwareReady dt => Sys2Proof.Machine.execFirmwareReady dt s
  | .swapQuiesceEnd dt => Sys2Proof.Machine.execSwapQuiesceEnd dt s
  | .swapImageReady dt => Sys2Proof.Machine.execSwapImageReady dt s
  | .swapTimeout dt => Sys2Proof.Machine.execSwapTimeout dt s
  | .standbyBoostsOff dt => Sys2Proof.Machine.execStandbyBoostsOff dt s
  | .entryWindowOpen dt => Sys2Proof.Machine.execEntryWindowOpen dt s
  | .entryWindowEnd level => Sys2Proof.Machine.execEntryWindowEnd level s
  | .wakeEvent dt k => Sys2Proof.Machine.execWakeEvent dt k s
  | .pmbusAck good => Sys2Proof.Machine.execPmbusAck good s
  | .pmbusTimeout => Sys2Proof.Machine.execPmbusTimeout s
  | .domainSwitchOpen dt d => Sys2Proof.Machine.execDomainSwitchOpen dt d s
  | .domainRailGood dt d => Sys2Proof.Machine.execDomainRailGood dt d s
  | .rtcSecond dt => Sys2Proof.Machine.execRtcSecond dt s
  | .rtcApply dt => Sys2Proof.Machine.execRtcApply dt s
  | .islandBrownOut dt => Sys2Proof.Machine.execIslandBrownOut dt s
  | .fieldBookWrite dt ok => Sys2Proof.Machine.execFieldBookWrite dt ok s
  | .fieldBookScanDone dt => Sys2Proof.Machine.execFieldBookScanDone dt s
  | .seatedOpen dt => Sys2Proof.Machine.execSeatedOpen dt s
  | .leaveOpen dt => Sys2Proof.Machine.execLeaveOpen dt s
  | .leaveClosed dt => Sys2Proof.Machine.execLeaveClosed dt s
  | .pairedWriteValue dt k x => Sys2Proof.Machine.execPairedWriteValue dt k x s
  | .pairedWriteComplement dt k x => Sys2Proof.Machine.execPairedWriteComplement dt k x s
  | .pairedWriteExpiry dt => Sys2Proof.Machine.execPairedWriteExpiry dt s
  | .registerWrite dt fn glob reg be x => Sys2Proof.Machine.execRegisterWrite dt fn glob reg be x s
  | .readClearRead dt fn glob reg be => Sys2Proof.Machine.execReadClearRead dt fn glob reg be s
  | .whlInCfgWrite dt k x => Sys2Proof.Machine.execWhlInCfgWrite dt k x s
  | .whlDirCfgWrite dt x => Sys2Proof.Machine.execWhlDirCfgWrite dt x s
  | .angBandWrite dt k x => Sys2Proof.Machine.execAngBandWrite dt k x s
  | .seqQuotaWrite dt n x => Sys2Proof.Machine.execSeqQuotaWrite dt n x s
  | .plsOwnerWrite dt p x => Sys2Proof.Machine.execPlsOwnerWrite dt p x s
  | .drvPairWrite dt x => Sys2Proof.Machine.execDrvPairWrite dt x s
  | .drvChCfgWrite dt c x => Sys2Proof.Machine.execDrvChCfgWrite dt c x s
  | .bstCfgWrite dt b cap x => Sys2Proof.Machine.execBstCfgWrite dt b cap x s
  | .prtLatchWrite dt c x => Sys2Proof.Machine.execPrtLatchWrite dt c x s
  | .auxLatchWrite dt n x => Sys2Proof.Machine.execAuxLatchWrite dt n x s
  | .pairCfgWrite dt x => Sys2Proof.Machine.execPairCfgWrite dt x s
  | .acqRefWrite dt x => Sys2Proof.Machine.execAcqRefWrite dt x s
  | .acqUrgGoWrite dt k x => Sys2Proof.Machine.execAcqUrgGoWrite dt k x s
  | .tmrStartWrite dt x => Sys2Proof.Machine.execTmrStartWrite dt x s
  | .tmrStopWrite dt x => Sys2Proof.Machine.execTmrStopWrite dt x s
  | .peRunWrite dt n x => Sys2Proof.Machine.execPeRunWrite dt n x s
  | .peTxWrite dt n x => Sys2Proof.Machine.execPeTxWrite dt n x s
  | .peRxRead dt n => Sys2Proof.Machine.execPeRxRead dt n s
  | .posCountWrite dt k x => Sys2Proof.Machine.execPosCountWrite dt k x s
  | .cliReqResumeWrite dt fn x => Sys2Proof.Machine.execCliReqResumeWrite dt fn x s
  | .cliRspHeadWrite dt fn x => Sys2Proof.Machine.execCliRspHeadWrite dt fn x s
  | .cliFltHeadWrite dt fn x => Sys2Proof.Machine.execCliFltHeadWrite dt fn x s
  | .cliRingCfgWrite dt fn x => Sys2Proof.Machine.execCliRingCfgWrite dt fn x s
  | .cliKeepaliveWrite dt fn x => Sys2Proof.Machine.execCliKeepaliveWrite dt fn x s
  | .cliPwrVoteWrite dt fn x => Sys2Proof.Machine.execCliPwrVoteWrite dt fn x s
  | .hlClientWrite dt n x => Sys2Proof.Machine.execHlClientWrite dt n x s
  | .hlOwnWrite dt o x => Sys2Proof.Machine.execHlOwnWrite dt o x s
  | .canBindWrite dt k hi x => Sys2Proof.Machine.execCanBindWrite dt k hi x s
  | .canRestartWrite dt c => Sys2Proof.Machine.execCanRestartWrite dt c s
  | .dmaStartWrite dt fn ch x => Sys2Proof.Machine.execDmaStartWrite dt fn ch x s
  | .dmaAbortWrite dt fn ch x => Sys2Proof.Machine.execDmaAbortWrite dt fn ch x s
  | .dmaGrantWrite dt ch x => Sys2Proof.Machine.execDmaGrantWrite dt ch x s
  | .intcClaimRead dt k => Sys2Proof.Machine.execIntcClaimRead dt k s
  | .intcCompleteWrite dt k j => Sys2Proof.Machine.execIntcCompleteWrite dt k j s
  | .intcHoldSetWrite dt x => Sys2Proof.Machine.execIntcHoldSetWrite dt x s
  | .intcHoldClrWrite dt x => Sys2Proof.Machine.execIntcHoldClrWrite dt x s
  | .intcEnSetWrite dt k => Sys2Proof.Machine.execIntcEnSetWrite dt k s
  | .intcEnClrWrite dt k => Sys2Proof.Machine.execIntcEnClrWrite dt k s
  | .pwrCtrlGoWrite dt x => Sys2Proof.Machine.execPwrCtrlGoWrite dt x s
  | .rtcTimeRead dt => Sys2Proof.Machine.execRtcTimeRead dt s
  | .rtcTimeWrite dt x => Sys2Proof.Machine.execRtcTimeWrite dt x s
  | .rtcDateWrite dt x => Sys2Proof.Machine.execRtcDateWrite dt x s
  | .hello m => Sys2Proof.Machine.execHello m s
  | .goodbye m => Sys2Proof.Machine.execGoodbye m s
  | .echo m => Sys2Proof.Machine.execEcho m s
  | .loadWheel m sound => Sys2Proof.Machine.execLoadWheel m sound s
  | .resync m => Sys2Proof.Machine.execResync m s
  | .loadStations m sound => Sys2Proof.Machine.execLoadStations m sound s
  | .learnClosure m => Sys2Proof.Machine.execLearnClosure m s
  | .closureMapGet m => Sys2Proof.Machine.execClosureMapGet m s
  | .closureMapPut m => Sys2Proof.Machine.execClosureMapPut m s
  | .firingTableClear m => Sys2Proof.Machine.execFiringTableClear m s
  | .loadPulseImage m => Sys2Proof.Machine.execLoadPulseImage m s
  | .pulseSwitch m => Sys2Proof.Machine.execPulseSwitch m s
  | .pulseStart m => Sys2Proof.Machine.execPulseStart m s
  | .pulseStop m => Sys2Proof.Machine.execPulseStop m s
  | .pulseParamPut m => Sys2Proof.Machine.execPulseParamPut m s
  | .pulseParamGet m => Sys2Proof.Machine.execPulseParamGet m s
  | .pulseQueuePut m => Sys2Proof.Machine.execPulseQueuePut m s
  | .pulseQueueGet m => Sys2Proof.Machine.execPulseQueueGet m s
  | .profilePut m => Sys2Proof.Machine.execProfilePut m s
  | .profileGet m => Sys2Proof.Machine.execProfileGet m s
  | .channelConfig m => Sys2Proof.Machine.execChannelConfig m s
  | .senseCal m => Sys2Proof.Machine.execSenseCal m s
  | .boostConfig m => Sys2Proof.Machine.execBoostConfig m s
  | .protectConfig m => Sys2Proof.Machine.execProtectConfig m s
  | .protectClear m => Sys2Proof.Machine.execProtectClear m s
  | .boostStatus m => Sys2Proof.Machine.execBoostStatus m s
  | .closingConfig m => Sys2Proof.Machine.execClosingConfig m s
  | .trimReset m => Sys2Proof.Machine.execTrimReset m s
  | .closingStatus m => Sys2Proof.Machine.execClosingStatus m s
  | .auxConfig m => Sys2Proof.Machine.execAuxConfig m s
  | .auxClear m => Sys2Proof.Machine.execAuxClear m s
  | .auxQuery m => Sys2Proof.Machine.execAuxQuery m s
  | .pairConfig m => Sys2Proof.Machine.execPairConfig m s
  | .pairStatus m => Sys2Proof.Machine.execPairStatus m s
  | .pairHandover m => Sys2Proof.Machine.execPairHandover m s
  | .acqListPut m => Sys2Proof.Machine.execAcqListPut m s
  | .acqListCtrl m => Sys2Proof.Machine.execAcqListCtrl m s
  | .acqUrgent m => Sys2Proof.Machine.execAcqUrgent m s
  | .acqRefSet m => Sys2Proof.Machine.execAcqRefSet m s
  | .monConfig m => Sys2Proof.Machine.execMonConfig m s
  | .monSelftest m => Sys2Proof.Machine.execMonSelftest m s
  | .acqStatus m => Sys2Proof.Machine.execAcqStatus m s
  | .armEvent m sound => Sys2Proof.Machine.execArmEvent m sound s
  | .cancelEvent m sound => Sys2Proof.Machine.execCancelEvent m sound s
  | .updateEvent m sound => Sys2Proof.Machine.execUpdateEvent m sound s
  | .bankSwitch m sound => Sys2Proof.Machine.execBankSwitch m sound s
  | .bankClear m sound => Sys2Proof.Machine.execBankClear m sound s
  | .safetyCut m sound => Sys2Proof.Machine.execSafetyCut m sound s
  | .safetyRelease m sound => Sys2Proof.Machine.execSafetyRelease m sound s
  | .eventQuery m sound => Sys2Proof.Machine.execEventQuery m sound s
  | .fieldBookRead m => Sys2Proof.Machine.execFieldBookRead m s
  | .faultClear stuck m => Sys2Proof.Machine.execFaultClear stuck m s
  | .powerRequest m => Sys2Proof.Machine.execPowerRequest m s
  | .powerStatus m => Sys2Proof.Machine.execPowerStatus m s
  | .powerVote m => Sys2Proof.Machine.execPowerVote m s
  | .rtcSet m => Sys2Proof.Machine.execRtcSet m s
  | .rtcGet m => Sys2Proof.Machine.execRtcGet m s
  | .fwLoad m => Sys2Proof.Machine.execFwLoad m s
  | .fwSwap m => Sys2Proof.Machine.execFwSwap m s
  | .fwCommit m => Sys2Proof.Machine.execFwCommit m s
  | .fwStatus m => Sys2Proof.Machine.execFwStatus m s
  | .startupPut m => Sys2Proof.Machine.execStartupPut m s
  | .flashWriteDone dt image => Sys2Proof.Machine.execFlashWriteDone dt image s
  | .canFrameSent dt k => Sys2Proof.Machine.execCanFrameSent dt k s
  | .resignLineRise dt => Sys2Proof.Machine.execResignLineRise dt s
  | .benchmarkLineRelease dt => Sys2Proof.Machine.execBenchmarkLineRelease dt s
  | .islandSourceChange dt vcell => Sys2Proof.Machine.execIslandSourceChange dt vcell s
  | .monitorThresholdCrossing dt k q => Sys2Proof.Machine.execMonitorThresholdCrossing dt k q s
  | .pcieConfigReady dt vf fns => Sys2Proof.Machine.execPcieConfigReady dt vf fns s

end Sys2Proof.Machine
end

