-- ==== Sys2Proof/Machine/Step.lean ====
section
/-! DEFINITION. One step of the block: it takes the command at the front of its queue. -/
namespace Sys2Proof.Machine

/-- The state without the command at the front of its queue. -/
def State.dequeue (s : State) : State := { s with pending := s.pending.tail }

/-- A step takes the command that waits longest and runs it on the state that holds the queue's rest; with no command waiting the
block idles. (log entry 1, DESIGN CHOICE) -/
def step (s : State) : Host.Outcome State Fault Refusal :=
  match s.pending with
  | [] => .next s
  | c :: rest => exec c { s with pending := rest }

/-- The state with the command that a word spells put at the front of its queue. No row of the table gives bits, so no word spells
one. (log entry 1, DESIGN CHOICE) -/
def State.withFetchWord (s : State) (nbits w : Nat) : State :=
  match decodeTableWord nbits w with
  | none => s
  | some c => { s with pending := c :: s.pending }

end Sys2Proof.Machine
end

