-- ==== Sys2Proof/Safety.lean ====
section
/-! DEFINITION. What a sound state is: the terms in which the whole-machine statements are made. -/
namespace Sys2Proof.Machine

/-- The sample memory has its canonical form: addresses strictly rising, no listed byte equal to what an unlisted one reads as. -/
def Memory.wf (s : State) : Bool := Tbl.wf 0#8 s.acq.sample

/-- Every slot of paired writes belongs to a PW register, and no register has two (register reference R9, R535). -/
def slotsOk (x : Tbl PwSlot) : Bool := Tbl.sorted x && x.all (fun p => isPaired p.1)

/-- Command `c` runs from `s`, and the state after it has the property `P`. -/
def Runs (c : Instr) (s : State) (P : State → Prop) : Prop := ∃ t, exec c s = .next t ∧ P t

/-- Command `c` is answered `OK` with `words`, as the request `m` of `opcode`, from a state that has the property `P`. -/
def Answers (c : Instr) (s : State) (opcode : Nat) (m : Msg) (words : List Word) (P : State → Prop) : Prop :=
  ∃ u, exec c s = .next (respond opcode m 0 0 words u) ∧ P u

/-- A sound state. Every step keeps it. -/
def Sound (s : State) : Prop := Memory.wf s = true ∧ slotsOk s.slots = true

end Sys2Proof.Machine
end

