-- ==== Sys2Proof/WellFormed.lean ====
section
/-! DEFINITION. Well-formed commands: what the operands' types do not bound. A command that is not well formed is nothing the outside of
the block can send. -/
namespace Sys2Proof

/-- The opcode and the message of a command that a client sends (Table 19-2). -/
def messageOf (c : Instr) : Option (Nat × Msg) :=
  match c with
  | .hello m => some (0x0001, m) | .goodbye m => some (0x0002, m) | .loadWheel m _ => some (0x0130, m) | .resync m => some (0x0131, m)
  | .loadStations m _ => some (0x0132, m) | .learnClosure m => some (0x0140, m) | .closureMapGet m => some (0x0141, m)
  | .closureMapPut m => some (0x0142, m) | .firingTableClear m => some (0x0143, m) | .loadPulseImage m => some (0x0150, m)
  | .pulseSwitch m => some (0x0151, m) | .pulseStart m => some (0x0152, m) | .pulseStop m => some (0x0153, m)
  | .pulseParamPut m => some (0x0154, m) | .pulseParamGet m => some (0x0155, m) | .pulseQueuePut m => some (0x0156, m)
  | .pulseQueueGet m => some (0x0157, m) | .profilePut m => some (0x0160, m) | .profileGet m => some (0x0161, m)
  | .channelConfig m => some (0x0162, m) | .senseCal m => some (0x0163, m) | .boostConfig m => some (0x0164, m)
  | .protectConfig m => some (0x0165, m) | .protectClear m => some (0x0166, m) | .boostStatus m => some (0x0167, m)
  | .closingConfig m => some (0x0168, m) | .trimReset m => some (0x0169, m) | .closingStatus m => some (0x016A, m)
  | .auxConfig m => some (0x0170, m) | .auxClear m => some (0x0171, m) | .auxQuery m => some (0x0172, m)
  | .pairConfig m => some (0x0180, m) | .pairStatus m => some (0x0181, m) | .pairHandover m => some (0x0182, m)
  | .acqListPut m => some (0x0190, m) | .acqListCtrl m => some (0x0191, m) | .acqUrgent m => some (0x0192, m)
  | .acqRefSet m => some (0x0193, m) | .monConfig m => some (0x0194, m) | .monSelftest m => some (0x0195, m)
  | .acqStatus m => some (0x0196, m) | .armEvent m _ => some (0x0210, m) | .cancelEvent m _ => some (0x0211, m)
  | .updateEvent m _ => some (0x0212, m) | .bankSwitch m _ => some (0x0220, m) | .bankClear m _ => some (0x0221, m)
  | .safetyCut m _ => some (0x0230, m) | .safetyRelease m _ => some (0x0231, m) | .eventQuery m _ => some (0x0240, m)
  | .echo m => some (0x0300, m) | .fieldBookRead m => some (0x0310, m) | .faultClear _ m => some (0x0320, m)
  | .powerRequest m => some (0x0410, m) | .powerStatus m => some (0x0411, m) | .powerVote m => some (0x0412, m)
  | .rtcSet m => some (0x0420, m) | .rtcGet m => some (0x0421, m) | .fwLoad m => some (0x0500, m) | .fwSwap m => some (0x0501, m)
  | .fwCommit m => some (0x0502, m) | .fwStatus m => some (0x0503, m) | .startupPut m => some (0x0505, m)
  | _ => none

/-- A message fits the header of Table 13-2 and the longest payload, a request buffer of 64 KiB (host link R378, R379). -/
def Msg.wellFormed (m : Msg) : Bool :=
  decide (m.client < 256) && decide (m.seq < 2 ^ 16) && decide (m.words.length ≤ 16384) && decide (m.rspLen ≤ 2 ^ 16) &&
    decide (m.rspAddr < 2 ^ 64)

/-- A failure names a descriptor, a pair, a context or a parameter that there is. -/
def Upset.wellFormed (u : Upset) : Bool :=
  match u with
  | .eccCorrected => true
  | .eccFailed i | .memory i | .load i => decide (i < 32768)
  | .disagree p => decide (p < 4)
  | .fetch n => decide (n < 64)
  | .param p a mask => decide (p < 4) && decide (a < 2048) && decide (mask < 2 ^ 32)
  | .profile n i _ => decide (n < 64) && decide (i < 28)
  | .trim c _ => decide (c < 36)

/-- A stretch of the boost controllers is no longer than the cycle counter. -/
def BoostRun.wellFormed (r : BoostRun) : Bool := decide (r.cycles < 2 ^ 64)

/-- A stretch of measurements is no longer than the cycle counter and names no output that there is not. -/
def AuxRun.wellFormed (r : AuxRun) : Bool :=
  decide (r.cycles < 2 ^ 64) && decide (r.amps.length ≤ 16) && decide (r.volts.length ≤ 16)

/-- What a read of the request ring brings: whole entries of 64 bytes, at most 16 of them (host link R379). -/
def ringRead (ws : Option (List Word)) : Bool :=
  match ws with
  | none => true
  | some l => l.length % 16 == 0 && decide (l.length ≤ 256)

/-- What the fetch of a request buffer brings: at most 64 KiB (host link R379). -/
def bufferRead (ws : Option (List Word)) : Bool :=
  match ws with
  | none => true
  | some l => decide (l.length ≤ 16384)

/-- The operands of a command are well formed, where their types leave more open than the hardware has. -/
def Instr.wellFormed (c : Instr) : Bool :=
  (match messageOf c with
    | some (_, m) => m.wellFormed
    | none => true) &&
  match c with
  | .pace _ _ boost _ aux _ upsets => upsets.all Upset.wellFormed && boost.all BoostRun.wellFormed && aux.all AuxRun.wellFormed
  | .boostFail _ _ _ boost => boost.all BoostRun.wellFormed
  | .inrushEnd _ _ aux | .auxShort _ _ aux | .auxOpenLoad _ _ aux | .auxBackfeed _ _ aux => aux.all AuxRun.wellFormed
  | .trackerDisagree _ diff _ => decide (diff < 2 ^ 24)
  | .requestRead _ _ ws => ringRead ws
  | .indirectFetchDone _ _ _ ws => bufferRead ws
  | .loadWindow _ load => decide (load ≤ 100)
  | .canFrameReceived _ _ ext ident _ bytes => decide (bytes.length ≤ 64) && (ext || decide (ident.toNat < 2 ^ 11))
  | .intcRequest _ i _ => decide (i.val < 389)
  | .sentFrame _ _ pulses => decide (pulses.length ≤ 12)
  | .senseCalDone _ _ mA => decide (-2048 ≤ mA) && decide (mA < 2048)
  | _ => true

end Sys2Proof
end

