-- ==== Sys2Proof/Certificates/Slice0/Obligations.lean ====
section
/-! DEFINITION. The statements for the provers. Each formalises what the spec says of commands of one family, or of the whole block; the
docstring names the rules. -/
open Sys2Proof Sys2Proof.Machine

/-! ### Pulse programs (pulse R157 to R183) -/

/-- Context `n` executes `dt` cycles on, nothing comes between, and its step goes on after one more instruction (pulse R160, R165). -/
def GoesOn (dt : Nat) (s : State) (n : Nat) : Prop :=
  steady dt s = true ∧ canExecute s n = true ∧ (ctxAt s n).pc < 4095 ∧ (ctxAt s n).steps < 23

/-- Every context but `n` is as it was. -/
def OtherContexts (s t : State) (n : Nat) : Prop := ∀ k, k ≠ n → ctxAt t k = ctxAt s k

/-- Context `n` stands at address `a` with its registers but those of `l` as they were, and every other context is as it was. -/
def MovesTo (s t : State) (n a : Nat) (l : List Nat) : Prop :=
  (ctxAt t n).pc = a ∧ (∀ k, k ∉ l → (ctxAt t n).reg k = (ctxAt s n).reg k) ∧ OtherContexts s t n

/-- The newest fault detected has code `c`. -/
def Detects (t : State) (c : Nat) : Prop := t.faults.getLast?.map FaultEv.code = some c

/-- The command of an arithmetic instruction. -/
def aluCommand (f : Alu) (dt : Nat) (n : Fin 64) (cd ca : Fin 16) (b : PArg) : Instr :=
  match f with
  | .add => .add dt n cd ca b
  | .sub => .sub dt n cd ca b
  | .and => .and dt n cd ca b
  | .or => .or dt n cd ca b
  | .xor => .xor dt n cd ca b
  | .shl => .shl dt n cd ca b
  | .shr => .shr dt n cd ca b
  | .mul16 => .mul16 dt n cd ca b

/-- Table 5-4's arithmetic on 32-bit words. -/
def aluSpec (f : Alu) (a b : BitVec 32) : BitVec 32 :=
  match f with
  | .add => a + b
  | .sub => a - b
  | .and => a &&& b
  | .or => a ||| b
  | .xor => a ^^^ b
  | .shl => a <<< (b.toNat % 32)
  | .shr => a >>> (b.toNat % 32)
  | .mul16 => (a &&& 0xFFFF#32) * (b &&& 0xFFFF#32)

/-- Table 5-4. ADD, SUB, AND, OR, XOR, SHL, SHR and MUL16 write to cd the 32-bit result of their operation on ca and the second
operand, a register or the sign-extended immediate; the context goes on at the next address, and its other registers and every other
context are as they were. -/
def Clauses.PulseArithmetic : Prop :=
  ∀ (f : Alu) (dt : Nat) (n : Fin 64) (cd ca : Fin 16) (b : PArg) (s : State), GoesOn dt s n →
    Runs (aluCommand f dt n cd ca b) s (fun t =>
      (ctxAt t n).reg cd = (aluSpec f (BitVec.ofNat 32 ((ctxAt s n).reg ca)) (match b with
        | .reg c => BitVec.ofNat 32 ((ctxAt s n).reg c)
        | .imm i => i.signExtend 32)).toNat ∧
      MovesTo s t n ((ctxAt s n).pc + 1) [cd])

/-- R166. At an address ca + offset below 2,048, STP stores cd with its complement and no other word of any parameter memory, and LDP
of a word whose complement holds writes it to cd; LDP of one whose complement fails detects F_0130, and either at or above 2,048
detects F_0132. -/
def Obligations.PulseParameters : Prop :=
  ∀ (dt : Nat) (n : Fin 64) (cd ca : Fin 16) (off : BitVec 11) (s : State), GoesOn dt s n →
    let a := ((ctxAt s n).reg ca + off.toNat) % 2 ^ 32
    let p := n.val / 16
    (a < 2048 →
      Runs (.stp dt n cd ca off) s (fun t =>
        paramAt t p a = ((ctxAt s n).reg cd % 2 ^ 32, 2 ^ 32 - 1 - (ctxAt s n).reg cd % 2 ^ 32) ∧
          (∀ q b, (q, b) ≠ (p, a) → paramAt t q b = paramAt s q b) ∧ MovesTo s t n ((ctxAt s n).pc + 1) []) ∧
      ((paramAt s p a).1 + (paramAt s p a).2 = 2 ^ 32 - 1 →
        Runs (.ldp dt n cd ca off) s (fun t =>
          (ctxAt t n).reg cd = (paramAt s p a).1 ∧ (∀ q b, paramAt t q b = paramAt s q b) ∧
            MovesTo s t n ((ctxAt s n).pc + 1) [cd])) ∧
      ((paramAt s p a).1 + (paramAt s p a).2 ≠ 2 ^ 32 - 1 → Runs (.ldp dt n cd ca off) s (fun t => Detects t 0x0130))) ∧
    (2048 ≤ a →
      Runs (.stp dt n cd ca off) s (fun t => Detects t 0x0132) ∧ Runs (.ldp dt n cd ca off) s (fun t => Detects t 0x0132))

/-- Table 5-4. BR goes to its address; BRZ goes there when ca is 0, BRN when bit 31 of ca is 1, and BRC lowers its register by one
and goes there unless the register is then 0; any other goes on at the next address. -/
def Clauses.PulseBranches : Prop :=
  ∀ (dt : Nat) (n : Fin 64) (c : Fin 16) (a : BitVec 12) (s : State), GoesOn dt s n →
    let v := BitVec.ofNat 32 ((ctxAt s n).reg c)
    let next := (ctxAt s n).pc + 1
    Runs (.br dt n a) s (fun t => MovesTo s t n a.toNat []) ∧
    Runs (.brz dt n c a) s (fun t => MovesTo s t n (if (ctxAt s n).reg c = 0 then a.toNat else next) []) ∧
    Runs (.brn dt n c a) s (fun t => MovesTo s t n (if v.msb then a.toNat else next) []) ∧
    Runs (.brc dt n c a) s (fun t =>
      (ctxAt t n).reg c = (v - 1#32).toNat ∧ MovesTo s t n (if v - 1#32 = 0#32 then next else a.toNat) [c])

/-- R167 to R170, R172. WAITA waits for the angle ca modulo a cycle, and WAITE for its edge on its detector; either with the pace in
which a limit must be loaded, or without one. WAITT waits for a time whose pace lies beyond the next one and within the span, wakes in the
next pace for one in the next pace, and answers 0xFFFF_FFFF for one already reached. A time or a limit beyond the span is answered
0x8000_0005. Each wait resumes at the next address with its status in cd. -/
def Obligations.PulseWaits : Prop :=
  ∀ (dt : Nat) (n : Fin 64) (cd ca : Fin 16) (s : State), GoesOn dt s n →
    let now := s.cyc + dt
    let far := fun (t : Nat) => now / 100 + 2097151 < t / 100
    let resumes := fun (run : PRun) (wait : Option PWait) (limit : Option Nat) (t : State) =>
      (ctxAt t n).run = run ∧ (ctxAt t n).wait = wait ∧ (ctxAt t n).cd = cd.val ∧ (ctxAt t n).limit = limit ∧
        MovesTo s t n ((ctxAt s n).pc + 1) []
    let answered := fun (v : Nat) => resumes (.ready 3 now (now / 100 + 1) (some v)) none none
    let limitAt := fun (c : Fin 16) => nearestTime now ((ctxAt s n).reg c)
    let time := fun (rel : Bool) =>
      if rel then 100 * (now / 100) + (ctxAt s n).reg ca else nearestTime now ((ctxAt s n).reg ca)
    (∀ limit : Option (Fin 16),
      ((∀ c, limit = some c → ¬ far (limitAt c)) →
        Runs (.waita dt n cd ca limit) s
          (resumes .waiting (some (.angle ((ctxAt s n).reg ca % turn))) (limit.map (fun c => limitAt c / 100 - 1))) ∧
        ∀ (det : Bool) (kind : BitVec 2) (source : BitVec 5), kind ≠ 0#2 → (source.toNat < 4 ∨ 8 ≤ source.toNat) →
          Runs (.waite dt n cd limit det kind source) s
            (resumes .waiting (some (.edge det kind.toNat)) (limit.map (fun c => limitAt c / 100 - 1)))) ∧
      (∀ c, limit = some c → far (limitAt c) →
        Runs (.waita dt n cd ca limit) s (answered 0x80000005) ∧
        ∀ (det : Bool) (kind : BitVec 2) (source : BitVec 5), kind ≠ 0#2 → (source.toNat < 4 ∨ 8 ≤ source.toNat) →
          Runs (.waite dt n cd limit det kind source) s (answered 0x80000005))) ∧
    (∀ rel : Bool,
      (now / 100 + 1 < time rel / 100 → ¬ far (time rel) →
        Runs (.waitt dt n cd ca rel) s (resumes .waiting (some (.time (time rel))) none)) ∧
      (time rel / 100 = now / 100 + 1 → Runs (.waitt dt n cd ca rel) s (answered 0)) ∧
      (time rel / 100 ≤ now / 100 → Runs (.waitt dt n cd ca rel) s (answered 0xFFFFFFFF)) ∧
      (far (time rel) → Runs (.waitt dt n cd ca rel) s (answered 0x80000005)))

/-- R174, R175. STK on a slot whose target passes Table 5-6a, and ADCT on a line of the binding, load a stake that fires at the time in ca
and write 0 to cd; for a time already reached, but not by more than the binding's LATE paces, the stake fires in the next cycle and cd takes
the lateness. Without an effect, cd takes the first reason that holds: the target's, 0x8000_0005 beyond the span, 0x8000_0001 with no
place free among the pair's stakes, 0x8000_0002 for one too late. CAPT writes its source to cd, and CAPT of the cycle counter latches its upper
half. -/
def Obligations.PulseStakes : Prop :=
  ∀ (dt : Nat) (n : Fin 64) (cd ca : Fin 16) (s : State), GoesOn dt s n →
    let now := s.cyc + dt
    let t0 := nearestTime now ((ctxAt s n).reg ca)
    let free := freePulseStake s (n.val / 16)
    let allowed := 100 * (bindOf s n).late
    let refused := fun (c : Instr) (v : Nat) => Runs c s (fun t => (ctxAt t n).reg cd = v ∧ MovesTo s t n ((ctxAt s n).pc + 1) [cd] ∧
      ∀ p, (plsAt t p).stakes = (plsAt s p).stakes)
    let loads := fun (c : Instr) (target action : Nat) =>
      (now / 100 + 2097151 < t0 / 100 → refused c 0x80000005) ∧
      (t0 / 100 ≤ now / 100 + 2097151 →
        (free = none → refused c 0x80000001) ∧
        (∀ k, free = some k →
          (now < t0 → Runs c s (fun t => (ctxAt t n).reg cd = 0 ∧ MovesTo s t n ((ctxAt s n).pc + 1) [cd] ∧
            Tbl.find (plsAt t (n.val / 16)).stakes k = some ⟨n.val, target, action, t0⟩)) ∧
          (t0 ≤ now → now + 1 - t0 ≤ allowed → Runs c s (fun t => (ctxAt t n).reg cd = now + 1 - t0 ∧
            MovesTo s t n ((ctxAt s n).pc + 1) [cd] ∧
              Tbl.find (plsAt t (n.val / 16)).stakes k = some ⟨n.val, target, action, now + 1⟩)) ∧
          (t0 ≤ now → allowed < now + 1 - t0 → refused c 0x80000002)))
    (∀ (slot : Fin 4) (action : BitVec 2), action ≠ 3#2 →
      let x := (bindOf s n).slots.getD slot {}
      (slotStatus (tick dt s) n x action.toNat = none → loads (.stk dt n cd ca slot action) x.target action.toNat) ∧
      (∀ v, slotStatus (tick dt s) n x action.toNat = some v → refused (.stk dt n cd ca slot action) v)) ∧
    (∀ line : Fin 16,
      (bitOf (bindOf s n).lines line = true → loads (.adct dt n cd ca line) (256 + line.val) 3) ∧
      (bitOf (bindOf s n).lines line = false → refused (.adct dt n cd ca line) 0x80000007)) ∧
    Runs (.capt dt n cd ca 0#6) s (fun t => (ctxAt t n).reg cd = now % 2 ^ 32 ∧ (ctxAt t n).hi = now / 2 ^ 32 % 2 ^ 32 ∧
      MovesTo s t n ((ctxAt s n).pc + 1) [cd]) ∧
    (∀ source : BitVec 6, source.toNat ≤ 12 → source ≠ 0#6 → Runs (.capt dt n cd ca source) s (fun t =>
      (ctxAt t n).reg cd = captValue (tick dt s) n source.toNat ((ctxAt s n).reg ca) now % 2 ^ 32 ∧ (ctxAt t n).hi = (ctxAt s n).hi ∧
        MovesTo s t n ((ctxAt s n).pc + 1) [cd])) ∧
    Runs (.capt dt n cd ca 2#6) s (fun t => (ctxAt t n).reg cd = now / 100 % 2 ^ 32) ∧
    Runs (.capt dt n cd ca 11#6) s (fun t => (ctxAt t n).reg cd = n.val)

/-- R173. QIN takes the head of a queue that is not empty into its register and goes on, and waits on an empty one; QOUT to a queue that
it may fill appends its register to one with room and goes on, and waits on a full one. -/
def Obligations.PulseQueues : Prop :=
  ∀ (dt : Nat) (n : Fin 64) (c : Fin 16) (q : BitVec 4) (s : State), GoesOn dt s n →
    let p := n.val / 16
    (q.toNat < 12 →
      (∀ (v : Nat) (l : List Nat), queueAt s p q.toNat = v :: l →
        ∃ t, exec (.qin dt n c q) s = .next t ∧ queueAt t p q.toNat = l ∧ (ctxAt t n).reg c = v % 2 ^ 32 ∧
          (∀ k, k ≠ q.toNat → queueAt t p k = queueAt s p k) ∧ MovesTo s t n ((ctxAt s n).pc + 1) [c]) ∧
      (queueAt s p q.toNat = [] →
        ∃ t, exec (.qin dt n c q) s = .next t ∧ (ctxAt t n).run = .waiting ∧ (ctxAt t n).wait = some (.qin q.toNat c) ∧
          (∀ k, queueAt t p k = queueAt s p k) ∧ MovesTo s t n ((ctxAt s n).pc + 1) [])) ∧
    ((q.toNat < 8 ∨ 12 ≤ q.toNat) →
      ((queueAt s p q.toNat).length < 32 →
        ∃ t, exec (.qout dt n c q) s = .next t ∧ queueAt t p q.toNat = queueAt s p q.toNat ++ [(ctxAt s n).reg c % 2 ^ 32] ∧
          (∀ k, k ≠ q.toNat → queueAt t p k = queueAt s p k) ∧ MovesTo s t n ((ctxAt s n).pc + 1) []) ∧
      (32 ≤ (queueAt s p q.toNat).length →
        ∃ t, exec (.qout dt n c q) s = .next t ∧ (ctxAt t n).run = .waiting ∧
          (ctxAt t n).wait = some (.qout q.toNat ((ctxAt s n).reg c)) ∧ (∀ k, queueAt t p k = queueAt s p k) ∧
            MovesTo s t n ((ctxAt s n).pc + 1) []))

/-- R160, R161, R179. YIELD ends the step, and the context is due in the next pace in the last group, at the next address; HALT stops the
context at once and leaves the loaded stakes; both leave every register and every other context. -/
def Obligations.PulseStepEnds : Prop :=
  ∀ (dt : Nat) (n : Fin 64) (s : State), steady dt s = true → canExecute s n = true →
    (∃ t, exec (.yield dt n) s = .next t ∧ (∃ k, (ctxAt t n).run = .ready 4 k ((s.cyc + dt) / 100 + 1) none) ∧ (ctxAt t n).steps = 0 ∧
      MovesTo s t n ((ctxAt s n).pc + 1) [] ∧ ∀ p, (plsAt t p).stakes = (plsAt s p).stakes) ∧
    (∃ t, exec (.halt dt n) s = .next t ∧ (ctxAt t n).run = .halted ∧ (ctxAt t n).wait = none ∧ (ctxAt t n).limit = none ∧
      MovesTo s t n (ctxAt s n).pc [] ∧ ∀ p, (plsAt t p).stakes = (plsAt s p).stakes)

/-- R163, R178. WAITE of edge kind 0 or of a reserved source, STK of a reserved action, CAPT of a reserved source, QIN of a queue that the
host reads and QOUT to one that it writes are illegal: the context is halted, its fault flag set, and F_0131 detected. -/
def Clauses.PulseIllegal : Prop :=
  ∀ (dt : Nat) (n : Fin 64) (cd ca : Fin 16) (s : State), steady dt s = true → canExecute s n = true →
    let illegal := fun (c : Instr) => Runs c s (fun t => Detects t 0x0131 ∧ (ctxAt t n).run = .halted ∧
      bitOf (rd t (PLS_STATUS_FAULTED (n.val / 16))) (n.val % 16) = true)
    (∀ (limit : Option (Fin 16)) (det : Bool) (kind : BitVec 2) (source : BitVec 5),
      kind = 0#2 ∨ (4 ≤ source.toNat ∧ source.toNat < 8) → illegal (.waite dt n cd limit det kind source)) ∧
    (∀ slot : Fin 4, illegal (.stk dt n cd ca slot 3#2)) ∧
    (∀ source : BitVec 6, 12 < source.toNat → illegal (.capt dt n cd ca source)) ∧
    (∀ q : BitVec 4, (12 ≤ q.toNat → illegal (.qin dt n cd q)) ∧ (8 ≤ q.toNat → q.toNat < 12 → illegal (.qout dt n ca q)))

/-- Table 5-4: the arithmetic instructions, the branches and the illegal words. -/
def Obligations.PulseInstructions : Prop := Clauses.PulseArithmetic ∧ Clauses.PulseBranches ∧ Clauses.PulseIllegal

/-- R161, R167, R170, R173. In the first cycle of a pulse share a context that waits since an earlier pace is woken by an edge matched at
least two cycles ago, with status 0 and ordered by the edge's cycle, by an entry in the queue that it reads, or by a place in the queue that
it writes. -/
def Obligations.PulseWakes : Prop :=
  ∀ (dt : Nat) (n : Fin 64) (s : State), steady dt s = true → (pairAt s (n.val / 16)).halted = false → (ctxAt s n).run = .waiting →
    let now := s.cyc + dt
    now % 100 = 60 → (ctxAt s n).issued < now / 100 →
    (∀ (det : Bool) (kind e : Nat), (ctxAt s n).wait = some (.edge det kind) →
      (if det then (ctxAt s n).det1 else (ctxAt s n).det0).hit = some e → e + 2 ≤ now →
      ∃ t, exec (.pulseWake dt n) s = .next t ∧ (ctxAt t n).run = .ready 3 e (now / 100) (some 0) ∧ (ctxAt t n).wait = none ∧
        (ctxAt t n).limit = none ∧ MovesTo s t n (ctxAt s n).pc []) ∧
    (∀ q cd : Nat, (ctxAt s n).wait = some (.qin q cd) → queueAt s (n.val / 16) q ≠ [] →
      ∃ t, exec (.pulseWake dt n) s = .next t ∧ (∃ k, (ctxAt t n).run = .ready 3 k (now / 100) none) ∧
        (ctxAt t n).wait = some (.qin q cd) ∧ MovesTo s t n (ctxAt s n).pc []) ∧
    (∀ q v : Nat, (ctxAt s n).wait = some (.qout q v) → (queueAt s (n.val / 16) q).length < 32 →
      ∃ t, exec (.pulseWake dt n) s = .next t ∧ (∃ k, (ctxAt t n).run = .ready 3 k (now / 100) none) ∧
        (ctxAt t n).wait = some (.qout q v) ∧ MovesTo s t n (ctxAt s n).pc [])

/-- R167, R172, R174, R176, R181. In the first cycle of a pulse share a time limit that has come wakes its context with 0xFFFF_FFFF; a
general pulse output follows the ON or OFF stake that fires in its cycle, and a trigger line is raised for one pace, the stake's place
becoming free; a stake of which one comparator alone matches detects F_0205; at the exchange of banks of a pair whose contexts are halted
the banks change places and nothing is loaded or pending. -/
def Obligations.PulseEvents : Prop :=
  ∀ (dt : Nat) (n : Fin 64) (p : Fin 4) (s : State), steady dt s = true →
    let now := s.cyc + dt
    (∀ (det : Bool) (kind l : Nat), (pairAt s (n.val / 16)).halted = false → (ctxAt s n).run = .waiting →
      (ctxAt s n).wait = some (.edge det kind) → (if det then (ctxAt s n).det1 else (ctxAt s n).det0).hit = none →
      (ctxAt s n).limit = some l → l ≤ now / 100 → (ctxAt s n).issued < now / 100 → now % 100 = 60 →
      Runs (.waitLimitExpiry dt n) s (fun t =>
        (ctxAt t n).run = .ready 3 (100 * (now / 100)) (now / 100) (some 0xFFFFFFFF) ∧ (ctxAt t n).wait = none ∧
          MovesTo s t n (ctxAt s n).pc [])) ∧
    (∀ (slot : Fin 32) (x : PStake), Tbl.find (plsAt s p).stakes slot = some x →
      (x.cycle = now →
        (0x80 ≤ x.target → x.target < 0x98 → x.action = 0 → Runs (.pulseStakeFire dt p slot true true) s (fun t =>
          bitOf t.pulse.gpo (x.target - 0x80) = false ∧ Tbl.find (plsAt t p).stakes slot = none)) ∧
        (0x80 ≤ x.target → x.target < 0x98 → x.action = 1 →
          firesNow (onPls p (fun q => { q with stakes := Tbl.erase q.stakes slot }) (tick dt s)) p x.target 0 = false →
          Runs (.pulseStakeFire dt p slot true true) s (fun t =>
            bitOf t.pulse.gpo (x.target - 0x80) = true ∧ Tbl.find (plsAt t p).stakes slot = none)) ∧
        (256 ≤ x.target → Runs (.pulseStakeFire dt p slot true true) s (fun t =>
          Tbl.get 0 t.pulse.lines (x.target - 256) = now + 100 ∧ t.pulse.gpo = s.pulse.gpo ∧
            Tbl.find (plsAt t p).stakes slot = none))) ∧
      (∀ v : Bool, Runs (.pulseStakeFire dt p slot v (!v)) s (fun t => Detects t 0x0205))) ∧
    (∀ (m : Msg) (at_ : Nat), (plsAt s p).switch = some (m, at_) → now % 100 = 0 → at_ < now →
      (∀ i, i < 16 → (ctxAt s (16 * p.val + i)).run = .halted) →
      Answers (.pulseBankExchange dt p) s 0x0151 m [wd (now / 100 % 2 ^ 32)] (fun u =>
        isSet u (PLS_CTRL_BANK p) = !isSet s (PLS_CTRL_BANK p) ∧ isSet u (PLS_CTRL_LOADED p) = false ∧
          isSet u (PLS_CTRL_SWITCH_PEND p) = false ∧ (plsAt u p).switch = none))

/-! ### The pace, stakes, frames and lanes (architecture R15 to R30, drive R200, protection R251) -/

/-- Registers outside those at the offsets of `l` are as they were. -/
def OnlyRegs (s t : State) (l : List Nat) : Prop := ∀ f : Fld, f.key / 32 ∉ l → rd t f = rd s f

/-- R159, R200. A frame of the profile link whose words pass and whose generation matches reaches its output behind those that wait there,
the frame of a pulse binding in place of the last one, and the pair's next frame follows; one that fails is dropped and detects F_0207. No
register changes. -/
def Clauses.ProfileFrames : Prop :=
  ∀ (dt : Nat) (s : State) (p : Nat) (f : Frame) (rest : List Frame), steady dt s = true → nextLink s = some p →
    (pairAt s p).link = f :: rest →
    let behind := fun (l : List Frame) => if f.serial = 0 then l.filter (fun g => g.serial != 0) ++ [f] else l ++ [f]
    (genMatches s f = true → f.output < 36 → Runs (.profileFrame dt true) s (fun t =>
      (pairAt t p).link = rest ∧ (chan t f.output).frames = behind (chan s f.output).frames ∧ t.regs = s.regs ∧
        (∀ q, q ≠ p → pairAt t q = pairAt s q) ∧ ∀ c, c ≠ f.output → chan t c = chan s c)) ∧
    (genMatches s f = true → 36 ≤ f.output → Runs (.profileFrame dt true) s (fun t =>
      (pairAt t p).link = rest ∧ (auxAt t (f.output - 36)).frames = behind (auxAt s (f.output - 36)).frames ∧ t.regs = s.regs ∧
        (∀ q, q ≠ p → pairAt t q = pairAt s q) ∧ ∀ c, chan t c = chan s c)) ∧
    (∀ pass : Bool, (pass = false ∨ genMatches s f = false) → Runs (.profileFrame dt pass) s (fun t =>
      (pairAt t p).link = rest ∧ Detects t 0x0207 ∧ t.drive = s.drive ∧ t.regs = s.regs))

/-- R25. An injection stake fires only in its cycle and only when both of its comparators match. With neither, or in another cycle,
nothing happens. With exactly one the stake has failed at hop 5: F_0205 is detected and the event withdrawn, here one that has not
started, which leaves every lane as it was, or one that alone holds its lane, which falls. With both, here for a start on a module that
does not drive, the event runs from this cycle on and its lane rises. -/
def Obligations.StakeFires : Prop :=
  ∀ (dt : Nat) (p : Fin 4) (k : Fin 32) (s : State) (x : Stake) (d : Desc), steady dt s = true →
    Tbl.find (pairAt s p).stakes k = some x → desc s x.desc = some d → d.output < 52 → d.frozen s = false →
    exec (.stakeFire dt p k false false) s = .next (tick dt s) ∧
    (x.cycle ≠ s.cyc + dt → exec (.stakeFire dt p k true true) s = .next (tick dt s)) ∧
    (∀ v : Bool, d.recurring = false → Runs (.stakeFire dt p k v (!v)) s (fun t =>
      (∃ e ∈ t.faults, e.code = 0x0205 ∧ e.cyc = s.cyc + dt) ∧ desc t x.desc = none ∧
        (x.desc ∉ (laneAt s d.output).holders → ∀ o, laneAt t o = laneAt s o) ∧
        ((laneAt s d.output).holders = [x.desc] → (laneAt t d.output).on = false))) ∧
    (driving s = false → x.start = true → d.late = 0 → d.toothLocked = false → s.cyc + dt < d.te → (laneAt s d.output).on = false →
      x.cycle = s.cyc + dt → Runs (.stakeFire dt p k true true) s (fun t =>
        (laneAt t d.output).on = true ∧ (laneAt t d.output).holders = [x.desc] ∧ (laneAt t d.output).since = s.cyc + dt ∧
          (desc t x.desc).map (fun e => (e.stage, e.onAt, e.te)) = some (.running, some (s.cyc + dt), d.te)))

/-- R251, Table 7-3. The report that the boost let a running event go on is delivered as that event's BOOST notice, and no report
is left. -/
def Clauses.StatusReturns : Prop :=
  ∀ (dt : Nat) (s : State) (o x outcome delay t i : Nat) (d : Desc), steady dt s = true →
    s.seq.reports = [.boost o x outcome delay t false] → bySerial s x = some (i, d) → desc s i = some d →
    (pairAt s d.pair).halted = false → sessionOpen s d.client = true → isSet s (CLI_RING_CFG_ENABLE d.client) = false →
    (client s d.client).held.length < 64 →
    Runs (.statusReturnFrame dt) s (fun u => u.seq.reports = [] ∧
      (client u d.client).held.map (fun m => (m.opcode, m.words.headD 0)) =
        (client s d.client).held.map (fun m => (m.opcode, m.words.headD 0)) ++ [(0x0280, wd (i * 65536 + 13 * 256))])

/-- R26. A lane pair that stands at one level detects F_0206 and latches its lane's fault, of any output whose lane is OFF; of a
latched lane it does nothing more. -/
def Clauses.LaneFaults : Prop :=
  ∀ (dt : Nat) (o : Fin 52) (s : State), steady dt s = true →
    ((laneAt s o).fault = false → (laneAt s o).on = false →
      Runs (.laneFault dt o) s (fun t => Detects t 0x0206 ∧ (laneAt t o).fault = true ∧ ∀ q, q ≠ o.val → laneAt t q = laneAt s q)) ∧
    ((laneAt s o).fault = true → exec (.laneFault dt o) s = .next (tick dt s))

/-- R28, R29. Trackers that differ by eight links at most raise the largest difference and nothing else; a larger difference, or sync
states or directions that differ, is a tracker fault with F_0301 that takes the module's eligibility. Here no wheel is loaded and the
module is not DUTY. -/
def Clauses.TrackerFaults : Prop :=
  ∀ (dt diff : Nat) (s : State), steady dt s = true → diff < 2 ^ ANG_LOCKSTEP_MAX_DIFF.w →
    (diff ≤ 8 → Runs (.trackerDisagree dt diff false) s (fun t =>
      rd t ANG_LOCKSTEP_MAX_DIFF = max (rd s ANG_LOCKSTEP_MAX_DIFF) diff ∧ t.angle = s.angle ∧ t.faults = s.faults ∧
        OnlyRegs s t [ANG_LOCKSTEP_MAX_DIFF.off])) ∧
    (∀ states : Bool, (8 < diff ∨ states = true) → s.angle.wheel = none → role s ≠ 1 → syncState s < 2 →
      Runs (.trackerDisagree dt diff states) s (fun t =>
        Detects t 0x0301 ∧ t.angle.trackerFault = true ∧ isSet t PAIR_STATUS_ELIGIBLE = false))

/-- R26, R28, R29, R200, R251: the profile link, the status return link, lane faults and tracker faults. -/
def Obligations.LinksAndLockstep : Prop := Clauses.ProfileFrames ∧ Clauses.StatusReturns ∧ Clauses.LaneFaults ∧ Clauses.TrackerFaults

/-- R16 to R18, R145, R169, R234, R282. At a pace boundary the measurements of the pace are taken, the asked releases of inhibits take
place, a context whose time has come is woken with status 0, ordered by its time, and the pace's pulse shares are to come. Here nothing is
stored, loaded, learned or running and every domain is on. -/
def Obligations.Paces : Prop :=
  ∀ (dt : Nat) (vbat : BitVec 12) (r : BoostRun) (drains : List (Fin 36 × BitVec 12)) (a : AuxRun) (pads : Option PadLevels) (s : State),
    steady dt s = true → (s.cyc + dt) % 100 = 0 →
    s.power.domains = [] → rd s PWR_BASE_BASE = 0x1FFFF → s.angle.wheel = none → s.angle.learn = none → s.angle.reversal = none →
    phased s = false → s.seq.descs = [] → s.seq.pairs = [] → s.pulse.pairs = [] → s.tie.trained = false →
    s.tie.handover = none → boostState s 0 = 0 → boostState s 1 = 0 →
    Runs (.pace dt vbat [r] drains [a] pads []) s (fun t => t.cyc = s.cyc + dt ∧ t.drive.vbat = vbat.toNat ∧
      rd t (BST_STATUS_VCAP 0) = r.a.vcap.toNat ∧ rd t (BST_STATUS_VCAP 1) = r.b.vcap.toNat ∧
        rd t AUX_FEED_GROUP0 = bits a.feed 7 0 ∧ rd t AUX_FEED_GROUP1 = bits a.feed 15 8 ∧ rd t AUX_FEED_GROUP2 = bits a.feed 23 16 ∧
          rd t AUX_FEED_GROUP3 = bits a.feed 31 24 ∧ t.seq.release = 0 ∧ t.out = s.out ∧ t.faults = s.faults ∧
            t.pulse.due = some ((s.cyc + dt) / 100) ∧
              (∀ o, o < 52 → bitOf t.seq.inhibit o = (bitOf s.seq.inhibit o && !bitOf s.seq.release o)) ∧
                ∀ n c, n < 64 → (ctxAt s n).run = .waiting → (ctxAt s n).wait = some (.time c) → (ctxAt s n).issued < (s.cyc + dt) / 100 →
                  c / 100 ≤ (s.cyc + dt) / 100 + 1 → (ctxAt t n).run = .ready 2 (turn + c) ((s.cyc + dt) / 100) (some 0))

/-! ### Wheel decoding and the angle chain (wheel R37 to R76, angle R80 to R113) -/

/-- R43. An edge that arrives earlier than NOISE_WINDOW/16 of the reference period after its crank input's last accepted edge is rejected:
the input's noise count and its count of rejections in the revolution rise by one, and no period, count or state of the trackers
changes, nor any other register than the DOZE state. -/
def Obligations.NoiseRejected : Prop :=
  ∀ (dt : Nat) (b rising : Bool) (peak : BitVec 16) (s : State) (w : Wheel) (last : Nat) (before : List Nat) (ref : Frac),
    steady dt s = true → 0 < dt → inputOn s b.toNat = true → (sensorAt s b.toNat).level ≠ rising → filterPasses (tick dt s) b.toNat = true →
    isTiming s b.toNat rising = true → unarmed s b.toNat peak.toNat = false → s.angle.wheel = some w → domainOn s 44 = true →
    (sensorAt s b.toNat).edges = last :: before → noiseRef (levelChange b.toNat rising (tick dt s)) w b.toNat = some ref →
    (Frac.int (16 * (((s.cyc + dt : Nat) : Int) - last))).lt (ref.mul (Frac.int w.noise)) = true →
    let f := if b then WHL_NOISE_CRANK_B else WHL_NOISE_CRANK_A
    Runs (.crankEdge dt b rising peak) s (fun t => rd t f = min f.max (rd s f + 1) ∧
      (sensorAt t b.toNat).edges = last :: before ∧ (crankAt t b.toNat).revNoise = (crankAt s b.toNat).revNoise + 1 ∧
        (crankAt t b.toNat).revEdges = (crankAt s b.toNat).revEdges ∧ (crankAt t b.toNat).search = (crankAt s b.toNat).search ∧
          (crankAt t b.toNat).count = (crankAt s b.toNat).count ∧
            (∀ i, i ≠ b.toNat → sensorAt t i = sensorAt s i ∧ crankAt t i = crankAt s i) ∧
              { t.angle with sensors := s.angle.sensors, cranks := s.angle.cranks } = s.angle ∧
                OnlyRegs s t [f.off, PWR_STATUS_STATE.off])

/-- R38, R46. A level that the filter has not held for `FILTER_N` cycles since its last change is no edge. While no wheel is loaded an
accepted timing edge is recorded and changes no register but the DOZE state. In SEEK on crank A, with no second crank input and no direction
source, an accepted edge is recorded, and a gap candidate makes the search SIGHTED. -/
def Clauses.CrankEdges : Prop :=
  ∀ (dt : Nat) (b rising : Bool) (peak : BitVec 16) (s : State), steady dt s = true → inputOn s b.toNat = true →
    (filterPasses (tick dt s) b.toNat = false → exec (.crankEdge dt b rising peak) s = .next (tick dt s)) ∧
    ((sensorAt s b.toNat).level ≠ rising → filterPasses (tick dt s) b.toNat = true → isTiming s b.toNat rising = true → unarmed s b.toNat peak.toNat = false →
    domainOn s 44 = true →
    let now := s.cyc + dt
    let edges := (now :: (sensorAt s b.toNat).edges).take 4
    (s.angle.wheel = none → Runs (.crankEdge dt b rising peak) s (fun t =>
      (sensorAt t b.toNat).level = rising ∧ (sensorAt t b.toNat).edges = edges ∧ t.angle.lastTooth = some now ∧
        OnlyRegs s t [PWR_STATUS_STATE.off] ∧ ∀ i, i ≠ b.toNat → sensorAt t i = sensorAt s i)) ∧
    (∀ w : Wheel, b = false → s.angle.wheel = some w → w.bRole = 0 → w.dirSrc = 0 → s.angle.dirNext = none → syncState s = 0 →
      srcOf s = 0 → isSet s WHL_STATUS_A_LOST = false → limping s = false → tooEarly (levelChange 0 rising (tick dt s)) w 0 = false →
      (crankAt s 0).search = 0 → tooLong w edges = false →
      Runs (.crankEdge dt b rising peak) s (fun t => (sensorAt t 0).edges = edges ∧ t.angle.lastTooth = some now ∧
        (gapCandidate w edges = false → (crankAt t 0).search = 0 ∧ syncState t = 0) ∧
        (gapCandidate w edges = true → (crankAt t 0).search = 1 ∧ (crankAt t 0).since = [now] ∧ syncState t = 1))))

/-- R38, R52, R54. A level that the filter has not held for `FILTER_N` cycles since its last change is no edge. Below LOCKED a cam edge changes its input's level and nothing of the trackers; when the windows of both
hypotheses have closed without an edge, neither is left and the next test waits. -/
def Clauses.CamInputs : Prop :=
  ∀ (dt : Nat) (s : State), steady dt s = true →
    (∀ (b rising : Bool) (peak : BitVec 16), inputOn s (b.toNat + 2) = true → (sensorAt s (b.toNat + 2)).level ≠ rising →
      (filterPasses (tick dt s) (b.toNat + 2) = false → exec (.camEdge dt b rising peak) s = .next (tick dt s)) ∧
      (filterPasses (tick dt s) (b.toNat + 2) = true → unarmed s (b.toNat + 2) peak.toNat = false → syncState s < 2 →
      Runs (.camEdge dt b rising peak) s (fun t => (sensorAt t (b.toNat + 2)).level = rising ∧
        (sensorAt t (b.toNat + 2)).changed = s.cyc + dt ∧ t.regs = s.regs ∧ t.angle.courses = s.angle.courses ∧
          ∀ i, i ≠ b.toNat + 2 → sensorAt t i = sensorAt s i))) ∧
    (∀ w : Wheel, s.angle.wheel = some w → syncState s = 2 → w.stroke = 4 → s.angle.retest = false →
      (∀ h, h < 2 → (camsOn s w).any (fun k => (w.camEdges k).any (fun x =>
        closedEmpty (tick dt s) w (alongNow (tick dt s)) (windowKey h k x.1) (expectedAt h x.2.angle))) = true) →
      Runs (.camWindowExpiry dt) s (fun t => t.angle.retest = true ∧ t.angle.hyp0.alive = false ∧ t.angle.hyp1.alive = false ∧
        t.regs = s.regs))

/-- R37. A VR input that has not armed within twice its period falls back to its floor; one within it does not. -/
def Clauses.VrFallsBack : Prop :=
  ∀ (dt : Nat) (i : Fin 4) (s : State) (e : Nat) (l : List Nat) (p : Frac), steady dt s = true → (sensorAt s i).edges = e :: l →
    armPeriod (tick dt s) i = some p →
    Runs (.vrArmTimeout dt i) s (fun t => t.regs = s.regs ∧ (∀ j, j ≠ i.val → sensorAt t j = sensorAt s j) ∧
      (sensorAt t i).armed =
        if (p.mul (Frac.int 2)).le (Frac.int (((s.cyc + dt : Nat) : Int) - e)) then none else (sensorAt s i).armed)

/-- R49, R74, R95, R96. A coast due in PHASED, or in LOCKED while the phase test waits for its next start, reaches the next position at its
predicted time: the position is marked coasted and counted, and the coasts in a row rise by one, here where the mean that it gives does not
end the sync. One more than `COAST_K` coasts in a row are the loss of the crank input, F_0420. Where the next position is the first after the
gap, a coast is a missing gap: sync is lost, cause 1, and the module seeks. A coast before 1.5 predicted periods does nothing. -/
def Obligations.Coasts : Prop :=
  ∀ (dt : Nat) (s : State) (w : Wheel), steady dt s = true → s.angle.wheel = some w → synced s = true → limping s = false →
    let due := (s.angle.toothAt.add (s.angle.predicted.mul (Frac.make 3 2))).le (Frac.int ((s.cyc + dt : Nat) : Int))
    let j := followTooth w (reversed s) (rd s WHL_STATUS_TOOTH_POS)
    let t0 := s.angle.toothAt.add s.angle.predicted
    (due = true → j % w.positions ≠ 0 → s.angle.coasts < angCfg s ANG_CFG_COAST_K + 1 → j < 2 ^ WHL_STATUS_TOOTH_POS.w →
      speedCause (recordTime w t0 none s) w = none →
      (phased s = true ∨ (w.stroke = 4 ∧ s.angle.retest = true ∧ j % w.positions ≠ 1)) →
      ∃ t, exec (.coast dt) s = .next t ∧ rd t WHL_STATUS_TOOTH_POS = j ∧ isSet t ANG_TOOTH_COASTED = true ∧
        t.angle.coasts = s.angle.coasts + 1 ∧ t.angle.toothAt = t0 ∧ t.angle.lastEdge = s.angle.lastEdge ∧
          rd t ANG_COUNT_COASTS = min ANG_COUNT_COASTS.max (rd s ANG_COUNT_COASTS + 1) ∧ syncState t = syncState s) ∧
    (due = true → j % w.positions ≠ 0 → angCfg s ANG_CFG_COAST_K + 1 ≤ s.angle.coasts →
      ∃ t, exec (.coast dt) s = .next t ∧ ∃ e ∈ t.faults, e.code = 0x0420 ∧ e.cyc = s.cyc + dt) ∧
    (due = true → j % w.positions = 0 →
      ∃ t, exec (.coast dt) s = .next t ∧ syncState t = 0 ∧ t.angle.times = [] ∧ t.angle.coasts = 0 ∧
        ∃ e ∈ t.faults, e.code = 0x0406 ∧ e.cyc = s.cyc + dt ∧ e.detail = 1#32) ∧
    (due = false → exec (.coast dt) s = .next (tick dt s))

/-- R98. In cam limp a cam input whose level has not changed for F reference times, while another cam still serves, detects F_0421
and leaves service. -/
def Clauses.FrozenCam : Prop :=
  ∀ (dt : Nat) (i : Fin 4) (s : State) (w : Wheel) (r : Frac), steady dt s = true → 2 ≤ i.val → s.angle.wheel = some w →
    frozenAfter s w i = some r → (camsOn s w).any (fun k => decide (k ≠ i.val - 2)) = true →
    ((r.mul (Frac.int (angCfg s ANG_CFG_FROZEN_F + 1 : Nat))).le (Frac.int (((s.cyc + dt : Nat) : Int) - (sensorAt s i).changed))) = true →
    Runs (.frozenInput dt i) s (fun t => Detects t 0x0421 ∧ (camAt t (i.val - 2)).out = true ∧ t.regs = s.regs ∧
      ∀ k, k ≠ i.val - 2 → camAt t k = camAt s k)

/-- R37, R38, R46, R52, R54, R98: crank and cam inputs, VR arming and frozen inputs. -/
def Obligations.SensorEdges : Prop := Clauses.CrankEdges ∧ Clauses.CamInputs ∧ Clauses.VrFallsBack ∧ Clauses.FrozenCam

/-- R93. A chain that reaches its stake waits there: the wait counts, and once. -/
def Clauses.ChainWaits : Prop :=
  ∀ (dt : Nat) (s : State), steady dt s = true → 0 < dt → synced s = true → atStake (tick dt s) = true → s.angle.waited = false →
    Runs (.chainWait dt) s (fun t => rd t ANG_WAITS_WAITS = min ANG_WAITS_WAITS.max (rd s ANG_WAITS_WAITS + 1) ∧
      t.angle.waited = true ∧ OnlyRegs s t [ANG_WAITS_WAITS.off] ∧ exec (.chainWait 0) t = .next t)

/-- R110, R150, R153, R311. At a benchmark crossing of PHASED `SEQ_CYCLE` counts on, the late limit and the bank slips of the registers take
effect, and a clear of the firing pattern table that was asked for takes place. The holder of the benchmark role that drives the engine pulls
the line low for 1 µs from the cycle of its stake. -/
def Clauses.BenchmarkCrossings : Prop :=
  ∀ (dt : Nat) (s : State) (w : Wheel), steady dt s = true → crossed (tick dt s) = true → s.angle.wheel = some w →
    (∀ c, isSet s (CLI_BANK_AHEAD_PEND c) = false ∧ isSet s (CLI_BANK_ASTERN_PEND c) = false) → s.angle.clearTable = true →
    Runs (.benchmarkCrossing dt) s (fun t => rd t SEQ_CYCLE_CYCLE = (rd s SEQ_CYCLE_CYCLE + 1) % 2 ^ 32 ∧
      t.seq.defLate = rd s SEQ_CFG_DEF_LATE ∧ t.seq.slips = (rd s DRV_BANK_SLIP_BANK0, rd s DRV_BANK_SLIP_BANK1) ∧
        t.angle.firing = [] ∧ t.angle.clearTable = false ∧ (∀ b, b < 8 → rd t (fpCycles b) = 0) ∧ crossed t = false ∧
          (let t0 := s.tie.bmFall.getD (s.cyc + dt)
           t.out = if isSet s PAIR_STATUS_BM_HOLDER && driving s then .benchmarkLow t0 (t0 + 400) :: s.out else s.out))

/-- R102, R103. Closure learning that is over is flagged and its `LEARN_CLOSURE` answered: with the qualities in force and the new maps,
which wait for the next tooth position 0 or P, where every map keeps its range, and with the code of its condition where it was aborted,
which changes no map. -/
def Clauses.ClosureLearningEnds : Prop :=
  ∀ (dt : Nat) (s : State) (l : Learn) (w : Wheel), steady dt s = true → s.angle.learn = some l → s.angle.wheel = some w →
    let flags := fun (u : State) => isSet u ANG_STATUS_LEARN_DONE = true ∧ isSet u ANG_STATUS_CL_LEARNING = false ∧
      OnlyRegs s u [ANG_STATUS_LEARN_DONE.off]
    let waits := fun (q : State) => q.angle.mapNext.map (fun x => (x.input, some x.map))
    (l.outcome = some 0 → (learned w l).all (fun x => x.2.isSome) = true →
      Answers (.closureLearnEnd dt) s 0x0140 l.cmd [learnAnswer s (learned w l)] (fun u => flags u ∧
        waits u = waits s ++ learned w l ∧ u.angle = { s.angle with learn := none, mapNext := u.angle.mapNext })) ∧
    (∀ code : Nat, l.outcome = some code → code ≠ 0 →
      ∃ u, exec (.closureLearnEnd dt) s = .next (respond 0x0140 l.cmd code 0 [] u) ∧ flags u ∧ u.angle = { s.angle with learn := none })

/-- R93, R102, R103, R110, R150, R153, R311: waits, benchmark crossings and the end of learning. -/
def Obligations.ChainCourse : Prop := Clauses.ChainWaits ∧ Clauses.BenchmarkCrossings ∧ Clauses.ClosureLearningEnds

/-! ### Solenoid channels and boost controllers (drive R186 to R225, protection R227 to R241) -/

/-- Every channel but `c` is as it was. -/
def OtherChannels (s t : State) (c : Nat) : Prop := ∀ k, k ≠ c → chan t k = chan s k

/-- The register at `off` holds `x` in its writable configuration fields, under the substitutions of their columns. -/
def Holds (t : State) (off : Nat) (x : Word) : Prop :=
  ∀ f ∈ globalFields off, f.acc = .rw → f.kind = .cfg → rd t f = f.fix.apply (f.ofWord x) % 2 ^ f.w

/-- The executor of `opcode` is there and has the request `m` as its next one, and the request passes the common checks. -/
def Accepted (opcode : Nat) (m : Msg) (s : State) : Prop :=
  serves opcode s = true ∧ itsTurn opcode m s = true ∧ commonCheck opcode m s = none

/-- Channel `c` regulates phase `k` of its profile, and its lane does not fall `dt` cycles on (R210). -/
def Regulates (dt : Nat) (s : State) (c k : Nat) : Prop :=
  energised s c = true ∧ (chan s c).mode = .run ∧ rd s (DRV_CH_STAT_PHASE c) = k ∧ (chan s c).held = false ∧
    timeOnly (chan s c).words = false ∧ laneFalls (tick dt s) c = false

/-- The source of channel `c` in phase `k` may come on: it is not the boost high side of a bank with another channel energised (R192). -/
def MayFeed (s : State) (c k : Nat) : Prop := ((chan s c).fromBoost k && bankBusy s c) = false

/-- R195, R203, R208. When the time of a TIME phase elapses, the last phase leaves the channel in its switch-off with phase 15 shown,
and any other exit enters the next phase, here one that is not boost-fed and has no CLOSED exit: it counts from this cycle. A slot whose
two halves differ by then takes the channel off in FAST with F_0207, and its event is reported. -/
def Clauses.PhaseExits : Prop :=
  ∀ (dt : Nat) (c : Fin 36) (k : Nat) (s : State), steady dt s = true → Regulates dt s c k →
    let x := chan s c
    phaseExit x.words k = 0 → phaseTime x.words k ≠ untilOff → x.phaseAt + phaseTime x.words k ≤ s.cyc + dt →
    (k + 1 = phases x.words → Runs (.phaseExitTime dt c) s (fun t => rd t (DRV_CH_STAT_PHASE c) = 15 ∧ (chan t c).source = false ∧
      (∃ m, m ≠ 0 ∧ (chan t c).mode = .ended m) ∧ OtherChannels s t c ∧ OnlyRegs s t [DRV_CH_STAT c])) ∧
    (k + 1 < phases x.words → slotSound s x.slot = true → phaseSource x.words (k + 1) ≠ 2 → phaseExit x.words (k + 1) ≠ 2 →
      Runs (.phaseExitTime dt c) s (fun t => rd t (DRV_CH_STAT_PHASE c) = k + 1 ∧ (chan t c).phaseAt = s.cyc + dt ∧
        OtherChannels s t c ∧ OnlyRegs s t [DRV_CH_STAT c])) ∧
    (k + 1 < phases x.words → slotSound s x.slot = false → paired s c = false → Runs (.phaseExitTime dt c) s (fun t =>
      energised t c = false ∧ (chan t c).mode = .decay 3 ∧ (chan t c).ended = true ∧ Detects t 0x0207 ∧ OtherChannels s t c ∧
        t.seq.reports = s.seq.reports ++ [.noFrame c x.serial (s.cyc + dt) true]))

/-- R204, R205. A fed phase regulates between its thresholds: a fall through `I_LOW` calls for the source, which switches on at once
when its minimum times are over and else waits; a rise through `I_HIGH` of a phase that does not exit on CURRENT switches it off the
same way; a change that waited takes place when its time has come. -/
def Clauses.Regulation : Prop :=
  ∀ (dt : Nat) (c : Fin 36) (k : Nat) (s : State), steady dt s = true → Regulates dt s c k → (chan s c).blind = false →
    phaseSource (chan s c).words k ≠ 0 → MayFeed s c k →
    let x := chan s c
    let now := s.cyc + dt
    let turns := fun (on : Bool) (t : State) =>
      ((changeFrom x on ≤ now → (chan t c).source = on ∧ (chan t c).changedAt = now ∧ (chan t c).want = none) ∧
        (now < changeFrom x on → (chan t c).source = x.source ∧ (chan t c).want = some on)) ∧ OtherChannels s t c
    (x.source = false → Runs (.windowComparatorCrossing dt c false false) s (fun t => turns true t ∧ t.regs = s.regs)) ∧
    (x.source = true → x.rise = none → phaseExit x.words k ≠ 1 →
      Runs (.windowComparatorCrossing dt c true true) s (fun t => turns false t ∧ t.regs = s.regs)) ∧
    (∀ on : Bool, x.want = some on → changeFrom x on ≤ now →
      Runs (.regulationMinTime dt c) s (fun t => turns on t ∧ t.regs = s.regs))

/-- R192, R206. In a time-only profile the source changes at the end of each on and off time. -/
def Clauses.TimeOnlyChopping : Prop :=
  ∀ (dt : Nat) (c : Fin 36) (s : State), steady dt s = true → energised s c = true → (chan s c).mode = .run →
    let x := chan s c
    let k := rd s (DRV_CH_STAT_PHASE c)
    timeOnly x.words = true → phaseSource x.words k ≠ 0 → MayFeed s c k →
    let due := x.changedAt + 40 * (if x.source then phaseHigh x.words k else phaseLow x.words k)
    (due ≤ s.cyc + dt → Runs (.timeOnlyToggle dt c) s (fun t => (chan t c).source = !x.source ∧ (chan t c).changedAt = s.cyc + dt ∧
      t.regs = s.regs ∧ OtherChannels s t c)) ∧
    (s.cyc + dt < due → exec (.timeOnlyToggle dt c) s = .next (tick dt s))

/-- R192, R195, R203 to R206, R208: phase exits, regulation between thresholds, and chopping by time alone. -/
def Obligations.Phases : Prop := Clauses.PhaseExits ∧ Clauses.Regulation ∧ Clauses.TimeOnlyChopping

/-- R210, R237. A decaying channel whose current ends is idle. Every event with boost phases that ran since it was last idle, here none,
one, or two that a restart joined, moves the learned draw of its slot an eighth of the way to what it drew. -/
def Clauses.DecayEnds : Prop :=
  ∀ (dt m : Nat) (drawn : List Nat) (c : Fin 36) (s : State), steady dt s = true → (chan s c).mode = .decay m →
    let x := chan s c
    let b := boostOf c
    let learns := fun (t : State) (n g : Nat) =>
      drawOf t n b = ((drawOf s n b : Int) + roundDiv ((g : Int) - drawOf s n b) 8).toNat
    Runs (.decayEnd dt c drawn) s (fun t => (chan t c).mode = .idle ∧ (chan t c).changedAt = s.cyc + dt ∧ OtherChannels s t c ∧
      t.regs = s.regs ∧ (chan t c).drawn = [] ∧
      (x.boosted = true → c.val = evenMember s c →
        (∀ g : Nat, x.drawn = [] → drawn = [g] → learns t x.slot g) ∧
        (∀ n g h : Nat, x.drawn = [n] → n ≠ x.slot → drawn = [g, h] → learns t n g ∧ learns t x.slot h)) ∧
      (x.boosted = false → x.drawn = [] → t.drive.draws = s.drive.draws))

/-- R213, R214. At its allowance an unpaired channel whose closing detection is off is switched off: it counts a truncation, its event
is reported TRUNCATED, and it stays off for the rest of the lane's interval. -/
def Clauses.DutyLimit : Prop :=
  ∀ (dt : Nat) (c : Fin 36) (s : State), steady dt s = true → 0 < dt → energised s c = true →
    dutyReached (chan s c) (some (chan s c).onAt) (s.cyc + dt) = true → paired s c = false → cdField s c (CD_CFG_ENABLE c) = 0 →
    phaseExit (chan s c).words (rd s (DRV_CH_STAT_PHASE c)) ≠ 2 →
    Runs (.dutyLimitReached dt c) s (fun t => energised t c = false ∧ (chan t c).ended = true ∧
      rd t (DRV_CH_COUNT_TRUNCATIONS c) = min 255 (rd s (DRV_CH_COUNT_TRUNCATIONS c) + 1) ∧
        t.seq.reports = s.seq.reports ++ [.truncated c (chan s c).serial (s.cyc + dt) true] ∧ OtherChannels s t c)

/-- R217, R218. When 4 × t_exp has passed without a crossing, the source switches off and a failure counts; a third one in a row
loses the channel's sense with F_0510. -/
def Clauses.Plausibility : Prop :=
  ∀ (dt : Nat) (c : Fin 36) (s : State) (r : Rise), steady dt s = true → 0 < dt → energised s c = true → (chan s c).rise = some r →
    ((expected s c r).mul (Frac.int 4)).le (Frac.int ((s.cyc + dt - r.from_ : Nat) : Int)) = true → paired s c = false →
    MayFeed s c (rd s (DRV_CH_STAT_PHASE c)) →
    let n := rd s (DRV_CH_STAT_FAILS c) + 1
    (n < 3 → Runs (.plausTimeout dt c) s (fun t => rd t (DRV_CH_STAT_FAILS c) = n ∧ (chan t c).source = false ∧
      (chan t c).rise = none ∧ t.faults = s.faults ∧ OnlyRegs s t [DRV_CH_STAT c, DRV_CH_COUNT c] ∧ OtherChannels s t c)) ∧
    (3 ≤ n → isSet s (DRV_CH_STAT_SENSE_LOST c) = false → Runs (.plausTimeout dt c) s (fun t =>
      isSet t (DRV_CH_STAT_SENSE_LOST c) = true ∧ (chan t c).blind = true ∧ Detects t 0x0510 ∧ OtherChannels s t c))

/-- R210, R213, R214, R217, R218, R237: the ends of a channel's interval. -/
def Obligations.ChannelEnds : Prop := Clauses.DecayEnds ∧ Clauses.DutyLimit ∧ Clauses.Plausibility

/-- R196, R198. `PROFILE_PUT` of a sound profile claims its slot, which shows no valid profile until the drive die has stored it; then
the slot holds the words with its generation count one higher, and the command is answered. `PROFILE_GET` answers with the value
half, the complement half and the generation count. -/
def Clauses.Profiles : Prop :=
  ∀ (m : Msg) (s : State),
    (Accepted 0x0160 m s → profileCheck s m.words = none → Runs (.profilePut m) s (fun t =>
      slotValid t (putSlot m.words) = false ∧ t.drive.storing = s.drive.storing ++
        [(putSlot m.words, m, (profWord m.words 0 &&& 0xFF80FFFF) :: m.words.drop 1)] ∧ t.drive.profiles = s.drive.profiles)) ∧
    (∀ (dt n : Nat) (ws : List Word) (rest : List (Nat × Msg × List Word)), steady dt s = true → n < 64 →
      s.drive.storing = (n, m, ws) :: rest →
      Answers (.profileStoreDone dt) s 0x0160 m [] (fun u => slotValid u n = true ∧ u.drive.storing = rest ∧
        profileOf u n = some ⟨ws, ws.map (fun w => ~~~w), (profileOf s n).elim 1 (fun p => (p.gen + 1) % 65536)⟩ ∧
          (∀ k, k ≠ n → profileOf u k = profileOf s k) ∧ ∀ b, b < 2 → drawOf u n b = marginDraw s b)) ∧
    (∀ p : Profile, Accepted 0x0161 m s → (word m 0).toNat < 64 → profileOf s (word m 0).toNat = some p →
      Answers (.profileGet m) s 0x0161 m (p.words ++ p.compl ++ [wd p.gen]) (fun u => u = s))

/-- R215, R221, R225. `CHANNEL_CONFIG` by the owner of a channel that is no odd member writes both configuration registers of the
channel and no other; a PF0 write of `DRV_CH_CFG` of such a channel writes that register, and one whose fallback is not sound is
discarded and flagged. -/
def Clauses.ChannelConfiguration : Prop :=
  ∀ (s : State),
    (∀ m : Msg, Accepted 0x0162 m s → (word m 0).toNat < 36 → oddMember s (word m 0).toNat = false →
      owns s m.client (word m 0).toNat = true → badWord (m.words.drop 1) [0xFEFFFC00, 0xFFFF0000] 1 = none →
      fallbackInvalid s (word m 1) = false →
      let c := (word m 0).toNat
      Answers (.channelConfig m) s 0x0162 m [] (fun u => Holds u (DRV_CH_CFG c) (word m 1) ∧ Holds u (DRV_CH_SENSE c) (word m 2) ∧
        OnlyRegs s u [DRV_CH_CFG c, DRV_CH_SENSE c])) ∧
    (∀ (dt : Nat) (c : Fin 36) (x : Word), steady dt s = true → 0 < dt → oddMember s c = false →
      (fallbackInvalid s x = false → Runs (.drvChCfgWrite dt c x) s (fun t =>
        Holds t (DRV_CH_CFG c) x ∧ OnlyRegs s t [DRV_CH_CFG c])) ∧
      (fallbackInvalid s x = true → Runs (.drvChCfgWrite dt c x) s (fun t =>
        isSet t DRV_STATUS_CFG_REJ = true ∧ OnlyRegs s t [DRV_STATUS])))

/-- R187, R188. A write of `DRV_PAIR` on an engine at rest, whose new odd members nothing names, joins the pairs it names, and each
channel shows it; on a turning engine it is discarded and flagged. -/
def Clauses.ChannelPairs : Prop :=
  ∀ (dt : Nat) (x : Word) (s : State), steady dt s = true → 0 < dt →
    (rotating (tick dt s) = false → (joins s x.toNat).any (outputNamed s) = false → Runs (.drvPairWrite dt x) s (fun t =>
      Holds t DRV_PAIR x ∧ ∀ c, c < 28 → isSet t (DRV_CH_STAT_PAIRED c) = bitOf x.toNat (c / 2))) ∧
    (rotating (tick dt s) = true → Runs (.drvPairWrite dt x) s (fun t =>
      isSet t DRV_STATUS_CFG_REJ = true ∧ OnlyRegs s t [DRV_STATUS]))

/-- R187, R188, R196, R198, R215, R221, R225: profiles, channel configuration and pairs. -/
def Obligations.DriveSettings : Prop := Clauses.Profiles ∧ Clauses.ChannelConfiguration ∧ Clauses.ChannelPairs

/-- R220, R222, R223, R224. `SENSE_CAL` of one unpaired channel its client owns begins at once when the channel is idle and else waits; a
deferred calibration begins when the channel is idle. It ends with a mean within 500 mA, which becomes the offset and
restores a lost sense to the nominal inductance, or with status 0x0166, and one that never found the channel idle is refused with 0x0165. -/
def Obligations.OffsetCalibration : Prop :=
  ∀ (dt : Nat) (c : Fin 36) (s : State), paired s c = false →
    (∀ m : Msg, Accepted 0x0163 m s → reservedBad m [0xFFFFFFFF, 0x0000000F] = none → chanMask (word m 0) (word m 1) = 2 ^ c.val →
      owns s m.client c = true → (chan s c).cal = .none →
      Runs (.senseCal m) s (fun t => t.drive.cals = s.drive.cals ++ [(m, [c.val], [(c.val, 0)])] ∧
        (calIdle s c = true → (chan t c).cal = .running s.cyc s.cyc) ∧
        (calIdle s c = false → (chan t c).cal = .pending s.cyc ∧ isSet t (DRV_CH_STAT_CAL_PEND c) = true) ∧ OtherChannels s t c)) ∧
    (∀ since : Nat, steady dt s = true → (chan s c).cal = .pending since →
      (calIdle (tick dt s) c = true → Runs (.senseCalRun dt c) s (fun t => (chan t c).cal = .running since (s.cyc + dt) ∧
        isSet t (DRV_CH_STAT_CAL_PEND c) = false ∧ OnlyRegs s t [DRV_CH_STAT c] ∧ OtherChannels s t c)) ∧
      (∀ (m : Msg) (l : Tbl Nat), s.drive.cals = [(m, [c.val], l)] → Tbl.get 0 l c = 0 → since + calLimit s ≤ s.cyc + dt →
        Answers (.senseCalTimeout dt c) s 0x0163 m (itemsOf 36 (Tbl.insert l c 0x165)) (fun u =>
          (chan u c).cal = .none ∧ isSet u (DRV_CH_STAT_CAL_PEND c) = false ∧ u.drive.cals = []))) ∧
    (∀ (since start : Nat) (mA : Int) (m : Msg) (l : Tbl Nat), steady dt s = true → (chan s c).cal = .running since start →
      start + 16000 ≤ s.cyc + dt → s.drive.cals = [(m, [c.val], l)] → Tbl.get 0 l c = 0 →
      (-500 ≤ mA ∧ mA ≤ 500 → Answers (.senseCalDone dt c mA) s 0x0163 m (itemsOf 36 (Tbl.insert l c 0)) (fun u =>
        rd u (DRV_CH_STAT_OFFSET c) = ofSigned 12 mA ∧ isSet u (DRV_CH_STAT_CAL_DONE c) = true ∧ (chan u c).cal = .none ∧
          isSet u (DRV_CH_STAT_SENSE_LOST c) = false ∧ rd u (DRV_CH_SENSE_L_LEARNED c) =
            if isSet s (DRV_CH_STAT_SENSE_LOST c) then rd s (DRV_CH_SENSE_L_NOM c) % 65536 else rd s (DRV_CH_SENSE_L_LEARNED c))) ∧
      (mA < -500 ∨ 500 < mA → Answers (.senseCalDone dt c mA) s 0x0163 m (itemsOf 36 (Tbl.insert l c 0x166)) (fun u =>
        rd u (DRV_CH_STAT_OFFSET c) = rd s (DRV_CH_STAT_OFFSET c) ∧ (chan u c).cal = .none)))

/-- R227, R228, R230, R232 to R234, Tables 7-1, 7-2. A READY controller whose bank falls below V_ready is CHARGING, and switches with an
inductor peak of `ILIM` while neither limit stops it; DISCHARGE ends in OFF below 50 V, with no switching. A controller that is not ready
250 ms after PRECHARGE began is FAILED with cause 0 and F_0521, and so is one with its cause whose bank has stood below half of `VSET` for
20 ms, or above the clamp level by 8 V for 10 µs, which F_0522 follows, or whose inductor current was above its limit in 16 cycles (the
module not being DUTY, and nothing new measured). -/
def Clauses.BoostStates : Prop :=
  ∀ (dt : Nat) (b : Fin 2) (s : State), steady dt s = true →
    (∀ v : BitVec 12, boostState s b = 3 → 64 * v.toNat < rd s (BST_CFG_READY b) * rd s (BST_CFG_VSET b) * 10 →
      Runs (.boostReadyChange dt b v) s (fun t => boostState t b = 2 ∧ vcap t b = v.toNat ∧ OnlyRegs s t [BST_STATUS b] ∧
        (powerFull (tick dt s) b = false → inputFull (tick dt s) = false →
          (boostAt t b).switching = true ∧ (boostAt t b).peak = 10 * rd s (BST_CFG_ILIM b)))) ∧
    (∀ v : BitVec 12, boostState s b = 5 → v.toNat < 500 → Runs (.boostDischargeEnd dt b v) s (fun t =>
      boostState t b = 0 ∧ vcap t b = v.toNat ∧ (boostAt t b).bleed = false ∧ (boostAt t b).switching = false ∧
        OnlyRegs s t [BST_STATUS b])) ∧
    (role s ≠ 1 →
      let fails := fun (cause : Nat) (t : State) =>
        boostState t b = 4 ∧ rd t (BST_STATUS_FAIL_CAUSE b) = cause ∧ (boostAt t b).switching = false ∧ OnlyRegs s t [BST_STATUS b]
      let since := fun (n : Nat) (a : Option Nat) => ∃ x, a = some x ∧ x + n ≤ s.cyc + dt
      (boostState s b = 1 → (boostAt s b).since + 100000000 ≤ s.cyc + dt → Runs (.boostPrechargeTimeout dt b) s (fun t =>
        fails 0 t ∧ Detects t 0x0521)) ∧
      (boostState s b = 3 → since 8000000 (boostAt s b).lowSince → Runs (.boostFail dt b 1 []) s (fun t =>
        fails 1 t ∧ Detects t 0x0521)) ∧
      (boostState s b ≠ 4 → since 4000 (boostAt s b).highSince → Runs (.boostFail dt b 2 []) s (fun t =>
        fails 2 t ∧ Detects t 0x0522 ∧ (boostAt t b).bleed = true)) ∧
      (boostState s b = 3 → 16 ≤ (boostAt s b).overs → Runs (.boostFail dt b 3 []) s (fun t =>
        fails 3 t ∧ Detects t 0x0521)))

/-- R239. The clamp engages at its level: it is noted, and unless VBAT alone holds the bank it counts and is flagged. It releases 2 V
below. Here the controller does not wait to become ready. -/
def Clauses.BoostClamp : Prop :=
  ∀ (dt : Nat) (b : Fin 2) (v : BitVec 12) (s : State), steady dt s = true → 0 < dt → boostState s b ≠ 1 → boostState s b ≠ 2 →
    ((boostAt s b).clamped = false → 10 * clampLevel s b ≤ v.toNat → Runs (.clampEngage dt b v) s (fun t =>
      (boostAt t b).clamped = true ∧ (vbatHolds s b = false → isSet t (BST_STATUS_CLAMP_SEEN b) = true ∧
        rd t (BST_COUNT_CLAMPS b) = min 65535 (rd s (BST_COUNT_CLAMPS b) + 1)) ∧ OnlyRegs s t [BST_STATUS b, BST_COUNT b])) ∧
    (v.toNat < 10 * (clampLevel s b - 2) → Runs (.clampRelease dt b v) s (fun t =>
      (boostAt t b).clamped = false ∧ OnlyRegs s t [BST_STATUS b]))

/-- R235, Table 7-3. An event that still waits for its boost when `BOOST_WAIT` has elapsed is skipped: reported with its delay, and the
channel stays off for the rest of the interval. -/
def Clauses.BoostWaits : Prop :=
  ∀ (dt since : Nat) (c : Fin 36) (s : State), steady dt s = true → (chan s c).mode = .boostWait since → c.val = evenMember s c →
    since + boostWait (chan s c).words ≤ s.cyc + dt →
    Runs (.boostWaitExpiry dt c) s (fun t => (chan t c).ended = true ∧ energised t c = false ∧ OtherChannels s t c ∧
      t.seq.reports = s.seq.reports ++ [.boost c (chan s c).serial ocSkipped (s.cyc + dt - since) since true])

/-- R230, R232, R241, R254. A sound configuration that enables a controller which is OFF writes its registers and starts PRECHARGE, by
the SAFETY client's `BOOST_CONFIG` and by PF0's write alike, while the bank is not yet ready; a PF0 write outside the ranges is
discarded and flagged. `BOOST_STATUS` answers with the four registers and the 64 draws. -/
def Clauses.BoostConfiguration : Prop :=
  ∀ (s : State) (b : Fin 2),
    (∀ m : Msg, Accepted 0x0164 m s → (word m 0).toNat = b.val → isSafety s m.client = true → bstCfgOk (word m 1) = true →
      bstCapOk (word m 2) = true → bits (word m 1) 31 31 = 1 → isSet s (BST_CFG_ENABLE b) = false → boostState s b = 0 →
      isSet s MOD_STATUS_LEAVING = false → 64 * vcap s b < bits (word m 1) 13 8 * bits (word m 1) 7 0 * 10 →
      Answers (.boostConfig m) s 0x0164 m [] (fun u => Holds u (BST_CFG b) (word m 1) ∧ Holds u (BST_CAP b) (word m 2) ∧
        boostState u b = 1 ∧ (boostAt u b).since = s.cyc ∧ OnlyRegs s u [BST_CFG b, BST_CAP b, BST_STATUS b])) ∧
    (∀ m : Msg, Accepted 0x0167 m s → (word m 0).toNat = b.val → Answers (.boostStatus m) s 0x0167 m
      ([BST_STATUS b, BST_COUNT b, BST_CFG b, BST_CAP b].map (fun o => wordNow s (globalFields o)) ++
        (List.range 64).map (fun n => wd (drawOf s n b))) (fun u => u = s)) ∧
    (∀ (dt : Nat) (x : Word), steady dt s = true → 0 < dt →
      (bstCfgOk (x &&& 0x8F1F3FFF) = false → Runs (.bstCfgWrite dt b false x) s (fun t =>
        isSet t (BST_STATUS_CFG_REJ b) = true ∧ OnlyRegs s t [BST_STATUS b])) ∧
      (bstCfgOk (x &&& 0x8F1F3FFF) = true → isSet s (BST_CFG_ENABLE b) = false → boostState s b = 0 → bits x 31 31 = 1 →
        isSet s MOD_STATUS_LEAVING = false → 64 * vcap s b < bits x 13 8 * bits x 7 0 * 10 →
        Runs (.bstCfgWrite dt b false x) s (fun t => Holds t (BST_CFG b) x ∧ boostState t b = 1 ∧
          OnlyRegs s t [BST_CFG b, BST_CAP b, BST_STATUS b])))

/-- R230 to R241, R254: boost states, clamps, waits and their configuration. -/
def Obligations.BoostSupplies : Prop := Clauses.BoostStates ∧ Clauses.BoostClamp ∧ Clauses.BoostWaits ∧ Clauses.BoostConfiguration

/-! ### Stage protection (protection R242 to R254) -/

/-- R242 to R245, R251, R252. A turning-on switch of an energised channel that within t_ramp/8 to t_ramp stands above its V_DS limit or
rises faster than `DIDT_MAX`, and a switch that from 100 ns after t_ramp on stands above `DESAT_V` for 200 ns, latch the channel off, here
one that takes no other with it: the current decays, the event is reported TRIPPED with its reason, the cause shows the reason, the
fault is detected, and with a retry left its interval begins. With the switch off, or outside the window, or within the limits, nothing
happens. -/
def Obligations.LatchingTrips : Prop :=
  ∀ (dt n held : Nat) (v0 vds slope : BitVec 12) (c : Fin 36) (high : Bool) (s : State), steady dt s = true → energised s c = true →
    c.val = evenMember s c → (isSet s (PRT_STAT_LATCH c) && rd s (PRT_STAT_CAUSE c) == 15) = false →
    let trips := fun (code reason : Nat) (t : State) =>
      isSet t (PRT_STAT_LATCH c) = true ∧ rd t (PRT_STAT_CAUSE c) = reason - 0x20 ∧ energised t c = false ∧ (chan t c).ended = true ∧
        Detects t code ∧ (rd s (PRT_STAT_RETRIES_LEFT c) ≠ 0 → (chan t c).latchedAt = some (s.cyc + dt)) ∧
          t.seq.reports = s.seq.reports ++ [.tripped c (chan s c).serial reason (s.cyc + dt) true] ∧ OtherChannels s t c
    let ramp := 80 + 48 * prtField s c (PRT_CFG_RAMP c)
    phaseExit (chan s c).words (rd s (DRV_CH_STAT_PHASE c)) ≠ 2 →
    (turnedOn s c high = none →
      exec (.rampViolation dt c high n v0 vds slope) s = .next (tick dt s) ∧ exec (.desaturation dt c high vds held) s = .next (tick dt s)) ∧
    (∀ a : Nat, turnedOn s c high = some a →
      let limit := v0.toNat * (ramp - n) + 20 * prtField s c (PRT_CFG_VMARGIN c) * ramp
      let within := a + n ≤ s.cyc + dt ∧ ramp ≤ 8 * n ∧ n ≤ ramp
      let beyond := limit < vds.toNat * ramp ∨ 10 * prtField s c (PRT_CFG_DIDT_MAX c) < slope.toNat
      let stands := 80 ≤ held ∧ a + ramp + 120 ≤ s.cyc + dt ∧ 10 * prtField s c (PRT_CFG_DESAT_V c) < vds.toNat
      (∀ reason : Nat, reason = (if high then 0x23 else 0x24) → tripSpread s c reason = [c.val] → within → beyond →
        Runs (.rampViolation dt c high n v0 vds slope) s (trips 0x0524 reason)) ∧
      (¬(within ∧ beyond) → exec (.rampViolation dt c high n v0 vds slope) s = .next (tick dt s)) ∧
      (∀ reason : Nat, reason = (if high then 0x25 else 0x26) → tripSpread s c reason = [c.val] → stands →
        Runs (.desaturation dt c high vds held) s (trips 0x0525 reason)) ∧
      (¬stands → exec (.desaturation dt c high vds held) s = .next (tick dt s)))

/-- R247. An off-state test begins on a channel that is due for it, and 20 µs later ends: without a finding nothing else happens; a drain
above VBAT − 3 V, and a high side below 2 V, here of a channel that shares none, latch the channel with their causes and F_0526. -/
def Clauses.OffStateTests : Prop :=
  ∀ (dt : Nat) (drain high : BitVec 12) (c : Fin 36) (s : State), steady dt s = true →
    (testDue (tick dt s) c = true → Runs (.offStateTest dt c) s (fun t => (chan t c).test = some (s.cyc + dt) ∧
      (chan t c).testAt = s.cyc + dt ∧ t.regs = s.regs ∧ OtherChannels s t c ∧ testDue t c = false)) ∧
    (∀ since : Nat, (chan s c).test = some since → since + 8000 ≤ s.cyc + dt →
      (drain.toNat + 30 ≤ s.drive.vbat → 20 ≤ high.toNat →
        Runs (.offStateTestResult dt c drain high) s (fun t => (chan t c).test = none ∧ t.regs = s.regs ∧ t.faults = s.faults ∧
          OtherChannels s t c)) ∧
      (paired s c = false → energised s c = false → (isSet s (PRT_STAT_LATCH c) && rd s (PRT_STAT_CAUSE c) == 15) = false →
        let latches := fun (cause : Nat) (t : State) =>
          (chan t c).test = none ∧ isSet t (PRT_STAT_LATCH c) = true ∧ rd t (PRT_STAT_CAUSE c) = cause ∧ Detects t 0x0526 ∧
            OnlyRegs s t [PRT_STAT c] ∧ OtherChannels s t c
        (s.drive.vbat < drain.toNat + 30 → Runs (.offStateTestResult dt c drain high) s (latches 7)) ∧
        (drain.toNat + 30 ≤ s.drive.vbat → high.toNat < 20 → c.val < 28 → Runs (.offStateTestResult dt c drain high) s (latches 8))))

/-- R248. `OPEN_T` after its source came on, a current below `OPEN_I` takes the source off: where the drain then stays below the flyback
level, an unpaired channel goes off in SLOW as an open load, shown without a latch; where it reaches that level the coil is there, a
failure of plausibility counts, here not the third, and the source is called for again. -/
def Clauses.OpenLoads : Prop :=
  ∀ (dt : Nat) (amps drain : BitVec 12) (c : Fin 36) (k : Nat) (s : State), steady dt s = true → Regulates dt s c k →
    (chan s c).source = true → amps.toNat < 5 * prtField s c (PRT_CFG_OPEN_I c) →
    (chan s c).sourceAt + 2000 * (prtField s c (PRT_CFG_OPEN_T c) + 1) ≤ s.cyc + dt → paired s c = false →
    phaseExit (chan s c).words k ≠ 2 →
    (drain.toNat ≤ sourceVolts s c k + 50 →
      Runs (.openLoadCheck dt c amps drain) s (fun t => isSet t (PRT_STAT_OPEN c) = true ∧ rd t (PRT_STAT_CAUSE c) = 9 ∧
        isSet t (PRT_STAT_LATCH c) = isSet s (PRT_STAT_LATCH c) ∧ energised t c = false ∧ (chan t c).mode = .decay 1 ∧
          t.seq.reports = s.seq.reports ++ [.tripped c (chan s c).serial 0x29 (s.cyc + dt) true] ∧ OtherChannels s t c)) ∧
    (sourceVolts s c k + 50 < drain.toNat → (chan s c).blind = false → rd s (DRV_CH_STAT_FAILS c) < 2 →
      Runs (.openLoadCheck dt c amps drain) s (fun t => isSet t (PRT_STAT_OPEN c) = false ∧ (chan t c).source = false ∧
        (chan t c).want = some true ∧ rd t (DRV_CH_STAT_FAILS c) = rd s (DRV_CH_STAT_FAILS c) + 1 ∧ energised t c = true ∧
          t.seq.reports = s.seq.reports ∧ OtherChannels s t c))

/-- R247, R248: the off-state test and the open-load check. -/
def Obligations.LoadTests : Prop := Clauses.OffStateTests ∧ Clauses.OpenLoads

/-- R249. A channel above 175 °C is too hot: it trips with F_0528 and starts are refused until it reads below 160 °C. `HOT` is above
150 °C. -/
def Clauses.ChannelTemperatures : Prop :=
  ∀ (dt : Nat) (c : Fin 36) (x : BitVec 8) (s : State), steady dt s = true →
    (x.toNat < 224 → Runs (.channelThermal dt c x) s (fun t => rd t (PRT_STAT_TEMP c) = x.toNat ∧
      isSet t (PRT_STAT_HOT c) = decide (214 < x.toNat) ∧ (chan t c).tooHot = false ∧ OnlyRegs s t [PRT_STAT c] ∧ OtherChannels s t c)) ∧
    (239 < x.toNat → (chan s c).tooHot = false → energised s c = false → paired s c = false →
      Runs (.channelThermal dt c x) s (fun t => (chan t c).tooHot = true ∧ isSet t (PRT_STAT_HOT c) = true ∧ Detects t 0x0528 ∧
        OnlyRegs s t [PRT_STAT c] ∧ OtherChannels s t c))

/-- R250. A zone of the substrate above 150 °C trips with F_0529 and refuses starts until it reads below 135 °C. Here no channel of
the zone is energised. -/
def Clauses.ZoneTemperatures : Prop :=
  ∀ (dt : Nat) (z : Fin 2) (x : BitVec 8) (s : State) (c : Nat), steady dt s = true → zoneOf c = z.val →
    (x.toNat < 199 → Runs (.substrateThermal dt z x) s (fun t => zoneTripped t c = false ∧ OnlyRegs s t [PRT_SUB] ∧
      t.drive = s.drive)) ∧
    (214 < x.toNat → zoneTripped s c = false → (∀ d, d < 36 → zoneOf d = z.val → energised s d = false) →
      Runs (.substrateThermal dt z x) s (fun t => zoneTripped t c = true ∧ Detects t 0x0529 ∧ OnlyRegs s t [PRT_SUB] ∧
        t.drive = s.drive))

/-- R249, R250: channels and zones of the substrate. -/
def Obligations.Temperatures : Prop := Clauses.ChannelTemperatures ∧ Clauses.ZoneTemperatures

/-- R252, R253, R254, R284, R289. The end of a retry interval releases the latch and uses one retry; PF0's write of 0 to `LATCH`, and
`PROTECT_CLEAR` or `AUX_CLEAR` by the SAFETY client, release it and restore the retries. Auxiliary outputs are taken with their lane
OFF. -/
def Obligations.LatchReleases : Prop :=
  ∀ (s : State),
    (∀ (dt since : Nat) (o : Fin 52), steady dt s = true →
      (o.val < 36 → (chan s o).latchedAt = some since → isSet s (PRT_STAT_LATCH o) = true →
        since + retryCycles (prtField s o (PRT_CFG_RETRY_INT o)) ≤ s.cyc + dt → 0 < rd s (PRT_STAT_RETRIES_LEFT o) →
        rd s (PRT_STAT_RETRIES_LEFT o) ≤ (PRT_STAT_RETRIES_LEFT o).max →
        Runs (.retryRelease dt o) s (fun t => isSet t (PRT_STAT_LATCH o) = false ∧
          rd t (PRT_STAT_RETRIES_LEFT o) = rd s (PRT_STAT_RETRIES_LEFT o) - 1 ∧ OnlyRegs s t [PRT_STAT o] ∧ OtherChannels s t o)) ∧
      (∀ n : Fin 16, o.val = 36 + n.val → (auxAt s n).latchedAt = some since → isSet s (AUX_STAT_LATCH n) = true →
        since + retryCycles (auxField s n (AUX_CFG_RETRY_INT n)) ≤ s.cyc + dt → (auxAt s n).lane = false →
        rd s (AUX_STAT_RETRIES_LEFT n) ≤ (AUX_STAT_RETRIES_LEFT n).max →
        Runs (.retryRelease dt o) s (fun t => isSet t (AUX_STAT_LATCH n) = false ∧
          rd t (AUX_STAT_RETRIES_LEFT n) = rd s (AUX_STAT_RETRIES_LEFT n) - 1 ∧ OnlyRegs s t [AUX_STAT n]))) ∧
    (∀ (dt : Nat) (c : Fin 36) (x : Word), steady dt s = true → 0 < dt → bits x 0 0 = 0 → isSet s (PRT_STAT_LATCH c) = true →
      rd s (PRT_STAT_CAUSE c) ≠ 15 →
      Runs (.prtLatchWrite dt c x) s (fun t => isSet t (PRT_STAT_LATCH c) = false ∧
        rd t (PRT_STAT_RETRIES_LEFT c) = prtField s c (PRT_CFG_RETRY_N c) % 4 ∧ (chan t c).latchedAt = none ∧
          OnlyRegs s t [PRT_STAT c] ∧ OtherChannels s t c)) ∧
    (∀ (dt : Nat) (n : Fin 16) (x : Word), steady dt s = true → 0 < dt → bits x 0 0 = 0 → isSet s (AUX_STAT_LATCH n) = true →
      (auxAt s n).lane = false →
      Runs (.auxLatchWrite dt n x) s (fun t => isSet t (AUX_STAT_LATCH n) = false ∧ rd t (AUX_STAT_CAUSE n) = 0 ∧
        rd t (AUX_STAT_RETRIES_LEFT n) = auxField s n (AUX_CFG_RETRY_N n) % 4 ∧ OnlyRegs s t [AUX_STAT n])) ∧
    (∀ (m : Msg) (c : Fin 36), Accepted 0x0166 m s → reservedBad m [0xFFFFFFFF, 0x0000030F] = none → bits (word m 1) 9 8 = 0 →
      chanMask (word m 0) (word m 1) = 2 ^ c.val → isSafety s m.client = true → paired s c = false →
      Answers (.protectClear m) s 0x0166 m (itemsOf 38 [(c.val, 0)]) (fun u => isSet u (PRT_STAT_LATCH c) = false ∧
        rd u (PRT_STAT_RETRIES_LEFT c) = prtField s c (PRT_CFG_RETRY_N c) % 4 ∧ OnlyRegs s u [PRT_STAT c])) ∧
    (∀ (m : Msg) (n : Fin 16), Accepted 0x0171 m s → (word m 0).toNat = 2 ^ n.val → m.words.length = 1 → isSafety s m.client = true →
      (auxAt s n).lane = false →
      Answers (.auxClear m) s 0x0171 m (itemsOf 16 [(n.val, 0)]) (fun u => isSet u (AUX_STAT_LATCH n) = false ∧
        rd u (AUX_STAT_CAUSE n) = 0 ∧ OnlyRegs s u [AUX_STAT n]))

/-- R254, R289, R521. The owner of an output that is no odd member writes its protection or auxiliary configuration, and no other register
changes; `AUX_QUERY` answers with the output's registers. -/
def Obligations.OutputConfiguration : Prop :=
  ∀ (m : Msg) (s : State),
    (Accepted 0x0165 m s → (word m 0).toNat < 36 → oddMember s (word m 0).toNat = false → owns s m.client (word m 0).toNat = true →
      Answers (.protectConfig m) s 0x0165 m [] (fun u => Holds u (PRT_CFG (word m 0).toNat) (word m 1) ∧
        OnlyRegs s u [PRT_CFG (word m 0).toNat] ∧ u.drive = s.drive)) ∧
    (Accepted 0x0170 m s → (word m 0).toNat < 16 → owns s m.client (36 + (word m 0).toNat) = true → auxCfgOk (word m 1) = true →
      word m 1 &&& 7 = 0 → word m 2 &&& 0xFFFFFFC0 = 0 →
      Answers (.auxConfig m) s 0x0170 m [] (fun u => Holds u (AUX_CFG (word m 0).toNat) (word m 1) ∧
        Holds u (AUX_OPEN (word m 0).toNat) (word m 2) ∧ OnlyRegs s u [AUX_CFG (word m 0).toNat, AUX_OPEN (word m 0).toNat] ∧
          u.drive = s.drive)) ∧
    (Accepted 0x0172 m s → (word m 0).toNat < 16 → Answers (.auxQuery m) s 0x0172 m
      ([AUX_STAT (word m 0).toNat, AUX_COUNT (word m 0).toNat, AUX_FEED].map (fun o => wordNow s (globalFields o))) (fun u => u = s))

/-! ### Closing detection (closing R256 to R275) -/

/-- R258 to R262, R265, R268 to R270. On a module that drives, with no notice waiting, a kink in a plausible window ends the
converter's window: the measurement word holds status MEASURED and the delay, and an eligible one sets the trim to
GAIN × 20 × (TARGET − k) / 256 within its limit. A window that ends without a kink is a miss; the eighth eligible one in a row starts
the return of the trim with F_0530. -/
def Clauses.ClosingMeasurements : Prop :=
  ∀ (dt : Nat) (k : Fin 8) (s : State) (x : Window), steady dt s = true → 0 < dt → driving s = true → s.seq.waiting = [] →
    windowOf s k = some x → x.closing = true →
    let c := x.channel
    (∀ (v : List (BitVec 12)) (below p d : Nat), detectOn s c v (max (20 * cdField s c (CD_DET_SETTLE c)) below) (x.length / 20) = some (p, d) →
      kinkStatus s c d = (0, 0) → d < 2 ^ 20 → rd s (CD_TRIM_STATE c) < 3 → (trimOf s c).exits < 4 → (trimOf s c).eligible = true →
      Runs (.closingKink dt k v below) s (fun t => windowOf t k = none ∧ rd t (CD_LAST_WORD c) / 2 ^ 28 = 0 ∧
        rd t (CD_LAST_WORD c) % 2 ^ 20 = d ∧ rd t (CD_TRIM_STATE c) = 0 ∧ rd t (CD_TRIM_MISS_RUN c) = 0 ∧
          rd t (CD_TRIM_TRIM c) = ofSigned 17 (clampInt (-(cdField s c (CD_TRIMLIM_TRIM_LIM c) : Int)) (cdField s c (CD_TRIMLIM_TRIM_LIM c))
            (roundDiv ((cdField s c (CD_CFG_GAIN c) : Int) * 20 * ((cdField s c (CD_CFG_TARGET c) : Int) - d)) 256)))) ∧
    (x.from_ + x.length ≤ s.cyc + dt → (trimOf s c).eligible = true → rd s (CD_TRIM_STATE c) = 0 → rd s (CD_TRIM_MISS_RUN c) < 8 →
      (trimOf s c).exits < 4 →
      Runs (.closingWindowEnd dt k) s (fun t => windowOf t k = none ∧ rd t (CD_LAST_WORD c) / 2 ^ 28 = 2 ∧
        rd t (CD_TRIM_MISS_RUN c) = rd s (CD_TRIM_MISS_RUN c) + 1 ∧ rd t (CD_TRIM_TRIM c) = rd s (CD_TRIM_TRIM c) ∧
          (rd s (CD_TRIM_MISS_RUN c) < 7 → rd t (CD_TRIM_STATE c) = 0 ∧ t.faults = s.faults) ∧
          (rd s (CD_TRIM_MISS_RUN c) = 7 → rd t (CD_TRIM_STATE c) = 1 ∧ Detects t 0x0530)))

/-- R273, R274. The owner's `CLOSING_CONFIG` with agreeing words writes the four registers of its channel; a change of `ENABLE` or
`TRIM_EN` resets the trim. `TRIM_RESET` of one channel resets it; `CLOSING_STATUS` of one answers with its three registers. -/
def Clauses.ClosingConfiguration : Prop :=
  ∀ (m : Msg) (s : State),
    (Accepted 0x0168 m s → (word m 0).toNat < 36 → oddMember s (word m 0).toNat = false → owns s m.client (word m 0).toNat = true →
      cdBad (word m 1) (word m 2) (word m 3) (word m 4) = none →
      let c := (word m 0).toNat
      Answers (.closingConfig m) s 0x0168 m [] (fun u => Holds u (CD_CFG c) (word m 1) ∧ Holds u (CD_DET c) (word m 2) ∧
        Holds u (CD_PLAUS c) (word m 3) ∧ Holds u (CD_TRIMLIM c) (word m 4) ∧
        OnlyRegs s u [CD_CFG c, CD_DET c, CD_PLAUS c, CD_TRIMLIM c, CD_TRIM c] ∧
        (rd u (CD_CFG_ENABLE c) ≠ rd s (CD_CFG_ENABLE c) ∨ rd u (CD_CFG_TRIM_EN c) ≠ rd s (CD_CFG_TRIM_EN c) →
          rd u (CD_TRIM_TRIM c) = 0 ∧ rd u (CD_TRIM_MISS_RUN c) = 0))) ∧
    (∀ c : Fin 36, reservedBad m [0xFFFFFFFF, 0x0000000F] = none → chanMask (word m 0) (word m 1) = 2 ^ c.val →
      (Accepted 0x0169 m s → oddMember s c = false → owns s m.client c = true →
        Answers (.trimReset m) s 0x0169 m (itemsOf 36 [(c.val, 0)]) (fun u => rd u (CD_TRIM_TRIM c) = 0 ∧ rd u (CD_TRIM_MISS_RUN c) = 0 ∧
          rd u (CD_TRIM_STATE c) = (if isSet s (CD_CFG_TRIM_EN c) && isSet s (CD_CFG_ENABLE c) then 0 else 3) ∧ OnlyRegs s u [CD_TRIM c])) ∧
      (Accepted 0x016A m s → Answers (.closingStatus m) s 0x016A m
        ([CD_LAST c, CD_TRIM c, CD_COUNT c].map (fun o => wordNow s (globalFields o))) (fun u => u = s)))

/-- R258 to R274: closing measurements, trims and their configuration. -/
def Obligations.Closing : Prop := Clauses.ClosingMeasurements ∧ Clauses.ClosingConfiguration

/-! ### Auxiliary outputs (auxiliary R277 to R290) -/

/-- R277, R280, R285. A stretch of measurements that ends now gives `AUX_FEED` the four feeds and every output its `AT_LIMIT`, at
`INRUSH_LIM` within its inrush window and at `LIMIT` outside it; no other register changes, here with no inrush window to end. -/
def Clauses.AuxiliaryMeasurements : Prop :=
  ∀ (dt : Nat) (n : Fin 16) (r : AuxRun) (s : State), steady dt s = true → (auxAt s n).inrush = none →
    Runs (.inrushEnd dt n [r]) s (fun t =>
      rd t AUX_FEED_GROUP0 = bits r.feed 7 0 ∧ rd t AUX_FEED_GROUP1 = bits r.feed 15 8 ∧ rd t AUX_FEED_GROUP2 = bits r.feed 23 16 ∧
        rd t AUX_FEED_GROUP3 = bits r.feed 31 24 ∧
      (∀ k, k < 16 → isSet t (AUX_STAT_AT_LIMIT k) = (isSet s (AUX_STAT_ON k) && decide (auxLimit s k ≤ r.amps.getD k 0))) ∧
      OnlyRegs s t (AUX_FEED :: (List.range 16).map AUX_STAT))

/-- R280, R285. The inrush window of an output ends by its I²t bound, which counts, or by its timer, later by what droop held it, at most
20 ms; with nothing new measured and none waiting in the module no other output changes. -/
def Clauses.InrushWindows : Prop :=
  ∀ (dt since : Nat) (n : Fin 16) (s : State), steady dt s = true → 0 < dt → (auxAt s n).inrush = some since → s.drive.waiters = [] →
    let timer := since + 400000 * auxField s n (AUX_CFG_INRUSH_T n) + min (auxAt s n).held 8000000
    let bound := auxField s n (AUX_CFG_I2T n) * 10 ^ 12 ≤ (auxAt s n).heat
    let ends := fun (t : State) => isSet t (AUX_STAT_INRUSH n) = false ∧ (auxAt t n).inrush = none ∧
      OnlyRegs s t [AUX_STAT n, AUX_COUNT n] ∧ ∀ k, k ≠ n.val → auxAt t k = auxAt s k
    (bound → Runs (.inrushEnd dt n []) s (fun t => ends t ∧
      rd t (AUX_COUNT_I2T_ENDS n) = min (AUX_COUNT_I2T_ENDS n).max (rd s (AUX_COUNT_I2T_ENDS n) + 1))) ∧
    (¬bound → timer ≤ s.cyc + dt → Runs (.inrushEnd dt n []) s (fun t => ends t ∧
      rd t (AUX_COUNT_I2T_ENDS n) = rd s (AUX_COUNT_I2T_ENDS n))) ∧
    (¬bound → s.cyc + dt < timer → exec (.inrushEnd dt n []) s = .next (tick dt s))

/-- R282, R283, R284. A short on an output that conducts, at its limit outside its window or below 30 % of its feed for 10 µs, switches it
off, latches it and counts; without a retry left F_0541 follows F_0540. -/
def Clauses.AuxiliaryShorts : Prop :=
  ∀ (dt since : Nat) (n : Fin 16) (s : State), steady dt s = true → 0 < dt → isSet s (AUX_STAT_ON n) = true → s.drive.waiters = [] →
    ((auxAt s n).limitSince = some since ∨ (auxAt s n).lowSince = some since) → since + 4000 ≤ s.cyc + dt →
    Runs (.auxShort dt n []) s (fun t => isSet t (AUX_STAT_ON n) = false ∧ isSet t (AUX_STAT_LATCH n) = true ∧ rd t (AUX_STAT_CAUSE n) = 1 ∧
      rd t (AUX_COUNT_SHORTS n) = min (AUX_COUNT_SHORTS n).max (rd s (AUX_COUNT_SHORTS n) + 1) ∧
        Detects t (if rd s (AUX_STAT_RETRIES_LEFT n) = 0 then 0x0541 else 0x0540) ∧ OnlyRegs s t [AUX_STAT n, AUX_COUNT n] ∧
          (rd s (AUX_STAT_RETRIES_LEFT n) ≠ 0 → (auxAt t n).latchedAt = some (s.cyc + dt)))

/-- R286, R287. An output that has drawn less than `OPEN_I` for 2 ms shows `OPEN`, and F_0544 tells it once per interval; one that is off,
has been for 1 ms, and has stood above half its feed for 1 ms is told with F_0545, on a module that drives. -/
def Clauses.AuxiliaryLoads : Prop :=
  ∀ (dt since : Nat) (n : Fin 16) (s : State), steady dt s = true →
    ((auxAt s n).idleSince = some since → since + 800000 ≤ s.cyc + dt → Runs (.auxOpenLoad dt n []) s (fun t =>
      isSet t (AUX_STAT_OPEN n) = true ∧ OnlyRegs s t [AUX_STAT n] ∧ (auxAt t n).openTold = true ∧
        ((auxAt s n).openTold = false → Detects t 0x0544) ∧ ((auxAt s n).openTold = true → t.faults = s.faults))) ∧
    (isSet s (AUX_STAT_ON n) = false → driving s = true → (auxAt s n).offAt.elim 0 (fun t => t + 400000) ≤ s.cyc + dt →
      (auxAt s n).backSince = some since → since + 400000 ≤ s.cyc + dt →
      Runs (.auxBackfeed dt n []) s (fun t => isSet t (AUX_STAT_BAT n) = true ∧ Detects t 0x0545 ∧ OnlyRegs s t [AUX_STAT n] ∧
        t.drive = s.drive))

/-- R288. An output above 170 °C shuts down and counts; the ninth shutdown of a lane-ON interval latches it with F_0543. -/
def Clauses.AuxiliaryTemperatures : Prop :=
  ∀ (dt : Nat) (n : Fin 16) (x : BitVec 8) (s : State), steady dt s = true → 0 < dt → 234 < x.toNat → isSet s (AUX_STAT_HOT n) = false →
    s.drive.waiters = [] →
    let y := auxAt s n
    Runs (.auxThermal dt n x) s (fun t => rd t (AUX_STAT_TEMP n) = x.toNat ∧ isSet t (AUX_STAT_HOT n) = true ∧
      isSet t (AUX_STAT_ON n) = false ∧ (auxAt t n).thermal = (if y.lane then y.thermal + 1 else y.thermal) ∧
        rd t (AUX_COUNT_THERMAL n) = min (AUX_COUNT_THERMAL n).max (rd s (AUX_COUNT_THERMAL n) + 1) ∧
          OnlyRegs s t [AUX_STAT n, AUX_COUNT n] ∧
            (y.lane = true → y.thermal = 8 → isSet t (AUX_STAT_LATCH n) = true ∧ rd t (AUX_STAT_CAUSE n) = 2 ∧ Detects t 0x0543))

/-- R277 to R288: measurements, inrush, shorts, loads and temperatures of the auxiliary outputs. -/
def Obligations.AuxiliaryOutputs : Prop := Clauses.AuxiliaryMeasurements ∧ Clauses.InrushWindows ∧ Clauses.AuxiliaryShorts ∧ Clauses.AuxiliaryLoads ∧ Clauses.AuxiliaryTemperatures

/-! ### Redundant pairing (pairing R291 to R314) -/

/-- R294, R299. Training that completes on a module that has never driven, with a partner that has not either, gives DUTY to the lower
slot and STANDBY to the other; the version is the highest both sides offer. Training that has not completed after 5 ms is told once
with F_0600 and begins again with the configuration of that time. -/
def Clauses.TieTraining : Prop :=
  ∀ (dt : Nat) (s : State), steady dt s = true → mayTrain s = true → s.tie.enable = true → s.tie.trained = false → role s = 3 →
    (∀ (slot : Fin 16) (ver : Fin 4) (lat : BitVec 16) (sl : Bool), s.tie.drove = false → rd s PAIR_STATUS_SLOT ≠ slot.val →
      Runs (.tieTrainingDone dt slot ver lat sl false false) s (fun t => t.tie.trained = true ∧ t.tie.frame = [] ∧
        isSet t PAIR_STATUS_LINK_UP = true ∧ rd t PAIR_STATUS_PARTNER_SLOT = slot.val ∧ rd t PAIR_DIFF_TIE_LAT = lat.toNat ∧
          rd t PAIR_STATUS_VERSION = min s.tie.verMax (max 1 ver.val) ∧
            role t = (if rd s PAIR_STATUS_SLOT < slot.val then 1 else 2))) ∧
    (∀ since : Nat, s.tie.since = some since → since + 2000000 ≤ s.cyc + dt → s.tie.late = false →
      Runs (.tieTrainingTimeout dt) s (fun t => Detects t 0x0600 ∧ t.tie.late = true ∧ t.tie.enable = isSet s PAIR_CFG_ENABLE ∧
        t.tie.verMax = rd s PAIR_CFG_TIE_VER_MAX ∧ role t = 3))

/-- R298, R299, R300. An invalid state frame counts and is dropped; a valid one, of a module that is not DUTY and not PHASED, becomes the
partner's last frame. A STANDBY keeps the head of a map it is sent, and the trim of a channel from a block whose words agree. -/
def Clauses.TieReceives : Prop :=
  ∀ (dt : Nat) (s : State), steady dt s = true → 0 < dt → s.tie.trained = true →
    (∀ w0 w1 w2 w3 w4 w5 w6 w7 : Word,
      let l := [w0, w1, w2, w3, w4, w5, w6, w7]
      (frameValid s l = false → Runs (.tieStateFrame dt w0 w1 w2 w3 w4 w5 w6 w7) s (fun t => t.tie = s.tie ∧
        rd t PAIR_COUNT0_BAD_FRAMES = min PAIR_COUNT0_BAD_FRAMES.max (rd s PAIR_COUNT0_BAD_FRAMES + 1) ∧ OnlyRegs s t [PAIR_COUNT0])) ∧
      (frameValid s l = true → role s ≠ 1 → phased s = false → Runs (.tieStateFrame dt w0 w1 w2 w3 w4 w5 w6 w7) s (fun t =>
        t.tie.frame = l ∧ t.tie.frameAt = s.cyc + dt ∧ isSet t PAIR_STATUS_PARTNER_ELIGIBLE = (bits w0 18 18 == 1) ∧
          OnlyRegs s t [PAIR_COUNT0, PAIR_STATUS]))) ∧
    (∀ x0 x1 x2 x3 : Word, role s = 2 →
      (2 ≤ rd s PAIR_STATUS_VERSION → bits x0 31 28 = 1 → Runs (.backgroundBlock dt x0 x1 x2 x3) s (fun t =>
        t.tie = { s.tie with rxMap := some ([x0, x1, x2, x3], []) } ∧ t.regs = s.regs)) ∧
      (rd s PAIR_STATUS_VERSION = 3 → bits x0 31 28 = 3 → bits x0 27 16 < 36 → x2 = ~~~x1 → Runs (.backgroundBlock dt x0 x1 x2 x3) s (fun t =>
        Tbl.find t.tie.trims (bits x0 27 16) = some ⟨bits x1 16 0, bits x3 31 30, bits x3 29 26, bits x3 25 19⟩ ∧ t.regs = s.regs)))

/-- R294, R298 to R300: training of the tie link, and what it receives. -/
def Obligations.TieLink : Prop := Clauses.TieTraining ∧ Clauses.TieReceives

/-- The partner drives no channel, and no lane of the module is ON. -/
def AllQuiet (s : State) : Prop :=
  (∀ c, partnerOn s c = false) ∧ (∀ o, (laneAt s o).on = false) ∧ (∀ c, (chan s c).lane = false) ∧ (∀ n, (auxAt s n).lane = false) ∧
    ∀ c, isSet s (CD_CFG_TRIM_EN c) = false

/-- R302, R303, R305, R306, R309. Silence of two paces takes the link down; on an eligible STANDBY it is a takeover's trigger, SILENCE,
as is a falling resign line, RESIGN, which stands where both fall in one cycle. When the line has been low for 150 ns the switches close: the module is DUTY after a resign of
a partner still heard, else SOLO, the takeover counts, and F_0607 is detected. Here nothing is ON. -/
def Clauses.Takeovers : Prop :=
  ∀ (dt : Nat) (s : State), steady dt s = true → 0 < dt → AllQuiet s →
    (s.tie.trained = true → s.tie.frameAt + 200 ≤ s.cyc + dt → role s = 2 → pairEligible s = true → s.tie.takeover = none →
      Runs (.tieSilence dt) s (fun t => isSet t PAIR_STATUS_LINK_UP = false ∧ t.tie.trained = false ∧
        t.tie.takeover = some (1, s.cyc + dt) ∧ rd t PAIR_STATUS_LAST_TRIGGER = 1 ∧ rd t PAIR_TAKEOVER_AT = (s.cyc + dt) % 2 ^ 32 ∧
          isSet t PAIR_STATUS_RESIGN_IN = true ∧ role t = 2)) ∧
    (s.tie.resign = none → s.tie.deaf = false → role s = 2 → pairEligible s = true → s.tie.takeover = none →
      Runs (.resignEdge dt) s (fun t => isSet t PAIR_STATUS_RESIGN_IN = true ∧ t.tie.takeover = some (2, s.cyc + dt) ∧
        rd t PAIR_STATUS_LAST_TRIGGER = 2 ∧ rd t PAIR_TAKEOVER_AT = (s.cyc + dt) % 2 ^ 32 ∧ role t = 2)) ∧
    (role s = 2 → s.tie.deaf = false → s.tie.takeover = some (1, s.cyc + dt) → Runs (.resignEdge dt) s (fun t =>
      rd t PAIR_STATUS_LAST_TRIGGER = 2 ∧ t.tie.takeover = some (2, s.cyc + dt) ∧ role t = 2)) ∧
    (∀ cause at_ : Nat, s.tie.takeover = some (cause, at_) → isSet s PAIR_STATUS_RESIGN_IN = true → s.tie.lowAt + 60 ≤ s.cyc + dt →
      Runs (.isolationClose dt true) s (fun t => t.tie.closed = true ∧ t.tie.takeover = none ∧
        role t = (if cause = 2 ∧ s.tie.trained = true then 1 else 0) ∧ isSet t PAIR_STATUS_TAKEOVER = true ∧
          rd t PAIR_COUNT0_TAKEOVERS = min PAIR_COUNT0_TAKEOVERS.max (rd s PAIR_COUNT0_TAKEOVERS + 1) ∧ Detects t 0x0607))

/-- R303, R304, R309. A DUTY that sees the resign line fall steps down to STANDBY with its switches open and detects F_0608. The
module's own assertion lasts 10 µs; a line that stays low with nobody of the module driving it is stuck: F_0603, and edges are ignored
until it is high again. -/
def Clauses.ResignLine : Prop :=
  ∀ (dt : Nat) (s : State), steady dt s = true →
    (s.tie.resign = none → s.tie.deaf = false → role s = 1 → s.tie.handover = none → Runs (.resignEdge dt) s (fun t =>
      role t = 2 ∧ t.tie.closed = false ∧ isSet t PAIR_STATUS_RESIGN_IN = true ∧ Detects t 0x0608)) ∧
    (∀ u : Nat, s.tie.resign = some u → u ≤ s.cyc + dt → Runs (.resignRelease dt) s (fun t =>
      t.tie = { s.tie with resign := none } ∧ t.regs = s.regs)) ∧
    (isSet s PAIR_STATUS_RESIGN_IN = true → s.tie.resign = none → s.tie.deaf = false → s.tie.lowAt + 4000 < s.cyc + dt →
      Runs (.resignStuck dt) s (fun t => t.tie = { s.tie with deaf := true } ∧ Detects t 0x0603 ∧ t.regs = s.regs ∧
        Runs (.resignEdge 0) t (fun u => u.tie = t.tie ∧ role u = role t ∧ u.faults = t.faults))) ∧
    (s.tie.resign = none → Runs (.resignLineRise dt) s (fun t => isSet t PAIR_STATUS_RESIGN_IN = false ∧ t.tie.deaf = false ∧
      OnlyRegs s t [PAIR_STATUS]))

/-- R311, R312, R313. A pulse within 16 links of benchmark is seen and nothing else; one further away counts as a mismatch, with F_0606
once in an engine cycle. A cycle without a pulse is counted, and the second in a row makes a driving module listen again, F_060A. After
its listening time a module claims the role for 20 µs + 10 µs × slot; a claim of a lower slot takes it from the holder; the line is
released at the end of the pulse. -/
def Clauses.BenchmarkLine : Prop :=
  ∀ (dt : Nat) (s : State), steady dt s = true → 0 < dt →
    let now := s.cyc + dt
    (bmChecks s = true →
      let a := chainAt s (now - 8) / unit
      ((signed 24 (ofSigned 24 a)).natAbs ≤ 16 → Runs (.benchmarkEdge dt) s (fun t => t.tie.bmSeen = some (bmCycle s a + 1) ∧
        t.tie.missing = 0 ∧ t.regs = s.regs ∧ t.faults = s.faults)) ∧
      (16 < (signed 24 (ofSigned 24 a)).natAbs → Runs (.benchmarkEdge dt) s (fun t => isSet t PAIR_STATUS_BM_MISMATCH = true ∧
        rd t PAIR_COUNT1_BM_MISMATCH = min PAIR_COUNT1_BM_MISMATCH.max (rd s PAIR_COUNT1_BM_MISMATCH + 1) ∧
          (Tbl.get 0 s.seq.marks (0x0606 * 64) ≠ rd s SEQ_CYCLE_CYCLE + 1 → Detects t 0x0606) ∧
            OnlyRegs s t [PAIR_COUNT1, PAIR_STATUS]))) ∧
    (bmChecks s = true →
      let n := bmCycle s (chainNow (tick dt s) / unit)
      s.tie.bmSeen ≠ some n → s.tie.bmMissed ≠ some n →
      (s.tie.missing ≠ 1 → Runs (.benchmarkPulseMissing dt) s (fun t => t.tie.missing = s.tie.missing + 1 ∧ t.regs = s.regs ∧
        t.faults = s.faults)) ∧
      (s.tie.missing = 1 → driving s = true → Runs (.benchmarkPulseMissing dt) s (fun t => t.tie.missing = 0 ∧
        t.tie.listen = some now ∧ Detects t 0x060A ∧ t.regs = s.regs))) ∧
    (∀ since : Nat, s.tie.listen = some since → driving s = true → isSet s PAIR_CFG_BM_ENABLE = true →
      since + 800000 * (rd s PAIR_STATUS_SLOT + 1) ≤ now → Runs (.benchmarkListenEnd dt) s (fun t =>
        isSet t PAIR_STATUS_BM_HOLDER = true ∧ t.tie.listen = none ∧ t.tie.bmLow = some (now + 8000 + 4000 * rd s PAIR_STATUS_SLOT) ∧
          OnlyRegs s t [PAIR_STATUS])) ∧
    (∀ k : Fin 16, isSet s PAIR_CFG_BM_ENABLE = true → k.val < rd s PAIR_STATUS_SLOT → Runs (.benchmarkClaim dt k) s (fun t =>
      isSet t PAIR_STATUS_BM_HOLDER = false ∧ t.tie.listen = none ∧ OnlyRegs s t [PAIR_STATUS])) ∧
    (∀ u : Nat, s.tie.bmLow = some u → u ≤ now → Runs (.benchmarkLineRelease dt) s (fun t => t.tie = { s.tie with bmLow := none } ∧
      t.regs = s.regs))

/-- R302 to R306, R309 to R312: takeovers, the resign line and the benchmark line. -/
def Obligations.TieLines : Prop := Clauses.Takeovers ∧ Clauses.ResignLine ∧ Clauses.BenchmarkLine

/-- R310, R522. `PAIR_HANDOVER` to an eligible partner in the same sync state waits; a QUIET one resigns at the first quiet moment and is
answered with the cycle of the resign, the module STANDBY with its switches open and the resign line low for 10 µs; one that found no
quiet moment in time is refused with 0x0183. -/
def Clauses.Handovers : Prop :=
  ∀ (s : State), role s = 1 →
    (∀ m : Msg, Accepted 0x0182 m s → reservedBad m [1] = none → s.tie.frame ≠ [] → bits (partnerWord s 0) 18 18 = 1 →
      bits (partnerWord s 0) 23 22 = syncState s → s.tie.handover = none →
      Runs (.pairHandover m) s (fun t => t.tie = { s.tie with handover := some ⟨m, bits (word m 0) 0 0 == 1, s.cyc, chainNow s⟩ } ∧
        t.regs = s.regs ∧ t.out = s.out)) ∧
    (∀ (dt : Nat) (h : Handover), steady dt s = true → s.tie.handover = some h → h.quiet = true →
      (quietNow (tick dt s) = true → Answers (.quietHandoverResign dt) s 0x0182 h.cmd [wd (s.cyc + dt)] (fun u => role u = 2 ∧
        u.tie.closed = false ∧ u.tie.handover = none ∧ u.tie.resign = some (s.cyc + dt + 4000) ∧
          isSet u PAIR_STATUS_RESIGN_IN = true)) ∧
      (handoverLate (tick dt s) h = true → ∃ u, exec (.handoverTimeout dt) s = .next (respond 0x0182 h.cmd 0x0183 0 [] u) ∧
        u.tie = { s.tie with handover := none } ∧ u.regs = s.regs ∧ role u = 1))

/-- R314, R522. On an engine at rest, without a late training, `PAIR_CONFIG` of a word without reserved bits and PF0's write write
`PAIR_CFG`, under its substitutions; on a turning
engine PF0's write is discarded and flagged. `PAIR_STATUS` answers with the five registers and the partner's last frame. -/
def Clauses.PairConfiguration : Prop :=
  ∀ (s : State),
    (∀ m : Msg, Accepted 0x0180 m s → rotating s = false → s.tie.late = false → word m 0 &&& 0x1C00FFFF = 0 →
      Answers (.pairConfig m) s 0x0180 m [] (fun u => Holds u PAIR_CFG (word m 0) ∧ OnlyRegs s u [PAIR_CFG, PAIR_STATUS] ∧ role u = role s)) ∧
    (∀ (dt : Nat) (x : Word), steady dt s = true → 0 < dt →
      (rotating (tick dt s) = false → s.tie.late = false → Runs (.pairCfgWrite dt x) s (fun t => Holds t PAIR_CFG x ∧
        OnlyRegs s t [PAIR_CFG, PAIR_STATUS] ∧ role t = role s)) ∧
      (rotating (tick dt s) = true → Runs (.pairCfgWrite dt x) s (fun t => isSet t PAIR_STATUS_CFG_REJ = true ∧ t.tie = s.tie ∧
        OnlyRegs s t [PAIR_STATUS]))) ∧
    (∀ m : Msg, Accepted 0x0181 m s → Answers (.pairStatus m) s 0x0181 m
      ([PAIR_STATUS, PAIR_COUNT0, PAIR_COUNT1, PAIR_DIFF, PAIR_TAKEOVER].map (fun o => wordNow s (globalFields o)) ++
        (List.range 8).map (fun i => s.tie.frame.getD i 0)) (fun u => u = s))

/-- R310, R314, R522: handovers and the pairing registers. -/
def Obligations.PairCommands : Prop := Clauses.Handovers ∧ Clauses.PairConfiguration

/-! ### Analogue acquisition (acquisition R316 to R339) -/

/-- List `l` can take a run now: the reference is settled, no entry of it pends, the run fits, and its converter works. -/
def TakesRun (s : State) (l : Nat) : Prop :=
  isSet s ACQ_REF_SETTLED = true ∧ s.acq.pend.any (fun e => e.list == l) = false ∧ acqRunning s l = true ∧
    (acqList s l).length ≤ 1024 ∧ 0 < (acqList s l).length ∧
      ∃ c, convOf s (acqList s l).conv = some c ∧ c.start ≤ s.cyc

/-- The run that a trigger of list `l` in cycle `now` adds, its first word at offset `wp`. -/
def runOf (x : AcqList) (l now wp : Nat) : List AcqEntry :=
  x.entries.zipIdx.map (fun (n, j) => ⟨l, n, now + 1 + 100 * j, some (wp + 2 * j)⟩)

/-- R320, R321, R323, R326. A trigger of an ANGLE or a TIME list reserves the run's bytes at the write pointer and makes every entry
pending, each 100 cycles after the one before; the ANGLE list goes on to its next angle, the TIME list to its next time. No sample
changes yet. -/
def Clauses.AcquisitionTriggers : Prop :=
  ∀ (dt : Nat) (l : Fin 32) (s : State), steady dt s = true → TakesRun s l →
    let x := acqList s l
    let now := s.cyc + dt
    let wp := rd s (ACQ_WP_WP l)
    let n := x.entries.length
    let stores := fun (t : State) => t.acq.pend = s.acq.pend ++ runOf x l now wp ∧ rd t (ACQ_WP_WP l) = (wp + 2 * n) % x.bytes ∧
      rd t (ACQ_WP_RUNS l) = (rd s (ACQ_WP_RUNS l) + 1) % 4096 ∧ t.acq.sample = s.acq.sample
    spaceFits s l (2 * n) = true →
    (x.kind = 1 → x.next ≤ now → Runs (.acqTimeTrigger dt l) s (fun t => stores t ∧ (acqList t l).next = x.next + x.period ∧
      ∀ k, k ≠ l.val → acqList t k = acqList s k)) ∧
    (∀ at_ : Int, x.kind = 0 → acqLive s x = true → x.target = some at_ → triggerAt x at_ x.idx ≤ chainLinks (tick dt s) →
      chainLinks (tick dt s) < triggerAt x at_ (x.idx + 1) → x.idx + 1 < x.steps →
      Runs (.acqAngleTrigger dt l) s (fun t => stores t ∧ (acqList t l).idx = x.idx + 1 ∧ (acqList t l).target = some at_ ∧
        ∀ k, k ≠ l.val → acqList t k = acqList s k))

/-- R317, R325, R326. The code of a completed conversion is stored as two bytes, the low one first, at its entry's place, and no other
byte of the sample memory changes; that of an urgent conversion from the register is shown there. The internal reference is 2.5 V. -/
def Clauses.Conversions : Prop :=
  ∀ (dt vin vref start : Nat) (k : Fin 4) (s : State), steady dt s = true → 0 < dt → start + 100 ≤ s.cyc + dt →
    let x := convResult vin (if rd s ACQ_REF_SEL = 0 then 2500000 else vref)
    (∀ (e : AcqEntry) (a : Nat), convOf s k = some ⟨some e, start⟩ → e.addr = some a →
      Runs (.conversionDone dt k vin vref) s (fun t =>
        let p := (acqList s e.list).addr a
        let q := (acqList s e.list).addr (a + 1)
        (sampleByte t p).toNat = x % 256 ∧ (sampleByte t q).toNat = x / 256 % 256 ∧
          ∀ b, b ≠ p → b ≠ q → sampleByte t b = sampleByte s b)) ∧
    (∀ n : Nat, convOf s k = some ⟨none, start⟩ → urgentOf s k = some ⟨n, none⟩ → urgentBegun s k = none →
      Runs (.conversionDone dt k vin vref) s (fun t => rd t (ACQ_URG_RESULT k) = x ∧ isSet t (ACQ_URG_DONE k) = true ∧
        isSet t (ACQ_URG_GO k) = false ∧ urgentOf t k = none ∧ t.acq.sample = s.acq.sample ∧ OnlyRegs s t [ACQ_URG k]))

/-- R328. A knock window opens at A0 with room for its record reserved and its entry triggered; within it the entry triggers again
every `KPER` paces. When it closes, the record is stored: the sum of squares, the count of samples, the engine cycle, and the list
with its flags, each word with the low byte first; no other byte changes. -/
def Clauses.KnockWindows : Prop :=
  ∀ (dt : Nat) (l : Fin 32) (s : State), steady dt s = true →
    let x := acqList s l
    let now := s.cyc + dt
    let entry : AcqEntry := ⟨l, x.entries.headD 0, now + 1, none⟩
    (∀ at_ : Int, TakesRun s l → x.kind = 3 → x.target = some at_ → x.knock = none → acqLive s x = true →
      at_ ≤ chainLinks (tick dt s) → spaceFits s l 16 = true →
      Runs (.knockWindowOpen dt l) s (fun t => t.acq.pend = s.acq.pend ++ [entry] ∧ t.acq.sample = s.acq.sample ∧
        (acqList t l).knock = some { addr := some (rd s (ACQ_WP_WP l)), cycle := rd s SEQ_CYCLE_CYCLE, next := now + 100 * x.kper,
                                     close := at_ + x.width } ∧
          rd t (ACQ_WP_WP l) = (rd s (ACQ_WP_WP l) + 16) % x.bytes)) ∧
    (∀ k : Knock, TakesRun s l → x.kind = 3 → x.knock = some k → k.next ≤ now → chainLinks (tick dt s) < k.close →
      Runs (.knockTrigger dt l) s (fun t => t.acq.pend = s.acq.pend ++ [entry] ∧ t.acq.sample = s.acq.sample ∧
        (acqList t l).knock = some { k with next := k.next + 100 * x.kper } ∧ t.regs = s.regs)) ∧
    (∀ (k : Knock) (a : Nat), x.knock = some k → k.addr = some a → k.close ≤ chainLinks (tick dt s) → x.stopping = false →
      0 < x.length → Runs (.knockWindowClose dt l) s (fun t =>
        let words := [k.sum % 2 ^ 32, k.samples % 65536 * 65536 + k.sum / 2 ^ 32, k.cycle,
          l.val * 256 + k.saturated.toNat * 4 + k.lost.toNat * 2]
        (∀ i j, i < 4 → j < 4 → (sampleByte t (x.addr (a + 4 * i + j))).toNat = words.getD i 0 / 256 ^ j % 256) ∧
          (∀ b, (∀ i, i < 16 → b ≠ x.addr (a + i)) → sampleByte t b = sampleByte s b) ∧
            (acqList t l).knock = none ∧ (acqList t l).target = x.target.map (fun p : Int => p + turn) ∧ t.regs = s.regs))

/-- R320 to R328: triggered runs and knock windows. -/
def Obligations.AcquisitionRuns : Prop := Clauses.AcquisitionTriggers ∧ Clauses.KnockWindows

/-- R329, R330. The reference settles 2 ms after selecting the internal one, 0.5 ms after the external one while that lies within its
range, 0.1 ms after VDDA. The range of the external reference is shown, and one in use that leaves it is no longer settled. A new
selection, by PF0 or by command while no list runs and no urgent request pends, begins to settle; PF0's is else discarded and
flagged. -/
def Clauses.AcquisitionReference : Prop :=
  ∀ (dt : Nat) (s : State),
    (steady dt s = true → isSet s ACQ_REF_SETTLED = false → Tbl.get Domain.on s.power.domains 72 = .on →
      s.acq.refAt + (match rd s ACQ_REF_SEL with | 0 => 800000 | 1 => 200000 | _ => 40000) ≤ s.cyc + dt →
      (rd s ACQ_REF_SEL = 1 → s.acq.extOk = true) →
      Runs (.referenceSettled dt) s (fun t => isSet t ACQ_REF_SETTLED = true ∧ OnlyRegs s t [ACQ_REF] ∧ t.acq.sample = s.acq.sample)) ∧
    (∀ within : Bool, steady dt s = true → (rd s ACQ_REF_SEL ≠ 1 → Runs (.extRefRange dt within) s (fun t =>
        isSet t ACQ_REF_EXT_RANGE = !within ∧ t.acq = { s.acq with extOk := within } ∧ OnlyRegs s t [ACQ_REF])) ∧
      (rd s ACQ_REF_SEL = 1 → within = false → Runs (.extRefRange dt within) s (fun t => isSet t ACQ_REF_EXT_RANGE = true ∧
        isSet t ACQ_REF_SETTLED = false ∧ t.acq.refAt = s.cyc + dt ∧ t.acq.extOk = false))) ∧
    (∀ x : Word, steady dt s = true → 0 < dt → bits x 1 0 ≠ rd s ACQ_REF_SEL →
      (bits x 1 0 ≠ 3 → refBusy (tick dt s) = false → Runs (.acqRefWrite dt x) s (fun t => rd t ACQ_REF_SEL = bits x 1 0 ∧
        isSet t ACQ_REF_SETTLED = false ∧ t.acq.refAt = s.cyc + dt ∧ OnlyRegs s t [ACQ_REF])) ∧
      (refBusy (tick dt s) = true → Runs (.acqRefWrite dt x) s (fun t => isSet t ACQ_REF_CFG_REJ = true ∧ rd t ACQ_REF_SEL = rd s ACQ_REF_SEL ∧
        t.acq = s.acq ∧ OnlyRegs s t [ACQ_REF]))) ∧
    (∀ m : Msg, Accepted 0x0193 m s → (word m 0).toNat < 3 → (word m 0).toNat ≠ rd s ACQ_REF_SEL → refBusy s = false →
      Answers (.acqRefSet m) s 0x0193 m [] (fun u => rd u ACQ_REF_SEL = (word m 0).toNat ∧ isSet u ACQ_REF_SETTLED = false ∧
        u.acq.refAt = s.cyc ∧ OnlyRegs s u [ACQ_REF]))

/-- R325. An urgent request for an input of its converter, by PF0 or by command, waits for the conversion while the reference is
settled and the converter is powered. -/
def Clauses.UrgentRequests : Prop :=
  ∀ (s : State) (n k : Nat), n < 48 → k = convOfInput n → isSet s ACQ_REF_SETTLED = true → convPowered s k = true → urgentOf s k = none →
    (∀ (dt : Nat) (c : Fin 4) (x : Word), steady dt s = true → 0 < dt → c.val = k → bits x 31 31 = 1 → bits x 21 16 = n →
      Runs (.acqUrgGoWrite dt c x) s (fun t => isSet t (ACQ_URG_GO k) = true ∧ isSet t (ACQ_URG_DONE k) = false ∧
        isSet t (ACQ_URG_ERR k) = false ∧ rd t (ACQ_URG_INPUT k) = n ∧ urgentOf t k = some ⟨n, none⟩ ∧ OnlyRegs s t [ACQ_URG k])) ∧
    (∀ m : Msg, Accepted 0x0192 m s → (word m 0).toNat = n → Runs (.acqUrgent m) s (fun t => isSet t (ACQ_URG_GO k) = true ∧
      rd t (ACQ_URG_INPUT k) = n ∧ urgentOf t k = some ⟨n, some m⟩ ∧ t.out = s.out ∧ OnlyRegs s t [ACQ_URG k]))

/-- R317, R325, R326, R329, R330: conversions, urgent requests and the reference. -/
def Obligations.Converters : Prop := Clauses.Conversions ∧ Clauses.UrgentRequests ∧ Clauses.AcquisitionReference

/-- R318, R319, R339. `ACQ_LIST_PUT` of a TIME list that Table 11-3 does not refuse loads it with its pointers at 0. `ACQ_LIST_CTRL`
of the client that owns the list starts it, and stops a TIME or LINE list that runs. `ACQ_STATUS` of one list answers with the
registers of the block, of the monitors and of the list. -/
def Obligations.AcquisitionCommands : Prop :=
  ∀ (m : Msg) (s : State),
    (let l := bits (word m 0) 31 27
     let x := listOf m.client m
     Accepted 0x0190 m s → (acqList s l).owner = none → acqRunning s l = false → x.kind = 1 → badListWord x m = none →
       x.base + x.length ≤ 1024 → (∀ k, k < 32 → k ≠ l → acqLoaded s k = false) →
       Answers (.acqListPut m) s 0x0190 m [] (fun u => acqList u l = x ∧ rd u (ACQ_WP_WP l) = 0 ∧ rd u (ACQ_RP_RP l) = 0 ∧
         (∀ k, k ≠ l → acqList u k = acqList s k) ∧ OnlyRegs s u [ACQ_WP l, ACQ_RP l] ∧ u.acq.sample = s.acq.sample)) ∧
    (∀ l : Fin 32, (acqList s l).owner = some m.client →
      (Accepted 0x0191 m s → (word m 0).toNat = 2 ^ l.val → word m 1 = 0 → acqRunning s l = false → convPowered s (acqList s l).conv = true →
        Answers (.acqListCtrl m) s 0x0191 m [] (fun u => acqRunning u l = true ∧ (acqList u l).entries = (acqList s l).entries ∧
          (∀ k, k ≠ l.val → acqList u k = acqList s k) ∧ OnlyRegs s u [ACQ_RUN])) ∧
      (Accepted 0x0191 m s → word m 0 = 0 → (word m 1).toNat = 2 ^ l.val → acqRunning s l = true → (acqList s l).kind = 1 →
        Answers (.acqListCtrl m) s 0x0191 m [] (fun u => acqRunning u l = false ∧ (acqList u l).owner = some m.client ∧
          (∀ k, k ≠ l.val → acqList u k = acqList s k) ∧ OnlyRegs s u [ACQ_RUN])) ∧
      (Accepted 0x0196 m s → (word m 0).toNat = 2 ^ l.val → Answers (.acqStatus m) s 0x0196 m
        (([ACQ_REF, ACQ_RUN, ACQ_OVF] ++ (List.range 16).map MON_STAT ++ [ACQ_WP l, ACQ_RP l, ACQ_CNT l, ACQ_LMAX l]).map
          (fun o => wordNow s (globalFields o))) (fun u => u = s)))

/-- R332, R333. Beyond a threshold an enabled monitor's filter runs; when it has run for `FILTER` µs the violation is shown, counted and
told with F_0710; it clears 8 codes inside the window. -/
def Clauses.MonitorViolations : Prop :=
  ∀ (dt : Nat) (i : Fin 16) (q : BitVec 10) (s : State), steady dt s = true → 0 < dt → isSet s (MON_CTL_ENABLE i) = true →
    (q.toNat < rd s (MON_THR_LOW i) → (monAt s i).test = none → Runs (.monitorThresholdCrossing dt i q) s (fun t =>
      (monAt t i).low = some ((monAt s i).low.getD (s.cyc + dt)) ∧ t.regs = s.regs ∧ ∀ k, k ≠ i.val → monAt t k = monAt s k)) ∧
    (∀ (high : Bool) (since : Nat),
      let f := if high then MON_STAT_HIGH_VIOL i else MON_STAT_LOW_VIOL i
      (if high then (monAt s i).high else (monAt s i).low) = some since → isSet s f = false →
      since + max 1 (400 * rd s (MON_CTL_FILTER i)) ≤ s.cyc + dt → Runs (.monitorViolation dt i high) s (fun t =>
        isSet t f = true ∧ Detects t 0x0710 ∧
          rd t (MON_STAT_VIOLATIONS i) = min (MON_STAT_VIOLATIONS i).max (rd s (MON_STAT_VIOLATIONS i) + 1))) ∧
    (rd s (MON_THR_LOW i) + 8 ≤ q.toNat → q.toNat + 8 ≤ rd s (MON_THR_HIGH i) → Runs (.monitorRecover dt i q) s (fun t =>
      isSet t (MON_STAT_LOW_VIOL i) = false ∧ isSet t (MON_STAT_HIGH_VIOL i) = false ∧ (monAt t i).low = none ∧ (monAt t i).high = none ∧
        OnlyRegs s t [MON_STAT i, INTC_GRP (rd s (INTC_SRC_GROUP (354 + i)))]))

/-- Table 11-7: the outputs `lo` and `hi` that step `k`, counted from 0, expects of the pair under test, beside a pair that shows `g`. -/
def StepPasses (k : Nat) (g : Bool × Bool) (lo hi : Bool) : Prop :=
  (k % 4 = 0 → lo = false ∧ hi = false) ∧ (k % 4 = 1 → lo = true ∧ hi = true) ∧ (k % 4 = 2 → lo = !g.1 ∧ hi = !g.2) ∧
    (k % 4 = 3 → lo = g.1 ∧ hi = g.2)

/-- R334 to R338. The automatic test of a quiet monitor begins once a second and is skipped, and counted, where it is not quiet. A
step whose pair shows what Table 11-7 expects leads to the next and the eighth ends the test; one that does not ends it with its number
and F_0711. A step of a channel's comparators that fails latches an unpaired channel, cause 15, with F_0712. No command waits for the
tests. -/
def Clauses.MonitorTests : Prop :=
  ∀ (dt : Nat) (lo hi : Bool) (s : State), steady dt s = true → 0 < dt → s.acq.tests = [] →
    (∀ i : Fin 16, s.boot.swap = none → isSet s (MON_CTL_AUTO i) = true → (monAt s i).auto.elim 0 (fun t => t + secondCycles) ≤ s.cyc + dt →
      (monQuiet s i = true → (monAt s i).test = none → Runs (.monitorAutoTest dt i) s (fun t => isSet t (MON_STAT_TESTING i) = true ∧
        (monAt t i).test = some (0, s.cyc + dt, isSet s (MON_STAT_EXCHANGED i)) ∧ OnlyRegs s t [MON_STAT i])) ∧
      (monQuiet s i = false → Runs (.monitorAutoTest dt i) s (fun t => (monAt t i).test = (monAt s i).test ∧
        rd t (MON_STAT_AUTO_SKIPS i) = min (MON_STAT_AUTO_SKIPS i).max (rd s (MON_STAT_AUTO_SKIPS i) + 1) ∧ OnlyRegs s t [MON_STAT i]))) ∧
    (∀ (j : Fin 52) (k since : Nat) (was : Bool), j.val < 16 → (monAt s j).test = some (k, since, was) → since + 2000 ≤ s.cyc + dt →
      let passes := StepPasses k ((monAt s j).low.isNone, (monAt s j).high.isSome) lo hi
      (k < 7 → passes → Runs (.monitorTestStep dt j lo hi) s (fun t => (monAt t j).test = some (k + 1, s.cyc + dt, was) ∧
        isSet t (MON_STAT_EXCHANGED j) = (isSet s (MON_STAT_EXCHANGED j) || decide (k = 3)))) ∧
      (k = 7 → passes → Runs (.monitorTestStep dt j lo hi) s (fun t => (monAt t j).test = none ∧ isSet t (MON_STAT_TESTING j) = false ∧
        isSet t (MON_STAT_EXCHANGED j) = false ∧ t.faults = s.faults)) ∧
      (k < 8 → ¬passes → Runs (.monitorTestStep dt j lo hi) s (fun t => (monAt t j).test = none ∧ isSet t (MON_STAT_TEST_FAIL j) = true ∧
        rd t (MON_STAT_FAIL_STEP j) = k + 1 ∧ Detects t 0x0711))) ∧
    (∀ (j : Fin 52) (c k since : Nat), j.val = 16 + c → c < 28 → paired s c = false → (chan s c).selfTest = true →
      Tbl.get (0, 0) s.acq.chanTests c = (k, since) → since + 2000 ≤ s.cyc + dt →
      let passes := StepPasses k (false, false) lo hi
      (k < 2 → passes → Runs (.monitorTestStep dt j lo hi) s (fun t => Tbl.get (0, 0) t.acq.chanTests c = (k + 1, s.cyc + dt) ∧
        t.regs = s.regs)) ∧
      (k < 3 → ¬passes → Runs (.monitorTestStep dt j lo hi) s (fun t => isSet t (PRT_STAT_LATCH c) = true ∧
        rd t (PRT_STAT_CAUSE c) = 15 ∧ Detects t 0x0712 ∧ (chan t c).selfTest = false)))

/-- R332, R334, R336, R522. `MON_CONFIG` of sound thresholds writes them and the monitor's control; `MON_SELFTEST` of one quiet monitor
begins its test and waits for it. -/
def Clauses.MonitorCommands : Prop :=
  ∀ (m : Msg) (i : Fin 16) (s : State),
    (Accepted 0x0194 m s → reservedBad m [0x0000000F, 0x03FF03FF, 0xC000FF00] = none → (word m 0).toNat = i.val → monThrOk (word m 1) = true →
      Answers (.monConfig m) s 0x0194 m [] (fun u => rd u (MON_THR_LOW i) = bits (word m 1) 9 0 ∧ rd u (MON_THR_HIGH i) = bits (word m 1) 25 16 ∧
        Holds u (MON_CTL i) (word m 2) ∧ OnlyRegs s u [MON_THR i, MON_CTL i] ∧ u.acq = s.acq)) ∧
    (Accepted 0x0195 m s → reservedBad m [0x0000FFFF, 0xFFFFFFFF, 0x0000000F] = none → (word m 0).toNat = 2 ^ i.val → word m 1 = 0 → word m 2 = 0 →
      monQuiet s i = true → (monAt s i).test = none → Runs (.monSelftest m) s (fun t => t.acq.tests = s.acq.tests ++ [(m, s.cyc, [i.val], [])] ∧
        isSet t (MON_STAT_TESTING i) = true ∧ (monAt t i).test = some (0, s.cyc, isSet s (MON_STAT_EXCHANGED i)) ∧
          OnlyRegs s t [MON_STAT i] ∧ t.out = s.out))

/-- R332 to R338, R522: monitor violations, self-tests and their commands. -/
def Obligations.Monitors : Prop := Clauses.MonitorViolations ∧ Clauses.MonitorTests ∧ Clauses.MonitorCommands

/-! ### Timers, pin engines and position interfaces (timers R345 to R366) -/

/-- R347 to R350. A match shows its flag, leaves its action on its pin to the next cycle, and with `AUTO_ADD` moves `CMP` on by `INTERVAL`.
In the next cycle the actions fall on the pins that are outputs, CLEAR over SET over TOGGLE. A change that the capture filter passes
counts when it is a qualifying edge, until the `CAP_PRE` + 1st, which captures the count; a capture before the last was cleared is an
overrun; a change that the filter does not pass is none. PF0's word starts the stopped timers that it names and stops the running ones,
here ones that have done nothing in this cycle, with the count of the cycle before; a bit of timers 28 to 31 is rejected. -/
def Obligations.Timers : Prop :=
  ∀ (dt : Nat) (s : State),
    let now := s.cyc + dt
    (steady dt s = true → 0 < dt →
    (∀ n : Fin 32, matchDue (tick dt s) n = true → Runs (.timerMatch dt n) s (fun t =>
      isSet t (TMR_STAT_MATCH n) = true ∧ (timerAt t n).matched = some now ∧ rd t (TMR_COUNT_COUNT n) = rd s (TMR_COUNT_COUNT n) ∧
        (isSet s (TMR_CFG_AUTO_ADD n) = false → rd t (TMR_CMP_CMP n) = rd s (TMR_CMP_CMP n)) ∧
        (isSet s (TMR_CFG_AUTO_ADD n) = true →
          rd t (TMR_CMP_CMP n) = (rd s (TMR_CMP_CMP n) + rd s (TMR_INTERVAL_INTERVAL n)) % 2 ^ 32) ∧
        (∀ k, k ≠ n.val → timerAt t k = timerAt s k) ∧ t.periph.tio = s.periph.tio ∧
        (let act := rd s (TMR_CFG_OUT_ACT n)
         (act = 0 → t.periph.tioActs = []) ∧ (act ≠ 0 → t.periph.tioActs = [⟨n, rd s (TMR_CFG_OUT_PIN n), act⟩])))) ∧
    (∀ (n : Fin 32) (rising : Bool) (c : Nat), domainOn s (54 + n.val / 4) = true →
      let x := timerAt s n
      let passes := ∀ a level, x.passed = some (a, level) → level ≠ rising ∧ a + rd s (TMR_CLK_FILTER_N n) ≤ now
      (¬passes → Runs (.timerCapture dt n rising) s (fun t => ∀ k, timerAt t k = timerAt s k)) ∧
      (passes → x.start = some c → c < now → edgeKind (rd s (TMR_CFG_CAP_EDGE n)) rising = true → rd s (TMR_CFG_CLK n) = 0 →
        (x.edges < rd s (TMR_CFG_CAP_PRE n) → Runs (.timerCapture dt n rising) s (fun t =>
          (timerAt t n).edges = x.edges + 1 ∧ (timerAt t n).passed = some (now, rising) ∧ (timerAt t n).start = some c ∧
            rd t (TMR_CAP_CAP n) = rd s (TMR_CAP_CAP n))) ∧
        (rd s (TMR_CFG_CAP_PRE n) ≤ x.edges → Runs (.timerCapture dt n rising) s (fun t =>
          (timerAt t n).edges = 0 ∧ (timerAt t n).passed = some (now, rising) ∧ rd t (TMR_CAP_CAP n) = timerCount s n now ∧
            isSet t (TMR_STAT_CAP n) = true ∧ isSet t (TMR_STAT_OVR n) = (isSet s (TMR_STAT_OVR n) || isSet s (TMR_STAT_CAP n)))))) ∧
    (∀ x : Word, Runs (.tmrStartWrite dt x) s (fun t =>
      (∀ n, n < 28 → timerAt t n =
        if bitOf x.toNat n && !timerRuns s n && domainOn s (54 + n / 4) then { start := some now, passed := (timerAt s n).passed }
        else timerAt s n) ∧
      (∀ n, n < 32 → bitOf (rd t TMR_START_START) n = timerRuns t n) ∧ (∀ n, 28 ≤ n → timerAt t n = timerAt s n) ∧
      isSet t TMR_STATUS_CFG_REJ = (isSet s TMR_STATUS_CFG_REJ || decide (bits x 31 28 ≠ 0)))) ∧
    (∀ x : Word, (∀ n c e, (timerAt s n).acted = some (c, e) → c < now) → Runs (.tmrStopWrite dt x) s (fun t =>
      (∀ n, n < 28 →
        if bitOf x.toNat n && timerRuns s n then (timerAt t n).start = none ∧ rd t (TMR_COUNT_COUNT n) = timerCount s n (now - 1) % 2 ^ 32
        else timerAt t n = timerAt s n ∧ rd t (TMR_COUNT_COUNT n) = rd s (TMR_COUNT_COUNT n)) ∧
      (∀ n, 28 ≤ n → timerAt t n = timerAt s n)))) ∧
    (awake s = true → sharePending 1 s = false → Runs (.tmrStartWrite 1 0) s (fun t => t.periph.tioActs = [] ∧
      ∀ p, p < 8 →
        let on := fun (a : Nat) => ∃ x ∈ s.periph.tioActs, x.pin = p ∧ x.act = a
        let was := bitOf s.periph.tio p
        let is := bitOf t.periph.tio p
        (bitOf (rd s TMR_PIN_DIR) p = false → is = was) ∧
        (bitOf (rd s TMR_PIN_DIR) p = true → (on 2 → is = false) ∧ (¬on 2 → on 1 → is = true) ∧
          (¬on 2 → ¬on 1 → on 3 → is = !was) ∧ (¬on 2 → ¬on 1 → ¬on 3 → is = was))))

/-- Pin engine `n` takes a tick in the cycle `now`, at the start of a word. -/
def Ticks (s : State) (n now : Nat) : Prop :=
  peRuns s n = true ∧ (peAt s n).next ≤ 256 * now + 255 ∧ (peAt s n).held = false

/-- R351 to R356. PF0's word starts a stopped engine at `ENTRY` with its counter and shift register clear, and stops a running one, whose
pins stay. The transmit FIFO takes a word while it has room and else flags it; a read of the receive FIFO takes its head. A tick runs
one word: one that fetches takes the head of the transmit FIFO, one that deposits appends the shift register, and the counter goes on
or to the word's target; a fetch from an empty FIFO stalls, and an illegal word stops the engine with F_0720. -/
def Obligations.PinEngines : Prop :=
  ∀ (dt : Nat) (n : Fin 8) (s : State), steady dt s = true → 0 < dt → peOn s n = true →
    let now := s.cyc + dt
    let others := fun (t : State) => ∀ k, k ≠ n.val → peAt t k = peAt s k
    (∀ x : Word,
      (isSet s (PE_CTRL_RUN n) = false → bitOf x.toNat 0 = true → Runs (.peRunWrite dt n x) s (fun t =>
        isSet t (PE_CTRL_RUN n) = true ∧ rd t (PE_CTRL_ENTRY n) = bits x 20 16 ∧ rd t (PE_STAT_PC n) = bits x 20 16 ∧
          rd t (PE_CNT_CNT n) = 0 ∧ rd t (PE_SR_SR n) = 0 ∧ (peAt t n).next = 256 * (now + 1) ∧ (peAt t n).tx = (peAt s n).tx ∧
            (peAt t n).rx = (peAt s n).rx ∧ (peAt t n).pins = rd s (PE_CFG_LEVEL_RESET n) ∧ others t)) ∧
      (isSet s (PE_CTRL_RUN n) = true → bitOf x.toNat 0 = false → Runs (.peRunWrite dt n x) s (fun t =>
        isSet t (PE_CTRL_RUN n) = false ∧ (peAt t n).pins = (peAt s n).pins ∧ rd t (PE_STAT_PIN_DIR n) = rd s (PE_STAT_PIN_DIR n) ∧
          others t)) ∧
      ((peAt s n).tx.length < 8 → Runs (.peTxWrite dt n x) s (fun t =>
        peAt t n = { peAt s n with tx := (peAt s n).tx ++ [x] } ∧ others t)) ∧
      (8 ≤ (peAt s n).tx.length → Runs (.peTxWrite dt n x) s (fun t => isSet t (PE_STAT_TX_OVER n) = true ∧ t.periph = s.periph))) ∧
    (∀ (w : Word) (rest : List Word), (peAt s n).rx = w :: rest → (peAt s n).pushed ≠ some now → Runs (.peRxRead dt n) s (fun t =>
      peAt t n = { peAt s n with rx := rest } ∧ t.out = .readData 0 (PE_RX n) w :: s.out ∧ others t)) ∧
    ((peAt s n).rx = [] → Runs (.peRxRead dt n) s (fun t => t.periph = s.periph ∧ t.out = .readData 0 (PE_RX n) 0 :: s.out ∧
      isSet t (PE_STAT_RX_UNDER n) = true)) ∧
    (∀ pins : BitVec 4, Ticks s n now →
      let w := peWord s n
      let goes := fun (t : State) => (peAt t n).next = (peAt s n).next + rd s (PE_DIV_DIV n) ∧ others t ∧
        rd t (PE_STAT_PC n) = if bits w 17 16 = 1 then bits w 4 0 else (rd s (PE_STAT_PC n) + 1) % 32
      (peIllegal s n w = true → Runs (.pinEngineTick dt n pins) s (fun t => isSet t (PE_CTRL_RUN n) = false ∧
        isSet t (PE_STAT_FAULT n) = true ∧ Detects t 0x0720)) ∧
      (peIllegal s n w = false → bits w 23 22 = 0 → bits w 19 18 = 0 → bits w 17 16 < 2 → bits w 15 12 = 0 →
        (∀ (v : Word) (rest : List Word), bits w 21 20 = 1 → (peAt s n).tx = v :: rest → Runs (.pinEngineTick dt n pins) s (fun t =>
          rd t (PE_SR_SR n) = v.toNat ∧ (peAt t n).tx = rest ∧ (peAt t n).rx = (peAt s n).rx ∧ goes t)) ∧
        (bits w 21 20 = 1 → (peAt s n).tx = [] → Runs (.pinEngineTick dt n pins) s (fun t =>
          isSet t (PE_STAT_STALLED n) = true ∧ rd t (PE_STAT_PC n) = rd s (PE_STAT_PC n) ∧ (peAt t n).pins = (peAt s n).pins)) ∧
        (bits w 21 20 = 2 → (peAt s n).rx.length < 8 → Runs (.pinEngineTick dt n pins) s (fun t =>
          (peAt t n).rx = (peAt s n).rx ++ [BitVec.ofNat 32 (rd s (PE_SR_SR n))] ∧ (peAt t n).tx = (peAt s n).tx ∧ goes t))))

/-- Interface `i` has moved its counts by `d` steps from the state `s`, in which they stood alike. -/
def Moved (s t : State) (i : Nat) (d : Int) : Prop :=
  let k := if isSet s (POS_CFG_INVERT i) then -d else d
  rd t (POS_RAW_R i) = ofSigned 32 (rd s (POS_RAW_R i) + k) ∧ rd t (POS_COUNT_C i) = ofSigned 32 (rd s (POS_RAW_R i) + k) ∧
    (k ≠ 0 → isSet t (POS_STAT_DIR i) = decide (k < 0))

/-- R358 to R364, R366. An interface without hysteresis or compare spacing, its two counts alike, whose filters pass what changes: a step
of the quadrature or Hall sequence moves both by one, and a change of two places is a count error with F_0721 once per second; changes
that come too soon for the filters are none; an index captures the count and its time; a SENT frame or a finished SSI frame moves both by
the difference from the value before, and a faulty one counts as an error; an SSI frame starts on an idle line, and its word holds the
data line in the middle of the high half of each clock period, the first bit highest; a source without a valid frame in its time is lost,
with F_0722. PF0's word presets both counts. -/
def Clauses.PositionCounts : Prop :=
  ∀ (dt : Nat) (i : Fin 6) (s : State), steady dt s = true → 0 < dt → posOn s i = true →
    let now := s.cyc + dt
    let p := posAt s i
    let free := fun (last : Option Nat) => ∀ c, last = some c → c + rd s (POS_CFG_FILTER_N i) ≤ now
    let errs := fun (t : State) => isSet t (POS_STAT_ERR i) = true ∧
      rd t (POS_CNT_ERRORS i) = min (POS_CNT_ERRORS i).max (rd s (POS_CNT_ERRORS i) + 1) ∧
        rd t (POS_RAW_R i) = rd s (POS_RAW_R i) ∧ rd t (POS_COUNT_C i) = rd s (POS_COUNT_C i)
    (isSet s (POS_CFG_HYST i) = false → rd s (POS_STEP_STEP i) = 0 → rd s (POS_RAW_R i) = rd s (POS_COUNT_C i) →
      rd s (POS_RAW_R i) < 2 ^ 32 →
      (∀ (a b z : Bool) (k : Int), free p.aAt → free p.bAt → free p.zAt →
        let takes := fun (t : State) => Moved s t i k ∧ (posAt t i).a = a ∧ (posAt t i).b = b ∧ (posAt t i).z = z
        (posMode s i 1 = true → quadStep p.a p.b a b = some k → Runs (.positionInputChange dt i a b z) s takes) ∧
        (posMode s i 2 = true → hallStep (hallPlace p.a p.b p.z) (hallPlace a b z) = some k →
          Runs (.positionInputChange dt i a b z) s takes)) ∧
      (∀ (pulses : List Nat) (st v q : Nat),
        let w := 4 * rd s (POS_PROTO_LEN i)
        let d := signed w (v + 2 ^ w - q % 2 ^ w)
        posMode s i 3 = true → sentDecode s i pulses = some (st, v) → p.prev = some q → d.natAbs ≤ 2 ^ (w - 2) →
        Runs (.sentFrame dt i pulses) s (fun t => Moved s t i d ∧ (posAt t i).prev = some v ∧ (posAt t i).validAt = now ∧
          isSet t (POS_STAT_LOST i) = false)) ∧
      (∀ (data : List (Nat × Bool)) (c q : Nat),
        let w := rd s (POS_PROTO_LEN i) + 1
        let h := rd s (POS_PROTO_TICK_HALF i)
        let x := ssiWord s i data
        let d := signed w (x + 2 ^ w - q % 2 ^ w)
        (∀ k, k < w → bitOf x (w - 1 - k) = ssiLevel data (h * (2 * k + 1) + h / 2)) ∧
        (posMode s i 4 = true → p.frame = some c → c + ssiLength s i ≤ now → isSet s (POS_PROTO_CRC_GRAY i) = false → w ≤ 32 →
          p.prev = some q → d.natAbs ≤ 2 ^ (w - 2) →
          Runs (.ssiFrameDone dt i data) s (fun t => Moved s t i d ∧ (posAt t i).prev = some x ∧ (posAt t i).frame = none ∧
            isSet t (POS_STAT_LOST i) = false)))) ∧
    (∀ a b z : Bool, ¬free p.aAt → ¬free p.bAt → ¬free p.zAt → Runs (.positionInputChange dt i a b z) s (fun t =>
      posAt t i = p ∧ t.regs = s.regs)) ∧
    (∀ a b z : Bool, free p.aAt → free p.bAt → posMode s i 1 = true → quadStep p.a p.b a b = none →
      Runs (.positionInputChange dt i a b z) s (fun t => errs t ∧ (p.f0721At = none → Detects t 0x0721))) ∧
    (posMode s i 1 = true → p.z = false → free p.zAt → Runs (.positionIndex dt i) s (fun t =>
      (posAt t i).z = true ∧ rd t (POS_COUNT_C i) = rd s (POS_COUNT_C i) ∧
        (isSet s (POS_CFG_IDX_QUAL i) = false ∨ (p.a = true ∧ p.b = true) → rd t (POS_IDX_IDX_POS i) = rd s (POS_COUNT_C i) % 2 ^ 32 ∧
          rd t (POS_IDX_TIME_IDX_TIME i) = now % 2 ^ 32 ∧ isSet t (POS_STAT_IDX i) = true) ∧
        (isSet s (POS_CFG_IDX_QUAL i) = true → (p.a && p.b) = false → t.regs = s.regs))) ∧
    (∀ pulses : List Nat, posMode s i 3 = true → sentDecode s i pulses = none → Runs (.sentFrame dt i pulses) s errs) ∧
    (posMode s i 4 = true → pinsDriven s = true → p.frame = none → p.nextAt ≤ now →
      Runs (.ssiFrameStart dt i true) s (fun t => (posAt t i).frame = some now ∧ (posAt t i).fails = 0 ∧ t.regs = s.regs) ∧
      Runs (.ssiFrameStart dt i false) s (fun t => errs t ∧ (posAt t i).frame = none ∧ (posAt t i).fails = p.fails + 1)) ∧
    (posMode s i 3 = true → p.validAt + sentLimit s i ≤ now → isSet s (POS_STAT_LOST i) = false →
      Runs (.positionSourceLost dt i) s (fun t => isSet t (POS_STAT_LOST i) = true ∧ Detects t 0x0722)) ∧
    (∀ x : Word, Runs (.posCountWrite dt i x) s (fun t => rd t (POS_RAW_R i) = x.toNat ∧ rd t (POS_COUNT_C i) = x.toNat))

/-- R359, R365. A quadrature step of one place, the count without hysteresis, that brings the count to `POS_CMP` or beyond it in the
direction of `POS_STEP`, is a hit for every value that it has reached: `HITS` grows by their number, `POS_CMP` moves past the count, and the
time is kept; several at once set `MULTI`. A step that does not reach `POS_CMP` leaves all of that. -/
def Clauses.PositionCompares : Prop :=
  ∀ (dt : Nat) (i : Fin 6) (a b z up : Bool) (s : State), steady dt s = true → 0 < dt → posMode s i 1 = true →
    isSet s (POS_CFG_HYST i) = false → rd s (POS_RAW_R i) = rd s (POS_COUNT_C i) → rd s (POS_RAW_R i) < 2 ^ 32 →
    (∀ c, ((posAt s i).aAt = some c ∨ (posAt s i).bAt = some c ∨ (posAt s i).zAt = some c) → c + rd s (POS_CFG_FILTER_N i) ≤ s.cyc + dt) →
    quadStep (posAt s i).a (posAt s i).b a b = some (if up then 1 else -1) →
    let k : Int := if up = isSet s (POS_CFG_INVERT i) then -1 else 1
    let count := ofSigned 32 (rd s (POS_RAW_R i) + k)
    let step := signed 32 (rd s (POS_STEP_STEP i))
    let d := signed 32 (count + 2 ^ 32 - rd s (POS_CMP_CMP_POS i))
    let reached := 0 < step ∧ 0 ≤ d ∨ step < 0 ∧ d ≤ 0
    let n := d.natAbs / step.natAbs + 1
    (reached → step ≠ -2 ^ 31 → Runs (.positionInputChange dt i a b z) s (fun t => rd t (POS_COUNT_C i) = count ∧
      rd t (POS_CMP_CMP_POS i) = ofSigned 32 (rd s (POS_CMP_CMP_POS i) + n * step) ∧ isSet t (POS_STAT_CMP i) = true ∧
        rd t (POS_CMP_TIME_CMP_TIME i) = (s.cyc + dt) % 2 ^ 32 ∧
          rd t (POS_STAT_HITS i) = min (POS_STAT_HITS i).max (rd s (POS_STAT_HITS i) + n) ∧ (1 < n → isSet t (POS_STAT_MULTI i) = true))) ∧
    (¬reached → Runs (.positionInputChange dt i a b z) s (fun t => rd t (POS_COUNT_C i) = count ∧
      rd t (POS_CMP_CMP_POS i) = rd s (POS_CMP_CMP_POS i) ∧ isSet t (POS_STAT_CMP i) = isSet s (POS_STAT_CMP i) ∧
        rd t (POS_STAT_HITS i) = rd s (POS_STAT_HITS i)))

/-- R358 to R366: the counts of the position interfaces, and their compares. -/
def Obligations.Positions : Prop := Clauses.PositionCounts ∧ Clauses.PositionCompares

/-! ### The host link (host link R369 to R399) -/

/-- Command `c` is answered with `status` and `detail`, as the request `m` of `opcode`, from a state that has the property `P`. -/
def Refuses (c : Instr) (s : State) (opcode : Nat) (m : Msg) (status detail : Nat) (P : State → Prop) : Prop :=
  ∃ u, exec c s = .next (respond opcode m status detail [] u) ∧ P u

/-- Every power domain is on, and PF0 votes for all of them. -/
def AllOn (s : State) : Prop := s.power.domains = [] ∧ rd s PWR_BASE_BASE = 0x1FFFF

/-- Opcode and message of the requests of client `c`. -/
def requestsOf (s : State) (c : Nat) : List (Nat × Msg) := (client s c).requests.map (fun r => (r.opcode, r.msg))

/-- R372 to R375, R381, R448. A doorbell below the ring's size becomes the producer index and renews the lease, and one at or above it
sets `RING_ERR`. A halted ring resumes at an index from head to tail. The host's consumer indices are taken as written. A rise of
`ENABLE` with sound sizes starts the rings at index 0 and phase 1; other writes of an enabled ring's configuration are rejected. `KICK`
renews the lease. PF0's votes and a client's keep the domains. Returned entries let a response go out that waited for them. The writes of a
virtual function that does not answer change nothing (R369). -/
def Clauses.RingRegisters : Prop :=
  ∀ (dt : Nat) (c : Fin 256) (x : Word) (s : State), steady dt s = true → 0 < dt →
    let now := s.cyc + dt
    let v := bits x 11 0
    (fnAnswers s c = false → exec (.doorbell dt c x) s = .next (tick dt s)) ∧
    (fnAnswers s c = true →
    (v < reqSize s c → Runs (.doorbell dt c x) s (fun t =>
      rd t (CLI_REQ_TAIL_TAIL c) = v ∧ (client t c).alive = now ∧ rd t PWR_STATUS_STATE ≠ 1 ∧ t.out = s.out)) ∧
    (reqSize s c ≤ v → Runs (.doorbell dt c x) s (fun t =>
      isSet t (CLI_HL_STATUS_RING_ERR c) = true ∧ rd t (CLI_REQ_TAIL_TAIL c) = rd s (CLI_REQ_TAIL_TAIL c))) ∧
    (let size := reqSize s c
     let h := rd s (CLI_REQ_HEAD_HEAD c)
     isSet s (CLI_HL_STATUS_REQ_HALT c) = true →
      (v < size → (v + size - h) % size ≤ (rd s (CLI_REQ_TAIL_TAIL c) + size - h) % size → Runs (.cliReqResumeWrite dt c x) s (fun t =>
        isSet t (CLI_HL_STATUS_REQ_HALT c) = false ∧ rd t (CLI_REQ_HEAD_HEAD c) = v)) ∧
      (size ≤ v → Runs (.cliReqResumeWrite dt c x) s (fun t => isSet t (CLI_HL_STATUS_RING_ERR c) = true ∧
        isSet t (CLI_HL_STATUS_REQ_HALT c) = true ∧ rd t (CLI_REQ_HEAD_HEAD c) = h))) ∧
    ((client s c).owed = [] → Runs (.cliRspHeadWrite dt c x) s (fun t =>
      rd t (CLI_RSP_HEAD_HEAD c) = v ∧ OnlyRegs s t [CLI_RSP_HEAD c] ∧ t.out = s.out)) ∧
    (∀ (n : Nat) (i : Bool) (m : ModMsg), (client s c).owed = [(n, i, m)] → n ≤ ringFree (rspSize s c) (rd s (CLI_RSP_TAIL_TAIL c)) v →
      Runs (.cliRspHeadWrite dt c x) s (fun t => (client t c).owed = [] ∧
        .ring c .response (rd s (CLI_RSP_TAIL_TAIL c)) (isSet s (CLI_RSP_TAIL_PHASE c)) (mpSat s) i m ∈ t.out)) ∧
    Runs (.cliFltHeadWrite dt c x) s (fun t => rd t (CLI_FLT_HEAD_HEAD c) = v ∧ OnlyRegs s t [CLI_FLT_HEAD c] ∧ t.out = s.out) ∧
    (isSet s (CLI_RING_CFG_ENABLE c) = false → ringCfgOk x = true → bitOf x.toNat 31 = true →
      Runs (.cliRingCfgWrite dt c x) s (fun t => isSet t (CLI_RING_CFG_ENABLE c) = true ∧ reqSize t c = 2 ^ bits x 3 0 ∧
        rd t (CLI_REQ_TAIL_TAIL c) = 0 ∧ rd t (CLI_REQ_HEAD_HEAD c) = 0 ∧ rd t (CLI_RSP_TAIL_TAIL c) = 0 ∧
          rd t (CLI_RSP_HEAD_HEAD c) = 0 ∧ rd t (CLI_FLT_TAIL_TAIL c) = 0 ∧ rd t (CLI_FLT_HEAD_HEAD c) = 0 ∧
            isSet t (CLI_RSP_TAIL_PHASE c) = true ∧ isSet t (CLI_FLT_TAIL_PHASE c) = true)) ∧
    (isSet s (CLI_RING_CFG_ENABLE c) = true → bitOf x.toNat 31 = true → Runs (.cliRingCfgWrite dt c x) s (fun t =>
      isSet t (CLI_HL_STATUS_CFG_REJ c) = true ∧ OnlyRegs s t [CLI_HL_STATUS c])) ∧
    Runs (.cliKeepaliveWrite dt c x) s (fun t => t.regs = s.regs ∧
      (client t c).alive = if bitOf x.toNat 0 then now else (client s c).alive) ∧
    (AllOn s → 0x31 ≤ versionOf s c → Runs (.cliPwrVoteWrite dt c x) s (fun t => rd t (CLI_PWR_VOTE_VOTE c) = bits x 16 0 ∧
      OnlyRegs s t [CLI_PWR_VOTE c] ∧ t.power = s.power)))

/-- R379 to R385, R393. A read error halts the ring with `RING_ERR` and F_0800, a damaged header halts it with F_0201 and the entry consumed, and a
sound message whose path has room joins the client's requests, its entries consumed. A request buffer that passes its pairs becomes the
payload, and one that fails them is answered with F_0201; one that ended in an error is answered BUFFER_ERROR. The oldest held notice goes into response ring space left over. -/
def Clauses.RingRequests : Prop :=
  ∀ (dt : Nat) (c : Fin 256) (s : State), steady dt s = true → 0 < dt →
    (ringReadable s c = true →
      Runs (.requestRead dt c none) s (fun t => isSet t (CLI_HL_STATUS_REQ_HALT c) = true ∧ isSet t (CLI_HL_STATUS_RING_ERR c) = true ∧
        Detects t 0x0800 ∧ requestsOf t c = requestsOf s c ∧ rd t (CLI_REQ_HEAD_HEAD c) = rd s (CLI_REQ_HEAD_HEAD c)) ∧
      (∀ ws : List Word,
        let h0 := ws.getD 0 0
        let h1 := ws.getD 1 0
        let len := bits h0 15 0
        let e := (16 + len + 63) / 64
        let size := reqSize s c
        let v := (pairedValues ((ws.drop 4).take (len / 4))).getD []
        (ws.getD 3 0 ≠ ~~~h0 → Runs (.requestRead dt c (some ws)) s (fun t => isSet t (CLI_HL_STATUS_REQ_HALT c) = true ∧
          rd t (CLI_REQ_HEAD_HEAD c) = (rd s (CLI_REQ_HEAD_HEAD c) + 1) % size % 4096 ∧ requestsOf t c = requestsOf s c ∧
            Detects t 0x0201)) ∧
        (ws.getD 3 0 = ~~~h0 → len % 8 = 0 → len ≤ 1008 → 2 * e ≤ size → 16 * e ≤ ws.length →
          e ≤ (rd s (CLI_REQ_TAIL_TAIL c) + size - rd s (CLI_REQ_HEAD_HEAD c)) % size →
          bits h1 31 24 = c → bits h1 7 0 = 0 → (pairedValues ((ws.drop 4).take (len / 4))).isSome = true →
          (opRow (bits h0 31 16)).isSome = true → sessionOpen s c = true → firmwareOut s c < 16 → readsFirmware s = true →
          rspReserved s c + rspEntries s c (bits h0 31 16) v ≤ rspFree s c →
          Runs (.requestRead dt c (some ws)) s (fun t => rd t (CLI_REQ_HEAD_HEAD c) = (rd s (CLI_REQ_HEAD_HEAD c) + e) % size % 4096 ∧
            requestsOf t c = requestsOf s c ++ [(bits h0 31 16, ⟨c, bits h1 23 8, false, v, 0, 0⟩)])))) ∧
    (∀ (seq : BitVec 16) (r : Request), (client s c).requests.find? (awaitsFetch seq.toNat) = some r →
      (∀ ws v : List Word, rawBuffer r.opcode = false → pairedValues ws = some v → Runs (.indirectFetchDone dt c seq (some ws)) s (fun t =>
        requestsOf t c = (fillFirst seq.toNat (fun r => { r with fetched := true, msg := { r.msg with words := v } })
          (client s c).requests).map (fun r => (r.opcode, r.msg)) ∧ t.regs = s.regs)) ∧
      (∀ ws : List Word, rawBuffer r.opcode = false → pairedValues ws = none →
        Refuses (.indirectFetchDone dt c seq (some ws)) s r.opcode r.msg 0x01 1 (fun u => Detects u 0x0201)) ∧
      Refuses (.indirectFetchDone dt c seq none) s r.opcode r.msg 0x14 0 (fun u => u = tick dt s)) ∧
    (canBindingOf s c = none → isSet s (CLI_RING_CFG_ENABLE c) = true →
      (∀ (m : ModMsg) (rest : List ModMsg), (client s c).held = m :: rest → entries m.words.length + rspReserved s c ≤ rspFree s c →
        Runs (.heldNoticeWrite dt c) s (fun t => (client t c).held = rest ∧
          .ring c .response (rd s (CLI_RSP_TAIL_TAIL c)) (isSet s (CLI_RSP_TAIL_PHASE c)) (mpSat s) false m ∈ t.out ∧
          rd t (CLI_RSP_TAIL_TAIL c) = (rd s (CLI_RSP_TAIL_TAIL c) + entries m.words.length) % rspSize s c % 4096)) ∧
      ((client s c).held = [] → (client s c).lost ≠ 0 → 1 + rspReserved s c ≤ rspFree s c → Runs (.heldNoticeWrite dt c) s (fun t =>
        (client t c).lost = 0 ∧ rd t (CLI_RSP_TAIL_TAIL c) = (rd s (CLI_RSP_TAIL_TAIL c) + 1) % rspSize s c % 4096)))

/-- R372 to R385, R393, R448: the rings, their registers and the requests read from them. -/
def Obligations.Rings : Prop := Clauses.RingRegisters ∧ Clauses.RingRequests

/-- R387, R390, R399, R524. `HELLO` opens a session at the highest common version with the features it carries. `ECHO` returns its
words. `GOODBYE`, and a lease that has run out with F_0801, end the session of a client whose loss policy keeps its events: it is shown
as lost and its votes are cleared. -/
def Clauses.Sessions : Prop :=
  (∀ (m : Msg) (s : State) (v : Nat), Accepted 0x0001 m s → reservedBad m [0xFFFFFFFF, 0x1F, 0] = none → sessionOpen s m.client = false →
    chooseVersion (bits (word m 0) 31 16) (bits (word m 0) 15 0) (isSafety s m.client) = some v →
    let feat := (word m 1).toNat &&& versionFeatures v
    Answers (.hello m) s 0x0001 m
      [BitVec.ofNat 32 (v / 16 * 256 + v % 16 + classOf s m.client * 2 ^ 16), BitVec.ofNat 32 feat,
       BitVec.ofNat 32 (m.client + if (canBindingOf s m.client).isSome then 256 else 0),
       BitVec.ofNat 32 (rd s (SEQ_QUOTA_QUOTA m.client)), wordNow s (globalFields 4), 0]
      (fun u => sessionOpen u m.client = true ∧ versionOf u m.client = v ∧ (client u m.client).features = feat ∧
        (client u m.client).alive = s.cyc ∧ OnlyRegs s u [CLI_HL_STATUS m.client])) ∧
  (∀ (m : Msg) (s : State), Accepted 0x0300 m s →
    (m.words.length ≤ 16 → Answers (.echo m) s 0x0300 m m.words (fun u => u = s)) ∧
    (16 < m.words.length → Refuses (.echo m) s 0x0300 m 0x0B 0xFF (fun u => u = s))) ∧
  (∀ (c : Fin 256) (s : State), AllOn s → rd s (HL_CLIENT_LOSS c) = 0 →
    let ended := fun (t : State) => sessionOpen t c = false ∧ isSet t (CLI_HL_STATUS_SESSION_LOST c) = true ∧
      rd t (CLI_PWR_VOTE_VOTE c) = 0
    (∀ m : Msg, m.client = c → Accepted 0x0002 m s → Runs (.goodbye m) s ended) ∧
    (∀ dt : Nat, steady dt s = true → sessionOpen s c = true → rd s (HL_CLIENT_LEASE c) ≠ 0 →
      (client s c).alive + rd s (HL_CLIENT_LEASE c) * 4000000 ≤ s.cyc + dt → Runs (.leaseExpiry dt c) s (fun t => ended t ∧ Detects t 0x0801)))

/-- R391, R392, R399, R425, R436. Every loss of PCI Express ends its sessions and shows the link lost: the data link down, PERST#, a hot
reset, PF0's own reset and VF Enable at 0, here where each open session's loss policy keeps its events; the resets empty the slots of
paired writes, and a reset of one virtual function takes its ring out of service. Configuration is ready once PERST# is released, and then
the host sets VF Enable and each function's settings, MSI-X Enable among them, which lets its pending messages out. PF0
sets a client's class, policy and lease, and grants an output; a second SAFETY client is rejected. -/
def Clauses.LinkLosses : Prop :=
  ∀ (dt : Nat) (s : State), steady dt s = true → 0 < dt →
    (AllOn s → (∀ c, c < 256 → sessionOpen s c = true → rd s (HL_CLIENT_LOSS c) = 0) → (∀ ch, ch < 12 → dmaOwner s ch = none) →
      let lost := fun (t : State) => isSet t HL_STATUS_LINK_LOST = true ∧ Detects t 0x0802
      let ended := fun (t : State) => ∀ c, c < 256 → canBindingOf s c = none → sessionOpen t c = false
      Runs (.dataLinkDown dt) s (fun t => lost t ∧ ended t) ∧
      Runs (.vfEnableClear dt) s (fun t => lost t ∧ ended t ∧ t.host.vfEnable = false) ∧
      Runs (.hotReset dt) s (fun t => lost t ∧ t.slots = []) ∧
      Runs (.functionLevelReset dt 0) s (fun t => lost t ∧ t.slots = []) ∧
      Runs (.perst dt true) s (fun t => lost t ∧ t.slots = [] ∧ t.host.perst = true ∧ t.boot.configReady = false) ∧
      (∀ fn : Fin 256, fn ≠ 0 → sessionOpen s fn = false → Runs (.functionLevelReset dt fn) s (fun t =>
        isSet t (CLI_RING_CFG_ENABLE fn) = false ∧ t.slots = s.slots ∧ t.faults = s.faults))) ∧
    Runs (.perst dt false) s (fun t => t.host = { s.host with perst := false } ∧ t.regs = s.regs ∧ t.boot = s.boot) ∧
    (s.host.perst = false → ∀ vf : Bool,
      Runs (.pcieConfigReady dt vf []) s (fun t => t.boot = { s.boot with configReady := true } ∧ t.regs = s.regs ∧
        t.host = { s.host with vfEnable := vf }) ∧
      (∀ (fn : Fin 256) (f : PcieFn), Runs (.pcieConfigReady dt vf [(fn, f)]) s (fun t => Tbl.get {} t.host.pcie fn = f ∧
        t.host.vfEnable = vf ∧ ∀ v : Fin 8, f.msix = true → bitOf (rd s (CLI_MSIX_PBA_PEND fn)) v = true →
          isSet s (CLI_MSIX_CTRL_MASK fn v) = false → .msix fn v ∈ t.out ∧ bitOf (rd t (CLI_MSIX_PBA_PEND fn)) v = false))) ∧
    (∀ (n : Fin 256) (x : Word), bits x 3 2 ≠ 3 →
      (bits x 1 0 = 1 → Runs (.hlClientWrite dt n x) s (fun t => classOf t n = 1 ∧ rd t (HL_CLIENT_LOSS n) = bits x 3 2 ∧
        rd t (HL_CLIENT_LEASE n) = bits x 15 8 ∧ OnlyRegs s t [HL_CLIENT n])) ∧
      (∀ k, bits x 1 0 = 0 → safetyClient s = some k → k ≠ n.val → Runs (.hlClientWrite dt n x) s (fun t =>
        isSet t HL_STATUS_CFG_REJ = true ∧ OnlyRegs s t [HL_STATUS]))) ∧
    (∀ (o : Fin 52) (x : Word), oddMember s o = false → ownerOf s o = none → bitOf x.toNat 31 = true →
      Runs (.hlOwnWrite dt o x) s (fun t => isSet t (HL_OWN_VALID o) = true ∧ rd t (HL_OWN_OWNER o) = bits x 7 0 ∧
        OnlyRegs s t [HL_OWN o]))

/-- R387, R390 to R392, R399, R425, R436, R524: sessions, their ends, classes and grants. -/
def Obligations.ClientSessions : Prop := Clauses.Sessions ∧ Clauses.LinkLosses

/-- R396 to R398. The third window in a row above 90 % raises the load level, entering level 1 with F_0803, and the third below 70 % lowers
it. A shed request that has waited its time is answered MP_SATURATED and not executed. A watchdog restarts its core with F_0807, and the
command that it interrupted is answered CORE_RESTART when the core is back. In a swap of firmware the load changes nothing. -/
def Obligations.CoreLoad : Prop :=
  ∀ (dt : Nat) (s : State), steady dt s = true → 0 < dt → rd s HL_STATUS_LEVEL ≤ 3 →
    let level := rd s HL_STATUS_LEVEL
    (∀ load : Nat, load < 256 → s.boot.swap.isSome = true → Runs (.loadWindow dt load) s (fun t => t = tick dt s)) ∧
    (∀ load : Nat, load < 256 → s.boot.swap = none →
      (90 < load → s.host.hiRun = 2 → Runs (.loadWindow dt load) s (fun t => rd t HL_STATUS_LEVEL = min 3 (level + 1) ∧
        rd t HL_LOAD_LOAD = load ∧ t.host.hiRun = 0 ∧ (level = 0 → Detects t 0x0803))) ∧
      (load < 70 → s.host.loRun = 2 → Runs (.loadWindow dt load) s (fun t => rd t HL_STATUS_LEVEL = level - 1 ∧ t.host.loRun = 0)) ∧
      (70 ≤ load → load ≤ 90 → Runs (.loadWindow dt load) s (fun t => rd t HL_STATUS_LEVEL = level ∧ t.host.hiRun = 0 ∧
        t.host.loRun = 0 ∧ OnlyRegs s t [HL_LOAD]))) ∧
    (∀ (c : Fin 256) (op q : BitVec 16) (r : Request),
      (client s c).requests.find? (fun r => r.opcode == op.toNat && r.msg.seq == q.toNat && r.dispatched) = some r →
      s.boot.swap = none → isShed level (classOf s c) r.opcode r.msg.urgent = true → r.since + rd s HL_SHED_CFG_SHED_TIMEOUT * 400000 ≤ s.cyc + dt →
      Refuses (.shedTimeout dt c op q) s r.opcode r.msg 0x1B 0 (fun u => u = tick dt s)) ∧
    (∀ k : Fin 4, s.boot.swap = none → isSet s GLB_BOOT_FW_READY = true → Runs (.watchdogExpiry dt k none) s (fun t =>
      Detects t 0x0807 ∧ Tbl.find t.host.restarting k = some [] ∧ t.regs = s.regs)) ∧
    (∀ (k : Fin 4) (r : Request), Tbl.find s.host.restarting k = some [r] →
      Refuses (.coreRestartDone dt k) s r.opcode r.msg 0x1C 0 (fun u => Tbl.find u.host.restarting k = none ∧ u.regs = s.regs))

/-! ### CAN FD, DMA and interrupts (host link R400 to R404, DMA R408 to R425) -/

/-- R400, R402. A frame on a bound identifier. A classical frame is ignored and counted. A first frame begins a message, renews the lease
and is answered with flow control. A consecutive frame out of order discards what has come and is counted. -/
def Obligations.CanReception : Prop :=
  ∀ (dt : Nat) (s : State) (c : Fin 4) (ext : Bool) (ident : BitVec 29) (b : List Byte) (k : Nat), steady dt s = true → 0 < dt →
    isSet s (CAN_CTRL_ENABLE c) = true → isSet s (CAN_STAT_BUS_OFF c) = false → bindingFor s c ext ident.toNat = some k →
    let now := s.cyc + dt
    let pci := (b.getD 0 0).toNat
    let n := pci % 16 * 256 + (b.getD 1 0).toNat
    let counted := fun (f : Fld) (t : State) => rd t f = min f.max (rd s f + 1)
    (∃ t, exec (.canFrameReceived dt c ext ident false b) s = .next t ∧
      counted (CAN_STAT_IGNORED c) t ∧ OnlyRegs s t [CAN_STAT c] ∧ t.can = s.can ∧ t.out = s.out) ∧
    (pci / 16 = 1 → n ≠ 0 → n ≤ 1024 → (canB s k).rx = none → ∃ t, exec (.canFrameReceived dt c ext ident true b) s = .next t ∧
      (canB t k).rx = some { bytes := b.drop 2, len := n, next := 1, left := rd s (CAN_TP_BS c), since := now } ∧
      (client t (240 + k)).alive = now ∧ t.regs = s.regs ∧
      t.out = .canFrame (rd s (CAN_BIND_CTRL k)) (isSet s (CAN_BINDR_IDE k)) (rd s (CAN_BINDR_RSP_ID k)) (isSet s (CAN_BINDR_BRS k))
        (pad [0x30, BitVec.ofNat 8 (rd s (CAN_TP_BS c)), BitVec.ofNat 8 (rd s (CAN_TP_STMIN c))]) :: s.out) ∧
    (∀ rx : CanRx, pci / 16 = 2 → (canB s k).rx = some rx → pci % 16 ≠ rx.next →
      ∃ t, exec (.canFrameReceived dt c ext ident true b) s = .next t ∧ (canB t k).rx = none ∧ counted (CAN_STAT_TP_ERRORS c) t)

/-- R402, R403. Both transport timers are 1 s: N_Cr discards the message being received and N_Bs the one being sent, and each is counted.
A frame sent leads to the next consecutive one of its message, or with nothing in transit to the oldest response as a single frame. -/
def Obligations.CanTransmission : Prop :=
  ∀ (dt : Nat) (s : State) (k : Fin 16), steady dt s = true → 0 < dt →
    let now := s.cyc + dt
    let c := rd s (CAN_BIND_CTRL k)
    let counted := fun (t : State) => rd t (CAN_STAT_TP_ERRORS c) = min (CAN_STAT_TP_ERRORS c).max (rd s (CAN_STAT_TP_ERRORS c) + 1)
    let sends := fun (b : List Byte) => Out.canFrame c (isSet s (CAN_BINDR_IDE k)) (rd s (CAN_BINDR_RSP_ID k)) (isSet s (CAN_BINDR_BRS k)) (pad b)
    (∀ rx : CanRx, (canB s k).rx = some rx → rx.since + 400000000 ≤ now →
      (∀ x : CanTx, (canB s k).tx = some x → x.waitFc = false ∨ now < x.since + 400000000) →
      ∃ t, exec (.canTpTimeout dt k) s = .next t ∧ (canB t k).rx = none ∧ (canB t k).tx = (canB s k).tx ∧ counted t) ∧
    (∀ x : CanTx, (canB s k).tx = some x → x.waitFc = true → x.since + 400000000 ≤ now →
      (∀ rx : CanRx, (canB s k).rx = some rx → now < rx.since + 400000000) →
      ∃ t, exec (.canTpTimeout dt k) s = .next t ∧ (canB t k).tx = none ∧ (canB t k).rx = (canB s k).rx ∧ counted t) ∧
    (isSet s (CAN_BIND_EN k) = true → isSet s (CAN_CTRL_ENABLE c) = true → isSet s (CAN_STAT_BUS_OFF c) = false →
      (∀ x : CanTx, (canB s k).tx = some x → x.bytes ≠ [] → x.waitFc = false → x.left = none →
        ∃ t, exec (.canFrameSent dt k) s = .next t ∧ t.regs = s.regs ∧
          t.out = sends (BitVec.ofNat 8 (32 + x.next) :: x.bytes.take 63) :: s.out ∧
          (canB t k).tx = some { bytes := x.bytes.drop 63, next := (x.next + 1) % 16, waitFc := false, left := none, since := now }) ∧
      (∀ (r : ModMsg) (rest : List ModMsg), (canB s k).tx = none → (canB s k).responses = r :: rest →
        let b := (modWords (mpSat s) r).flatMap wordBytes
        b.length ≤ 62 → ∃ t, exec (.canFrameSent dt k) s = .next t ∧ t.out = sends (0 :: BitVec.ofNat 8 b.length :: b) :: s.out ∧
          (canB t k).responses = rest ∧ t.regs = s.regs))

/-- R401, R404. Bus-off discards what the controller's bindings were sending and receiving, with F_0805. The controller rejoins by itself
with `AUTO_REC`, and PF0 lets a bus-off one rejoin by `RESTART`, which is ignored on the bus. PF0 writes both words of a binding; it enables
one that doubles no other while its client has no session, and a write of either word that would double one is rejected. -/
def Obligations.CanControllers : Prop :=
  ∀ (dt : Nat) (s : State), steady dt s = true → 0 < dt →
    (∀ c : Fin 4,
      (∃ t, exec (.canBusOff dt c) s = .next t ∧ isSet t (CAN_STAT_BUS_OFF c) = true ∧ Detects t 0x0805 ∧
        (∀ k, k < 16 → rd s (CAN_BIND_CTRL k) = c → (canB t k).rx = none ∧ (canB t k).tx = none) ∧
        (∀ k, rd s (CAN_BIND_CTRL k) ≠ c → canB t k = canB s k)) ∧
      (isSet s (CAN_STAT_BUS_OFF c) = true → isSet s (CAN_CTRL_AUTO_REC c) = true →
        ∃ t, exec (.canRejoin dt c) s = .next t ∧ isSet t (CAN_STAT_BUS_OFF c) = false ∧ OnlyRegs s t [CAN_STAT c, CAN_CTRL c]) ∧
      (domainOn s (74 + c) = true → ∃ t, exec (.canRestartWrite dt c) s = .next t ∧
        (isSet s (CAN_STAT_BUS_OFF c) = true → isSet t (CAN_CTRL_RESTART c) = true ∧ OnlyRegs s t [CAN_CTRL c]) ∧
        (isSet s (CAN_STAT_BUS_OFF c) = false → t.regs = s.regs))) ∧
    (∀ (k : Fin 16) (x : Word), AllOn s →
      let ide := isSet s (CAN_BINDR_IDE k)
      let wide := bindingDoubles s k (rd s (CAN_BIND_CTRL k)) (bitOf x.toNat 31) (rd s (CAN_BIND_REQ_ID k))
      let rejected := fun (hi : Bool) =>
        ∃ t, exec (.canBindWrite dt k hi x) s = .next t ∧ isSet t HL_STATUS_CFG_REJ = true ∧ OnlyRegs s t [HL_STATUS]
      (isSet s (CAN_BIND_EN k) = false ∨ wide = false →
        ∃ t, exec (.canBindWrite dt k true x) s = .next t ∧ rd t (CAN_BINDR_RSP_ID k) = bits x 28 0 ∧ OnlyRegs s t [CAN_BINDR k]) ∧
      (isSet s (CAN_BIND_EN k) = true → wide = true → rejected true) ∧
      (bitOf x.toNat 31 = true → sessionOpen s (240 + k) = false → bindingDoubles s k (bits x 30 29) ide (bits x 28 0) = false →
        ∃ t, exec (.canBindWrite dt k false x) s = .next t ∧ isSet t (CAN_BIND_EN k) = true ∧ rd t (CAN_BIND_CTRL k) = bits x 30 29 ∧
          rd t (CAN_BIND_REQ_ID k) = bits x 28 0 ∧ OnlyRegs s t [CAN_BIND k]) ∧
      (bitOf x.toNat 31 = true → bindingDoubles s k (bits x 30 29) ide (bits x 28 0) = true → rejected false))

/-- R408 to R416. PF0 grants an inactive channel; a grant of an active one is rejected. The owner's start of a channel that Table 14-1
refuses ends with its code and the whole length as residue; one that it does not refuse runs. An abort of a waiting channel ends it at
once, and one of a running channel with a burst in flight waits for it; another function's writes are discarded. A read burst brings the
next source bytes, in order; a write burst reaches the host, and the one with the last byte ends the transfer DONE. A failed burst is
retried 10 µs later while a retry is left, and halts the channel with F_0820 when none is. -/
def Obligations.DmaTransfers : Prop :=
  ∀ (dt : Nat) (ch : Fin 12) (s : State), steady dt s = true → 0 < dt →
    let now := s.cyc + dt
    let len := dmaLen s ch
    (∀ x : Word,
      (dmaActive s ch = false → Runs (.dmaGrantWrite dt ch x) s (fun t => isSet t (DMA_GRANT_VALID ch) = bitOf x.toNat 31 ∧
        rd t (DMA_GRANT_OWNER ch) = bits x 7 0 ∧ OnlyRegs s t [DMA_GRANT ch])) ∧
      (dmaActive s ch = true → Runs (.dmaGrantWrite dt ch x) s (fun t => isSet t DMA_GSTAT_CFG_REJ = true ∧ OnlyRegs s t [DMA_GSTAT])) ∧
      (∀ fn : Fin 256, dmaOwner s ch = some fn.val → fnAnswers s fn = true → dmaActive s ch = false →
        (∀ code, dmaRefusal s ch = some code → Runs (.dmaStartWrite dt fn ch x) s (fun t => rd t (DMA_STATUS_END ch) = code ∧
          rd t (DMA_STATUS_STATE ch) = 0 ∧ rd t (DMA_RESIDUE_RESIDUE ch) = len % 2 ^ 21 ∧ dmaXfer t ch = none)) ∧
        (dmaRefusal s ch = none → Runs (.dmaStartWrite dt fn ch x) s (fun t => rd t (DMA_STATUS_STATE ch) = 1 ∧
          rd t (DMA_STATUS_RETRIES ch) = 0 ∧ rd t (DMA_CTRL_TAG ch) = bits x 15 0 ∧
            ∃ y, dmaXfer t ch = some y ∧ y.owner = fn ∧ y.read = 0 ∧ y.written = 0 ∧ y.buf = []))) ∧
      (∀ (fn : Fin 256) (y : DmaXfer), dmaOwner s ch = some fn.val → fnAnswers s fn = true → dmaXfer s ch = some y → bitOf x.toNat 31 = false →
        (rd s (DMA_STATUS_STATE ch) = 2 → dmaQuiet s ch = true → y.written ≤ len → Runs (.dmaAbortWrite dt fn ch x) s (fun t =>
          rd t (DMA_STATUS_END ch) = 1 ∧ rd t (DMA_STATUS_STATE ch) = 0 ∧ rd t (DMA_RESIDUE_RESIDUE ch) = (len - y.written) % 2 ^ 21 ∧
            dmaXfer t ch = none)) ∧
        (rd s (DMA_STATUS_STATE ch) = 1 → dmaQuiet s ch = false → Runs (.dmaAbortWrite dt fn ch x) s (fun t =>
          rd t (DMA_STATUS_STATE ch) = 3 ∧ dmaXfer t ch = some { y with abortAt := some now } ∧ t.out = s.out))) ∧
      (∀ fn : Fin 256, dmaOwner s ch ≠ some fn.val → Runs (.dmaStartWrite dt fn ch x) s (fun t => t.regs = s.regs ∧ t.dma = s.dma) ∧
        Runs (.dmaAbortWrite dt fn ch x) s (fun t => t.regs = s.regs ∧ t.dma = s.dma))) ∧
    (∀ y : DmaXfer, dmaXfer s ch = some y → y.abortAt = none →
      (s.dma.reading = some ch.val → dmaShuf s ch = false → y.written < len →
        let n := min 512 (len - y.read)
        Runs (.dmaBurstDone dt false true) s (fun t => ∃ z, dmaXfer t ch = some z ∧ z.owner = y.owner ∧ z.read = y.read + n ∧
          z.written = y.written ∧ z.buf = y.buf ++ (List.range n).map (fun i => dmaByte s ch (y.read + i)))) ∧
      (s.dma.writing = some ch.val → dmaShuf s ch = false → y.written + y.wlen = len → dmaQuiet s ch = false → s.dma.reading ≠ some ch.val →
        Runs (.dmaBurstDone dt true true) s (fun t => .hostWrite (writeBurst s ch y).1 (y.buf.take y.wlen) ∈ t.out ∧
          rd t (DMA_STATUS_END ch) = 0 ∧ rd t (DMA_STATUS_STATE ch) = 0 ∧ rd t (DMA_RESIDUE_RESIDUE ch) = 0 ∧ dmaXfer t ch = none)) ∧
      (s.dma.reading = some ch.val → s.dma.writing ≠ some ch.val →
        (rd s (DMA_STATUS_RETRIES ch) < rd s (DMA_CTRL_RETRY_N ch) → Runs (.dmaBurstDone dt false false) s (fun t =>
          rd t (DMA_STATUS_STATE ch) = 2 ∧ rd t (DMA_STATUS_RETRIES ch) = (rd s (DMA_STATUS_RETRIES ch) + 1) % 8 ∧
            ∃ z, dmaXfer t ch = some z ∧ z.retryAt = some (now + 4000) ∧ z.read = y.read)) ∧
        (rd s (DMA_CTRL_RETRY_N ch) ≤ rd s (DMA_STATUS_RETRIES ch) → Runs (.dmaBurstDone dt false false) s (fun t =>
          rd t (DMA_STATUS_STATE ch) = 4 ∧ rd t (DMA_STATUS_END ch) = 3 ∧ dmaXfer t ch = none ∧ Detects t 0x0820))) ∧
      (∀ at_, y.retryAt = some at_ → at_ ≤ now → Runs (.dmaRetry dt ch) s (fun t => rd t (DMA_STATUS_STATE ch) = 1 ∧
        ∃ z, dmaXfer t ch = some z ∧ z.retryAt = none ∧ z.read = y.read)))

/-- Every interrupt source but `i` is as it was. -/
def OtherSources (s t : State) (i : Nat) : Prop := ∀ k, k ≠ i → intSrc t k = intSrc s k

/-- R418 to R425. The request of an enabled, inactive source makes it pending; the fall of a level request leaves nothing pending. A core
accepts the source offered to it, or claims it by a read that else returns 511, and the source is active, no longer pending, and disabled
with `ONESHOT`; its completion makes it inactive, and pending again while its level request stands; a completion of a source that the core
has not claimed is counted. Hold and enable bits are set and cleared by single stores, and
hold bits act from the cycle after the store. A group opens when its timer reaches `TIME`. A
vector whose timer reaches `TIME` sends its message, or sets its pending bit while it is masked or MSI-X is not enabled; unmasking sends a
pending message. -/
def Obligations.Interrupts : Prop :=
  ∀ (dt : Nat) (s : State), steady dt s = true → 0 < dt →
    (∀ i : Fin 511, i.val < 389 →
      let x := intSrc s i
      let edge := rd s (INTC_SRC_TYPE i) = 1
      (x.en = true → (edge ∨ x.act = none) → Runs (.intcRequest dt i true) s (fun t =>
        intSrc t i = { x with req := true, pend := true } ∧ OtherSources s t i)) ∧
      (¬ edge → Runs (.intcRequest dt i false) s (fun t => intSrc t i = { x with req := false, pend := false } ∧ OtherSources s t i)) ∧
      (edge → Runs (.intcRequest dt i false) s (fun t => intSrc t i = { x with req := false } ∧ OtherSources s t i))) ∧
    (∀ k : Fin 4,
      (∀ i, offer (tick dt s) k = some i →
        let x := intSrc s i
        let claimed := fun (t : State) => intSrc t i = { x with act := some k.val, pend := false, en := x.en && !isSet s (INTC_SRC_ONESHOT i) } ∧
          OtherSources s t i
        (isSet s INTC_CTRL_RAW = false → Runs (.intcAccept dt k) s claimed) ∧
        (isSet s INTC_CTRL_RAW = true → Runs (.intcClaimRead dt k) s (fun t => claimed t ∧
          t.out = .readData 0 (INTC_CLAIM k) (BitVec.ofNat 32 i) :: s.out))) ∧
      (offer (tick dt s) k = none → Runs (.intcClaimRead dt k) s (fun t => t.intc = s.intc ∧
        t.out = .readData 0 (INTC_CLAIM k) 511 :: s.out)) ∧
      (∀ i : BitVec 9, i ≠ 511#9 →
        let x := intSrc s i.toNat
        (x.act = some k.val → Runs (.intcCompleteWrite dt k i) s (fun t => OnlyRegs s t [INTC_GRP (rd s (INTC_SRC_GROUP i.toNat)), PWR_STATUS] ∧ OtherSources s t i.toNat ∧
          intSrc t i.toNat = { x with act := none, pend := x.pend || (rd s (INTC_SRC_TYPE i.toNat) == 0 && x.req && x.en) })) ∧
        (x.act ≠ some k.val → Runs (.intcCompleteWrite dt k i) s (fun t => t.intc = s.intc ∧
          rd t INTC_IGNORED_COUNT = min INTC_IGNORED_COUNT.max (rd s INTC_IGNORED_COUNT + 1) ∧ OnlyRegs s t [INTC_IGNORED])))) ∧
    (∀ x : BitVec 5, rd s INTC_HOLD_HOLD < 32 → s.intc.holdAt ≤ s.cyc →
      let stands := fun (t : State) => OnlyRegs s t [INTC_HOLD] ∧
        (∀ k, coreHeld t k = (bitOf (rd s INTC_HOLD_HOLD) k || bitOf (rd s INTC_HOLD_HOLD) 4)) ∧
        (∀ n k, 0 < n → coreHeld (tick n t) k = (bitOf (rd t INTC_HOLD_HOLD) k || bitOf (rd t INTC_HOLD_HOLD) 4))
      Runs (.intcHoldSetWrite dt x) s (fun t =>
        BitVec.ofNat 5 (rd t INTC_HOLD_HOLD) = BitVec.ofNat 5 (rd s INTC_HOLD_HOLD) ||| x ∧ stands t) ∧
      Runs (.intcHoldClrWrite dt x) s (fun t =>
        BitVec.ofNat 5 (rd t INTC_HOLD_HOLD) = BitVec.ofNat 5 (rd s INTC_HOLD_HOLD) &&& ~~~x ∧ stands t)) ∧
    (∀ i : BitVec 9, i ≠ 511#9 →
      Runs (.intcEnSetWrite dt i) s (fun t => (intSrc t i.toNat).en = true ∧ OtherSources s t i.toNat) ∧
      Runs (.intcEnClrWrite dt i) s (fun t => intSrc t i.toNat = { intSrc s i.toNat with en := false } ∧ OtherSources s t i.toNat)) ∧
    (∀ (g : Fin 32) (at_ : Nat), (Tbl.get ({} : Coal) s.intc.grp g).start = some at_ → at_ + rd s (INTC_GRP_TIME g) * 400 ≤ s.cyc + dt →
      Runs (.intcGroupOpen dt g) s (fun t => (Tbl.get ({} : Coal) t.intc.grp g).isOpen = true ∧ OnlyRegs s t [PWR_STATUS])) ∧
    (∀ (c : Fin 256) (v : Fin 8),
      (∀ at_, (Tbl.get ({} : Coal) s.host.msix (8 * c.val + v)).start = some at_ → at_ + rd s (CLI_MSIX_COAL_TIME c v) * 400 ≤ s.cyc + dt →
        Runs (.msixCoalRelease dt c v) s (fun t => Tbl.get ({} : Coal) t.host.msix (8 * c.val + v) = {} ∧
          (isSet s (CLI_MSIX_CTRL_MASK c v) = false → msixOn s c = true → t.out = .msix c v :: s.out ∧ t.regs = s.regs) ∧
          ((isSet s (CLI_MSIX_CTRL_MASK c v) = true ∨ msixOn s c = false) → bitOf (rd t (CLI_MSIX_PBA_PEND c)) v = true ∧ t.out = s.out))) ∧
      Runs (.msixUnmask dt c v) s (fun t => isSet t (CLI_MSIX_CTRL_MASK c v) = false ∧
        t.out = if bitOf (rd s (CLI_MSIX_PBA_PEND c)) v && msixOn s c then .msix c v :: s.out else s.out))

/-! ### Reset, boot and images (start-up R428 to R444, module R501 to R505) -/

/-- What a full reset leaves: the dies held, no output enabled, nothing stored, armed or running, no session, and the queue, the clock's
calendar and the image slots as they were. -/
def FullyReset (s t : State) (cause : Nat) : Prop :=
  t.boot.held = true ∧ rd t GLB_BOOT_RESET_CAUSE = cause ∧ t.cyc = 0 ∧ t.seq = {} ∧ t.pulse = {} ∧ t.host = {} ∧ t.faults = [] ∧
    rd t DRV_CH_EN0_EN = 0 ∧ rd t DRV_CH_EN1_EN = 0 ∧ rd t AUX_EN_EN = 0 ∧ t.pending = s.pending ∧ t.rtc.cal = s.rtc.cal ∧
      t.boot.slotA = s.boot.slotA ∧ t.boot.slotB = s.boot.slotB ∧ t.boot.counter = s.boot.counter

/-- R428 to R436. A supply that falls resets the module, with cause 1 for its battery feed and 2 for another; release starts the cycle
counter at 0 with the sampled slot. The image the boot ROM accepts declares itself ready and shows its slot; with no image accepted
nothing comes but the Field Book record. -/
def Clauses.ResetAndBoot : Prop :=
  ∀ s : State,
    (∀ (dt : Nat) (battery : Bool), steady dt s = true → Runs (.supplyFault dt battery) s (fun t => FullyReset s t (if battery then 1 else 2))) ∧
    (∀ slot : Fin 16, s.boot.held = true → s.boot.recA = none → s.boot.recB = none → Runs (.resetRelease slot) s (fun t =>
      t.boot.held = false ∧ t.cyc = 0 ∧ rd t PAIR_STATUS_SLOT = slot ∧ isSet t MOD_STATUS_SEATED = true ∧ t.faults = s.faults ∧
        isSet t GLB_BOOT_STARTREC_OK = isSet s GLB_BOOT_STARTREC_OK)) ∧
    (∀ dt : Nat, steady dt s = true → isSet s GLB_BOOT_FW_READY = false →
      (∀ i, bootImage s = some i → s.boot.leaveSettled = false → Runs (.firmwareReady dt) s (fun t => isSet t GLB_BOOT_FW_READY = true ∧
        t.boot.running = i ∧ rd t GLB_FW_VERSION_IMAGE = i % 2)) ∧
      (bootImage s = none → Runs (.firmwareReady dt) s (fun t => t.regs = s.regs ∧ t.book.nextSeq = s.book.nextSeq + 1 ∧
        t.boot = s.boot)))

/-- R440, R441, R442, R444, R435. `FW_LOAD` of a sound chunk for the slot that is not running begins its flash write and the slot is no
longer valid. `FW_SWAP` to an accepted image begins a swap: its cores are reset when firmware is quiet, the new image answers it, and one
that is not ready in time leaves the old one running, with F_0833. `FW_COMMIT` and `STARTUP_PUT` begin their flash writes, and the end of
the commit's write answers it with the preference and the anti-rollback counter raised. -/
def Clauses.Images : Prop :=
  (∀ (m : Msg) (s : State),
    (let off := (word m 0).toNat
     let len := (word m 1).toNat
     let slot := bits (word m 2) 1 1
     Accepted 0x0500 m s → s.boot.swap = none → slot ≠ s.boot.running → 8 ≤ len → len ≤ 65520 → len % 8 = 0 → off % 4096 = 0 →
       off + len ≤ 16777216 → (word m 2).toNat < 4 → 4 * (m.words.drop 4).length = len → crc32 (bytesOf (m.words.drop 4)) = word m 3 →
       Runs (.fwLoad m) s (fun t => t.boot.jobs = s.boot.jobs ++ [.chunk m slot (bitOf (word m 2).toNat 0)] ∧ (imageOf t slot).valid = false ∧
         imageOf t (1 - slot) = imageOf s (1 - slot) ∧ t.out = s.out)) ∧
    (let x := imageOf s (1 - s.boot.running)
     Accepted 0x0501 m s → x.valid = true → x.accepted = true → s.boot.counter ≤ x.header.index →
       isSet s ANG_STATUS_CL_LEARNING = false → s.boot.swap = none → isSet s PWR_STATUS_CHANGING = false →
       Runs (.fwSwap m) s (fun t => t.boot = { s.boot with swap := some ⟨s.cyc, false, m⟩ } ∧ isSet t GLB_BOOT_SWAP_PEND = true ∧
         t.out = s.out ∧ OnlyRegs s t [GLB_BOOT])) ∧
    (Accepted 0x0502 m s →
      (s.boot.running = s.boot.preferred → Refuses (.fwCommit m) s 0x0502 m 0x0505 0 (fun u => u = s)) ∧
      (s.boot.running ≠ s.boot.preferred → Runs (.fwCommit m) s (fun t => t.regs = s.regs ∧ t.out = s.out ∧
        t.boot = { s.boot with jobs := s.boot.jobs ++ [.commit m s.boot.running (imageOf s s.boot.running).header.index] }))) ∧
    (Accepted 0x0503 m s → Answers (.fwStatus m) s 0x0503 m [bootWord s, wordNow s (globalFields GLB_ROLLBACK),
      wordNow s (globalFields GLB_FW_VERSION), slotWord s 0, slotWord s 1] (fun u => u = s)) ∧
    (Accepted 0x0505 m s → bstCfgOk (word m 0) = true → bstCapOk (word m 1) = true → bstCfgOk (word m 2) = true → bstCapOk (word m 3) = true →
      Runs (.startupPut m) s (fun t => t.regs = s.regs ∧ t.out = s.out ∧
        t.boot = { s.boot with jobs := s.boot.jobs ++ [.startRec m m.words 2] }))) ∧
  (∀ (dt : Nat) (s : State), steady dt s = true →
    (∀ w : Swap, s.boot.swap = some w →
      (w.coresReset = false → s.host.clients.flatMap (fun x => unfinished s w.cmd x.1) = [] → Runs (.swapQuiesceEnd dt) s (fun t =>
        t.boot = { s.boot with swap := some { w with coresReset := true }, jobs := [] } ∧ t.regs = s.regs)) ∧
      (w.coresReset = true → Answers (.swapImageReady dt) s 0x0501 w.cmd [] (fun u => u.boot.running = 1 - s.boot.running ∧
        u.boot.swap = none ∧ rd u GLB_FW_VERSION_IMAGE = (1 - s.boot.running) % 2 ∧ isSet u GLB_BOOT_SWAP_PEND = false)) ∧
      Refuses (.swapTimeout dt) s 0x0501 w.cmd 0x0504 0 (fun u => u.boot = { s.boot with swap := none } ∧
        isSet u GLB_BOOT_SWAP_PEND = false ∧ Detects u 0x0833 ∧ OnlyRegs s u [GLB_BOOT])) ∧
    (∀ (m : Msg) (i index : Nat) (rest : List FlashJob), s.boot.jobs = .commit m i index :: rest →
      Answers (.flashWriteDone dt none) s 0x0502 m [] (fun u => u.boot.preferred = i ∧ u.boot.counter = max s.boot.counter index ∧
        u.boot.jobs = rest ∧ rd u GLB_BOOT_PREF_IMAGE = i % 2)))

/-- R501 to R505. `SEATED` opening after release only shows. `LEAVE` opening isolates a STANDBY on which nothing is ON, stored or running
and shows the module leaving; once leaving it stays so. `LEAVE` closing in a module that trains already shows its level. -/
def Clauses.LiveInsertion : Prop :=
  ∀ (dt : Nat) (s : State), steady dt s = true →
    Runs (.seatedOpen dt) s (fun t => isSet t MOD_STATUS_SEATED = false ∧ OnlyRegs s t [ MOD_STATUS] ∧ t.boot = s.boot) ∧
    (isSet s MOD_STATUS_LEAVING = true → Runs (.leaveOpen dt) s (fun t => isSet t MOD_STATUS_LEAVE = false ∧
      isSet t MOD_STATUS_LEAVING = true ∧ OnlyRegs s t [ MOD_STATUS])) ∧
    (isSet s MOD_STATUS_LEAVING = false → role s = 2 → s.seq.descs = [] → (∀ o, (laneAt s o).on = false) → (∀ n, (ctxAt s n).runs = false) →
      boostState s 0 = 0 → boostState s 1 = 0 → Runs (.leaveOpen dt) s (fun t => isSet t MOD_STATUS_LEAVE = false ∧
        isSet t MOD_STATUS_LEAVING = true ∧ role t = 3 ∧ t.boot.leaveSettled = false)) ∧
    (isSet s MOD_STATUS_LEAVING = true → Runs (.leaveClosed dt) s (fun t => isSet t MOD_STATUS_LEAVE = true ∧
      isSet t MOD_STATUS_LEAVING = true ∧ t.boot = s.boot ∧ OnlyRegs s t [ MOD_STATUS])) ∧
    (isSet s MOD_STATUS_LEAVING = false → s.tie.since.isSome = true → Runs (.leaveClosed dt) s (fun t => isSet t MOD_STATUS_LEAVE = true ∧
      t.boot.leaveSettled = true ∧ t.tie = s.tie ∧ OnlyRegs s t [ MOD_STATUS]))

/-- Start-up R428 to R444, module R501 to R505: reset and boot, firmware images, live insertion. -/
def Obligations.StartUp : Prop := Clauses.ResetAndBoot ∧ Clauses.Images ∧ Clauses.LiveInsertion

/-! ### Power states (power R447 to R461) -/

/-- R448, R450, R452. A request that Table 16-2 refuses changes no state and gives its reason, to PF0 in `REJ_CAUSE` and to the SAFETY
client as code and detail; DOZE and the way back are entered at once. `POWER_STATUS` answers with the power registers and the votes, and
`POWER_VOTE` sets the caller's votes. -/
def Clauses.PowerRequests : Prop :=
  (∀ (dt : Nat) (x : Word) (s : State), steady dt s = true → 0 < dt →
    let q := wr PWR_CTRL_TARGET (bits x 1 0) (tick dt s)
    (∀ v code, powerRefusal q (bits x 1 0) = some (v, code) → Runs (.pwrCtrlGoWrite dt x) s (fun t =>
      isSet t PWR_STATUS_REQ_REJ = true ∧ rd t PWR_STATUS_REJ_CAUSE = v % 8 ∧ rd t PWR_STATUS_STATE = rd s PWR_STATUS_STATE ∧
        OnlyRegs s t [PWR_CTRL, PWR_STATUS] ∧ t.power = s.power)) ∧
    (powerRefusal q (bits x 1 0) = none → bits x 1 0 < 2 → Runs (.pwrCtrlGoWrite dt x) s (fun t =>
      rd t PWR_STATUS_STATE = bits x 1 0 ∧ OnlyRegs s t [PWR_CTRL, PWR_STATUS] ∧ t.power = s.power))) ∧
  (∀ (m : Msg) (s : State),
    (let n := (word m 0).toNat
     Accepted 0x0410 m s → reservedBad m [0x00000003] = none →
       (∀ v code, powerRefusal s n = some (v, code) → Refuses (.powerRequest m) s 0x0410 m code v (fun u => u = s)) ∧
       (powerRefusal s n = none → n < 2 → Runs (.powerRequest m) s (fun t => t = wr PWR_STATUS_STATE n (ok 0x0410 m s)))) ∧
    (Accepted 0x0411 m s → Answers (.powerStatus m) s 0x0411 m
      ([wordNow s (globalFields PWR_STATUS), wordNow s (globalFields PWR_BASE), powerWord false s, powerWord true s,
        wordNow s (globalFields PWR_ISL)] ++ (List.range 17).flatMap (voteWords s)) (fun u => u = s)) ∧
    (Accepted 0x0412 m s → reservedBad m [0x0001FFFF] = none → AllOn s → Answers (.powerVote m) s 0x0412 m [] (fun u =>
      rd u (CLI_PWR_VOTE_VOTE m.client) = (word m 0).toNat % 2 ^ 17 ∧ OnlyRegs s u [CLI_PWR_VOTE m.client] ∧ u.power = s.power)))

/-- R453 to R461. With the boosts OFF the entry saves the retained registers; W0 isolates every domain; at the end of the window every
switch opens and the off request goes out, and its acknowledgement, or 2 ms without one, completes the entry. A watched wake during the
boosts' step cancels; from STANDBY it sends the on request, repeated once; a second silence, and a wake from SENTINEL, lead to a full
start. The acknowledged exit is in RUN, and shows retention lost where its check fails. Pads of domains that go off are let go. -/
def Clauses.SleepStates : Prop :=
  ∀ (dt tgt : Nat) (s : State),
    let pads := TMR_PIN :: (List.range 8).map PE_STAT
    (steady dt s = true → s.power.phase = .boosts tgt → (boostState s 0 = 0 ∨ boostState s 0 = 4) → (boostState s 1 = 0 ∨ boostState s 1 = 4) →
      s.power.cancel = false → Runs (.standbyBoostsOff dt) s (fun t => t.power.phase = .saved tgt ∧
        t.power.saved = t.regs.filter (fun p => retained p.1) ∧ t.angle.keptWheel = t.angle.wheel)) ∧
    (steady dt s = true → s.power.phase = .saved tgt → Runs (.entryWindowOpen dt) s (fun t => t.power.phase = .window tgt ∧ OnlyRegs s t pads ∧
      (∀ d, d < 143 → domainAt t d = .isolated (s.cyc + dt)) ∧ awake t = false)) ∧
    (s.power.phase = .window tgt → Runs (.entryWindowEnd false) s (fun t => t.power.phase = .offWait tgt ∧
      rd t PWR_STATUS_STATE = tgt % 4 ∧ isSet t PWR_STATUS_CHANGING = false ∧ t.out = .pmbus false :: s.out ∧
        (∀ d, d < 143 → domainAt t d = .off) ∧ OnlyRegs s t (PWR_STATUS :: pads))) ∧
    (∀ k : Fin 5, k ≠ 0 → watched s k = true →
      (steady dt s = true → s.power.phase = .boosts tgt → Runs (.wakeEvent dt k) s (fun t => t.power = { s.power with cancel := true } ∧
        rd t PWR_ISL_LAST_WAKE = k ∧ OnlyRegs s t [PWR_ISL])) ∧
      (s.power.phase = .asleep tgt →
        (tgt ≠ 3 → Runs (.wakeEvent dt k) s (fun t => t.power = { s.power with phase := .onWait 1 } ∧ t.out = .pmbus true :: s.out ∧
          rd t PWR_ISL_LAST_WAKE = k ∧ OnlyRegs s t [PWR_ISL])) ∧
        (tgt = 3 → Runs (.wakeEvent dt k) s (fun t => FullyReset s t 3 ∧ rd t PWR_ISL_LAST_WAKE = k)))) ∧
    (s.power.phase = .offWait tgt →
      (∀ good : Bool, Runs (.pmbusAck good) s (fun t => t.power = { s.power with phase := .asleep tgt } ∧ t.regs = s.regs)) ∧
      Runs .pmbusTimeout s (fun t => t.power.phase = .asleep tgt ∧ isSet t PWR_ISL_PMBUS_TO = true ∧ OnlyRegs s t [PWR_ISL])) ∧
    (s.power.phase = .onWait 1 → Runs .pmbusTimeout s (fun t => t.power = { s.power with phase := .onWait 2 } ∧
      t.out = .pmbus true :: s.out ∧ t.regs = s.regs)) ∧
    (s.power.phase = .onWait 2 → Runs .pmbusTimeout s (fun t => FullyReset s t 2)) ∧
    (∀ n, s.power.phase = .onWait n → Runs (.pmbusAck false) s (fun t => t.power.phase = .none ∧ isSet t PWR_STATUS_RET_LOST = true ∧
      t.boot.exit = true ∧ t.pending = s.pending))

/-- R35, R449. A domain that nothing keeps has its switch opened 1 µs after its isolation, and one that something wants is in service when its
rail is good, but while a swap of firmware keeps the votes; the two cores of a tally pair and the two angle trackers go together. Here every other domain is on and kept. -/
def Clauses.Domains : Prop :=
  ∀ (dt : Nat) (d : Fin 143) (s : State), steady dt s = true → groupOf d ∉ [4, 5, 6, 8, 10] →
    let other := fun (k : Nat) => k < 143 ∧ k ≠ d.val ∧ k ≠ partnerOf d
    (∀ k, other k → domainAt s k = .on ∧ wanted s (votes s) k = true) →
    let become := fun (x : Domain) (t : State) => domainAt t d = x ∧ domainAt t (partnerOf d) = x ∧
      (∀ k, other k → domainAt t k = .on) ∧ t.regs = s.regs
    (∀ at_, domainAt s d = .isolated at_ → at_ + 400 ≤ s.cyc + dt →
      (wanted s (votes s) d = false → Runs (.domainSwitchOpen dt d) s (become .off)) ∧
      (s.boot.swap = none → wanted s (votes s) d = true → Runs (.domainSwitchOpen dt d) s (become .rising))) ∧
    (groupOf d ≠ 14 → domainAt s d = .rising → wanted s (votes s) d = true → Runs (.domainRailGood dt d) s (become .on))

/-- Power R447 to R461: requests and votes, sleep states, domains. -/
def Clauses.PowerStates : Prop := Clauses.PowerRequests ∧ Clauses.SleepStates ∧ Clauses.Domains

/-! ### The clock, fault records and the Field Book (power R462 to R471, faults R475 to R484) -/

/-- R462 to R466, R524. The calendar counts seconds, and starts again after 2399 with its time lost. A write of the time is staged, and
one of the date is the final field write; the next tick applies a staged set that is in range and answers the `RTC_SET` that waits, or
rejects the set whole and flags it. A brown-out restarts the calendar. A read latches the date, and `RTC_GET` answers with the clock. -/
def Clauses.RealTimeClock : Prop :=
  ∀ (dt : Nat) (s : State),
    let c := s.rtc.cal
    ((awake s = true → steady dt s = true) →
    (c.second < 59 → Runs (.rtcSecond dt) s (fun t => t.rtc = { s.rtc with cal := { c with second := c.second + 1 } } ∧ t.regs = s.regs)) ∧
    (∀ y mo d, c = ⟨y, mo, d, 23, 59, 59⟩ → d < monthDays y mo → Runs (.rtcSecond dt) s (fun t =>
      t.rtc = { s.rtc with cal := ⟨y, mo, d + 1, 0, 0, 0⟩ } ∧ t.regs = s.regs)) ∧
    (c = ⟨2399, 12, 31, 23, 59, 59⟩ → Runs (.rtcSecond dt) s (fun t => t.rtc.cal = ⟨2000, 1, 1, 0, 0, 0⟩ ∧
      isSet t RTC_STATUS_TIME_LOST = true)) ∧
    (s.rtc.ready = true →
      (∀ (h mi sec : Nat) (m : Msg), s.rtc.time = some (h, mi, sec) → s.rtc.date = none → s.rtc.stagedOk = true → s.rtc.cmds = [m] →
        Answers (.rtcApply dt) s 0x0420 m [] (fun u => u.rtc.cal = { c with hour := h, minute := mi, second := sec } ∧ u.rtc.ready = false ∧
          u.rtc.time = none ∧ u.rtc.cmds = [] ∧ isSet u RTC_STATUS_STAGED = false ∧ isSet u RTC_STATUS_TIME_LOST = false)) ∧
      (∀ m : Msg, s.rtc.stagedOk = false → s.rtc.cmds = [m] → Refuses (.rtcApply dt) s 0x0420 m 0x0420 0 (fun u => u.rtc.cal = c ∧
        u.rtc.ready = false ∧ isSet u RTC_STATUS_WRITE_ERR = true ∧ isSet u RTC_STATUS_STAGED = false ∧ OnlyRegs s u [RTC_STATUS]))) ∧
    Runs (.islandBrownOut dt) s (fun t => t.rtc = {} ∧ isSet t RTC_STATUS_TIME_LOST = true ∧ OnlyRegs s t [RTC_STATUS, RTC_SUB]) ∧
    (∀ v : Bool, Runs (.islandSourceChange dt v) s (fun t => isSet t RTC_STATUS_SRC = v ∧ t.rtc = s.rtc ∧ OnlyRegs s t [RTC_STATUS]))) ∧
    (steady dt s = true →
      Runs (.rtcTimeRead dt) s (fun t => t.rtc = { s.rtc with latched := c } ∧ OnlyRegs s t [RTC_SUB] ∧
        t.out = .readData 0 RTC_TIME (BitVec.ofNat 32 (weekday c * 2 ^ 24 + c.hour * 2 ^ 16 + c.minute * 2 ^ 8 + c.second)) :: s.out) ∧
      (∀ x : Word, 0 < dt →
        Runs (.rtcTimeWrite dt x) s (fun t => t.rtc = { s.rtc with time := some (bits x 20 16, bits x 13 8, bits x 5 0) } ∧ t.regs = s.regs) ∧
        (bitOf x.toNat 31 = false → Runs (.rtcDateWrite dt x) s (fun t => isSet t RTC_STATUS_STAGED = true ∧
          t.rtc = { s.rtc with date := some (bits x 27 16, bits x 11 8, bits x 4 0), ready := true } ∧ OnlyRegs s t [RTC_STATUS])) ∧
        (bitOf x.toNat 31 = true → Runs (.rtcDateWrite dt x) s (fun t => isSet t RTC_STATUS_STAGED = true ∧
          t.rtc = { s.rtc with ready := true } ∧ OnlyRegs s t [RTC_STATUS])))) ∧
    (∀ m : Msg,
      (Accepted 0x0420 m s → reservedBad m [0xFFFFFFFF, 0xFC000003] = none → bits (word m 1) 1 0 = 0 → Runs (.rtcSet m) s (fun t =>
        t.rtc = { s.rtc with time := some (bits (word m 0) 10 6, bits (word m 0) 5 0, bits (word m 1) 31 26)
                             date := some (bits (word m 0) 31 20, bits (word m 0) 19 16, bits (word m 0) 15 11)
                             ready := true, cmds := s.rtc.cmds ++ [m] } ∧
          isSet t RTC_STATUS_STAGED = true ∧ t.out = s.out ∧ OnlyRegs s t [RTC_STATUS])) ∧
      (Accepted 0x0421 m s → ∃ sub : Nat, Answers (.rtcGet m) s 0x0421 m [calWord c, secWord c sub,
        BitVec.ofNat 32 (weekday c * 4 + 2 * rd s RTC_STATUS_SRC + rd s RTC_STATUS_TIME_LOST)]
        (fun u => u.rtc = s.rtc ∧ u.regs = s.regs)))

/-- Power R447 to R466: power states, domains and the clock. -/
def Obligations.PowerAndClock : Prop := Clauses.PowerStates ∧ Clauses.RealTimeClock

/-- R467 to R471, R479 to R484. Firmware forms the record of the oldest fault: it joins the Field Book's queue with the next sequence
number, shows in `FLT_LAST` and counts. A record is programmed in copy A and then in copy B, and leaves the queue; after the scan the newest
record of two copies that agree is shown; `FIELD_BOOK_READ` answers with the records asked for. `FAULT_CLEAR` by the SAFETY client of
latched unpaired channels that it names alone clears a latch that was not set in this cycle, and records itself; scope 4 clears the monitors'
exchange flags. -/
def Obligations.FaultRecords : Prop :=
  ∀ (s : State),
    (∀ (dt : Nat) (e : FaultEv) (rest : List FaultEv), steady dt s = true → 0 < dt → firmwareRuns s = true → s.faults = e :: rest →
      e.code ≠ 0x0843 → s.book.queue.length < 256 → (∀ c, sessionOpen s c = false) → Runs (.faultRecord dt) s (fun t =>
        t.faults = rest ∧ rd t FLT_LAST_CODE = e.code % 65536 ∧
          rd t FLT_COUNT_TOTAL = min FLT_COUNT_TOTAL.max (rd s FLT_COUNT_TOTAL + 1) ∧ t.book.nextSeq = s.book.nextSeq + 1 ∧
            ∃ r, t.book.queue = s.book.queue ++ [r] ∧ r.seq = s.book.nextSeq % 2 ^ 48 ∧ r.kind = 1 ∧ r.code = e.code ∧ r.source = e.source ∧
              r.cyc = e.cyc ∧ r.detail = e.detail)) ∧
    (∀ (dt : Nat) (r : FbRec) (rest : List FbRec), steady dt s = true → firmwareRuns s = true → isSet s FB_STATUS_READY = true →
      s.book.queue = r :: rest →
      (s.book.half = none → isSet s FB_STATUS_COPY_A_BAD = false → Runs (.fieldBookWrite dt true) s (fun t =>
        t.book = { s.book with copyA := s.book.copyA.program r true, half := some r })) ∧
      (s.book.half = some r → isSet s FB_STATUS_COPY_B_BAD = false → s.book.lostPend = 0 → Runs (.fieldBookWrite dt true) s (fun t =>
        t.book = { s.book with copyB := s.book.copyB.program r true, half := none, queue := rest } ∧
          rd t FB_NEWEST_SEQ_LO = r.seq % 2 ^ 32))) ∧
    (∀ (dt : Nat) (x y : FbSlot), steady dt s = true → firmwareRuns s = true → isSet s FB_STATUS_READY = false →
      s.book.copyA.newest = some x → s.book.copyB.newest = some y → x.seq = y.seq → Runs (.fieldBookScanDone dt) s (fun t =>
        isSet t FB_STATUS_READY = true ∧ rd t FB_NEWEST_SEQ_LO = x.seq % 2 ^ 32 ∧ t.book = s.book)) ∧
    (∀ m : Msg,
      (let n := (word m 2).toNat
       let l := bookFrom s ((word m 0).toNat + bits (word m 1) 15 0 * 2 ^ 32) (bitOf (word m 1).toNat 16) n
       Accepted 0x0310 m s → reservedBad m [0xFFFFFFFF, 0x1FFFF, 0xFFF] = none → 0 < n → n ≤ 2000 → isSet s FB_STATUS_READY = true →
         Answers (.fieldBookRead m) s 0x0310 m
           (BitVec.ofNat 32 l.length :: BitVec.ofNat 32 (rd s FB_NEWEST_SEQ_LO) :: l.flatten) (fun u => u = s)) ∧
      (∀ stuck : BitVec 52, Accepted 0x0320 m s → isSafety s m.client = true → s.book.queue.length < 256 →
        (∀ c : Fin 32, (word m 0).toNat = 2 ^ c.val → word m 1 = 0#32 → word m 2 = 1#32 → m.words.length = 3 → paired s c = false →
          oddMember s c = false → setNow s (PRT_STAT_LATCH c) = false → Answers (.faultClear stuck m) s 0x0320 m [] (fun u =>
            isSet u (PRT_STAT_LATCH c) = false ∧ OtherChannels s u c ∧ u.book.queue.length = s.book.queue.length + 1)) ∧
        (word m 0 = 0#32 → word m 1 = 0#32 → word m 2 = 16#32 → m.words.length = 3 → 0x30 ≤ versionOf s m.client →
          Answers (.faultClear stuck m) s 0x0320 m [] (fun u => ∀ i, i < 16 →
            isSet u (MON_STAT_EXCHANGED i) = false ∧ isSet u (MON_STAT_TEST_FAIL i) = false))))

/-! ### Register accesses and paired writes (scope R7 to R14, register reference R525 to R538) -/

/-- R7 to R12, R534 to R536. The value half of a pair opens its register's slot. A complement without a slot, after more than 64 cycles,
or that does not match, changes no register but counts as rejected with its cause; the one that matches gives a monitor thresholds that
are in order. A slot 65 cycles old expires without a count. -/
def Obligations.PairedWrites : Prop :=
  ∀ (dt : Nat) (k : Fin 19) (s : State), steady dt s = true → 0 < dt →
    let off := pairedOff k
    let now := s.cyc + dt
    let rejects := fun (cause : Nat) (t : State) => Tbl.find t.slots off = none ∧ isSet t (CLI_REG_STATUS_PW_REJ 0) = true ∧
      rd t (CLI_PW_LAST_CAUSE 0) = cause ∧ rd t (CLI_PW_LAST_OFFSET 0) = off ∧
        rd t (CLI_REG_STATUS_PW_REJECTS 0) = min (CLI_REG_STATUS_PW_REJECTS 0).max (rd s (CLI_REG_STATUS_PW_REJECTS 0) + 1) ∧
          OnlyRegs s t [CLI_REG_STATUS 0, CLI_PW_LAST 0]
    (∀ x : Word,
      Runs (.pairedWriteValue dt k x) s (fun t => Tbl.find t.slots off = some ⟨x, now, false⟩ ∧
        (∀ o, o ≠ off → Tbl.find t.slots o = Tbl.find s.slots o) ∧ OnlyRegs s t [CLI_REG_STATUS 0]) ∧
      (Tbl.find s.slots off = none → Runs (.pairedWriteComplement dt k x) s (rejects 3)) ∧
      (∀ p : PwSlot, Tbl.find s.slots off = some p →
        ((p.expired = true ∨ p.since + 64 < now) → Runs (.pairedWriteComplement dt k x) s (rejects 1)) ∧
        (p.expired = false → now ≤ p.since + 64 → pairMatches off p.value x = false → Runs (.pairedWriteComplement dt k x) s (rejects 2)) ∧
        (∀ i : Fin 16, k.val = 3 + i.val → p.expired = false → now ≤ p.since + 64 → p.value &&& 0x03FF03FF#32 = p.value → x = ~~~p.value →
          monThrOk p.value = true → Runs (.pairedWriteComplement dt k x) s (fun t => Tbl.find t.slots off = none ∧
            rd t (MON_THR_LOW i) = bits p.value 9 0 ∧ rd t (MON_THR_HIGH i) = bits p.value 25 16 ∧ t.cyc = now ∧
              OnlyRegs s t [MON_THR i, CLI_REG_STATUS 0])))) ∧
    Runs (.pairedWriteExpiry dt) s (fun t => OnlyRegs s t [CLI_REG_STATUS 0] ∧
      ∀ (o : Nat) (p : PwSlot), Tbl.find s.slots o = some p →
        Tbl.find t.slots o = some { p with expired := p.expired || decide (p.since + 65 ≤ now) })

/-- R525 to R531, R14. Virtual functions do not reach the global window, nor their own before the host enables them. A read or a write of an unmapped address flags it, the read
returning 0; a write of fewer bytes than four is flagged and has no effect. A write of a plain register takes its fields, and a read of a
read-clear field returns it and clears it. PF0's writes of the inputs', the direction's, the bands', a quota's and a pair's registers are
taken in the conditions under which they act, and flagged as rejected in the others. -/
def Obligations.RegisterAccesses : Prop :=
  ∀ (dt : Nat) (s : State), steady dt s = true → 0 < dt →
    (∀ (fn : Fin 256) (reg : BitVec 14) (be : BitVec 4) (x : Word),
      (fn ≠ 0 → Runs (.registerWrite dt fn true reg be x) s (fun t => t.regs = s.regs ∧ t.out = s.out) ∧
        Runs (.readClearRead dt fn true reg be) s (fun t => t.regs = s.regs ∧ t.out = s.out)) ∧
      (fnAnswers s fn = false → exec (.registerWrite dt fn false reg be x) s = .next (tick dt s) ∧
        exec (.readClearRead dt fn false reg be) s = .next (tick dt s)) ∧
      (∀ glob : Bool, reaches s fn glob (4 * reg.toNat) = true → mapped fn glob (4 * reg.toNat) = false →
        Runs (.registerWrite dt fn glob reg be x) s (fun t => isSet t (CLI_REG_STATUS_UNMAPPED fn) = true ∧ t.slots = s.slots ∧
          OnlyRegs s t [CLI_REG_STATUS fn]) ∧
        Runs (.readClearRead dt fn glob reg be) s (fun t => isSet t (CLI_REG_STATUS_UNMAPPED fn) = true ∧
          t.out = .readData fn (if glob then 4 * reg.toNat else clientBase fn + 4 * reg.toNat) 0#32 :: s.out ∧
            OnlyRegs s t [CLI_REG_STATUS fn])) ∧
      (∀ glob : Bool, reaches s fn glob (4 * reg.toNat) = true → mapped fn glob (4 * reg.toNat) = true → be ≠ 15#4 →
        Runs (.registerWrite dt fn glob reg be x) s (fun t => isSet t (CLI_REG_STATUS_PARTIAL fn) = true ∧ t.slots = s.slots ∧
          OnlyRegs s t [CLI_REG_STATUS fn]))) ∧
    (∀ x : Word, Runs (.registerWrite dt 0 true (BitVec.ofNat 14 (HL_SHED_CFG / 4)) 15#4 x) s (fun t =>
      rd t HL_SHED_CFG_SHED_TIMEOUT = HL_SHED_CFG_SHED_TIMEOUT.fix.apply (bits x 15 0) % 65536 ∧ OnlyRegs s t [HL_SHED_CFG])) ∧
    Runs (.readClearRead dt 0 true (BitVec.ofNat 14 (HL_LOAD / 4)) 15#4) s (fun t => rd t HL_LOAD_MAX = 0 ∧
      rd t HL_LOAD_LOAD = rd s HL_LOAD_LOAD ∧ t.out = .readData 0 HL_LOAD (wordNow s (globalFields HL_LOAD)) :: s.out) ∧
    (∀ (i : Fin 4) (x : Word),
      (rotating (tick dt s) = false → Runs (.whlInCfgWrite dt i x) s (fun t => Holds t (WHL_IN_CFG i) x ∧ OnlyRegs s t [WHL_IN_CFG i])) ∧
      (rotating (tick dt s) = true → Runs (.whlInCfgWrite dt i x) s (fun t => isSet t WHL_STATUS_CFG_REJ = true ∧
        t.angle = s.angle ∧ OnlyRegs s t [WHL_STATUS])) ∧
      (bits x 7 0 < bits x 15 8 → bits x 15 8 < bits x 23 16 → bits x 23 16 < bits x 31 24 → Runs (.whlDirCfgWrite dt x) s (fun t =>
        Holds t WHL_DIR_CFG x ∧ OnlyRegs s t [WHL_DIR_CFG])) ∧
      (bits x 31 24 ≤ bits x 23 16 → Runs (.whlDirCfgWrite dt x) s (fun t => isSet t WHL_STATUS_CFG_REJ = true ∧ OnlyRegs s t [WHL_STATUS])) ∧
      (rotating (tick dt s) = true → Runs (.angBandWrite dt i x) s (fun t => isSet t ANG_STATUS_CFG_REJ = true ∧
        t.angle = s.angle ∧ OnlyRegs s t [ANG_STATUS])) ∧
      (let written := swWrite (bandOff i) (globalFields (bandOff i)) x (tick dt s)
       rotating (tick dt s) = false → rising (bandLimits written) = true → Runs (.angBandWrite dt i x) s (fun t =>
         Holds t (bandOff i) x ∧ t.angle.firing = if bandLimits written = bandLimits s then s.angle.firing else []))) ∧
    (∀ (n : Fin 256) (x : Word),
      (rd s (CLI_SEQ_USE_USED n) ≤ x.toNat % 65536 → quotaSum s - quotaOf s n + x.toNat % 65536 ≤ 32768 → Runs (.seqQuotaWrite dt n x) s (fun t =>
        Holds t (SEQ_QUOTA n) x ∧ OnlyRegs s t [SEQ_QUOTA n])) ∧
      (x.toNat % 65536 < rd s (CLI_SEQ_USE_USED n) → Runs (.seqQuotaWrite dt n x) s (fun t => isSet t SEQ_STATUS_CFG_REJ = true ∧
        OnlyRegs s t [SEQ_STATUS]))) ∧
    (∀ (p : Fin 4) (x : Word),
      (rd s (PLS_CTRL_RUNNING p) = 0 → Runs (.plsOwnerWrite dt p x) s (fun t => rd t (PLS_CTRL_OWNER p) = bits x 15 8 ∧
        OnlyRegs s t [PLS_CTRL p])) ∧
      (rd s (PLS_CTRL_RUNNING p) ≠ 0 → Runs (.plsOwnerWrite dt p x) s (fun t => isSet t (PLS_STATUS_CFG_REJ p) = true ∧
        OnlyRegs s t [PLS_STATUS p])))

/-! ### Wheel and angle commands (wheel R40 to R68, angle R80 to R110) -/

/-- R40, R41, R68, R74, R80, R81, R102, R104, R110, Tables 2-3 and 3-2. A sound wheel description for an engine at rest comes into force,
and the search for sync begins on crank A. `RESYNC` in SEEK is answered, and in SIGHTED goes back to SEEK. A sound station table for an
engine at rest is taken. `LEARN_CLOSURE` in the conditions of Table 3-2 begins learning, and its answer waits. `CLOSURE_MAP_GET` answers
with the input's map, and a sound map put waits for tooth position 0 with its answer. `FIRING_TABLE_CLEAR` is noted for the next crossing. -/
def Obligations.WheelCommands : Prop :=
  ∀ (m : Msg) (s : State),
    (Accepted 0x0130 m s → rotating s = false → syncState s = 0 → wheelBad m = none → wheelRefusal (wheelOf m) = none →
      Answers (.loadWheel m true) s 0x0130 m [] (fun u => u.angle.wheel = some (wheelOf m) ∧ syncState u = 0 ∧ srcOf u = 0 ∧
        u.seq = s.seq ∧ u.angle.stations = s.angle.stations)) ∧
    (∀ w : Wheel, Accepted 0x0131 m s → s.angle.wheel = some w → s.angle.stations ≠ [] →
      (syncState s = 0 → Answers (.resync m) s 0x0131 m [] (fun u => u = s)) ∧
      (syncState s = 1 → inputOn s 0 = true → s.acq = {} → Answers (.resync m) s 0x0131 m [] (fun u => syncState u = 0 ∧ srcOf u = 0 ∧
        u.angle.wheel = some w))) ∧
    (let n := bits (word m 0) 4 0
     let l := (m.words.drop 1).map (fun x => bits x 31 8)
     Accepted 0x0132 m s → 0 < n → n ≤ 24 → m.words.length = n + 1 → rotating s = false →
       reservedBad m (0x1F :: List.replicate n 0xFFFFFF00) = none → l.headD 1 = 0 → l.Nodup →
       Answers (.loadStations m true) s 0x0132 m [] (fun u => u.angle = { s.angle with stations := l } ∧ u.regs = s.regs)) ∧
    (∀ w : Wheel,
      let force := bitOf (word m 0).toNat 8
      let n := if bits (word m 0) 7 0 = 0 then 16 else bits (word m 0) 7 0
      Accepted 0x0140 m s → s.angle.wheel = some w → synced s = true → limping s = false → (injecting s = false ∨ force = true) →
        reversed s = false → s.angle.learn = none → 8 ≤ n → n ≤ 64 → (word m 0).toNat < 512 → mirrored s = false →
        Runs (.learnClosure m) s (fun t => isSet t ANG_STATUS_CL_LEARNING = true ∧ OnlyRegs s t [ANG_STATUS] ∧ t.out = s.out ∧
          ∃ l, t.angle = { s.angle with learn := some l } ∧ l.cmd = m ∧ l.force = force ∧ l.outcome = none ∧
            l.revs = (if force then 64 else n) * (if w.stroke = 2 then 1 else 2))) ∧
    (∀ w : Wheel, Accepted 0x0141 m s → reservedBad m [1] = none → s.angle.wheel = some w →
      Answers (.closureMapGet m) s 0x0141 m (mapWords w (mapOf s (word m 0).toNat)) (fun u => u = s)) ∧
    (∀ w : Wheel,
      let v0 := word m 0
      let p := bits v0 31 22
      let key : WheelKey := ⟨if bitOf v0.toNat 19 then 4 else 2, p, bits v0 21 20, bits (word m 1) 31 8⟩
      Accepted 0x0142 m s → s.angle.wheel = some w → key = w.key → 12 ≤ p → p ≤ 720 → m.words.length = p + 2 → rotating s = false →
        reservedBad m (0xFFFF0000 :: 0xFFFFFF00 :: List.replicate p 0xFFFF) = none → mapBreaks w (bits v0 18 17) (putEntries m) = false →
        mirrored s = false → Runs (.closureMapPut m) s (fun t => t.regs = s.regs ∧ t.out = s.out ∧
          ∃ c : ClosureMap, t.angle = { s.angle with mapNext := s.angle.mapNext ++ [{ input := bits v0 16 16, key, map := c, cmd := some m }] } ∧
            c.quality = bits v0 18 17 ∧ ∀ r, r < p → Tbl.get 0 c.entries r = signed 16 (bits (word m (r + 2)) 15 0))) ∧
    (Accepted 0x0143 m s → Answers (.firingTableClear m) s 0x0143 m [] (fun u => u = { s with angle := { s.angle with clearTable := true } }))

/-! ### Pulse commands (pulse R158 to R183) -/

/-- R158, R159, R166, R173, R179 to R183, R520. An image whose checks pass is loaded into the idle bank of its owner's pair, the active bank
as it was. `PULSE_SWITCH` of a loaded bank waits for the exchange. A named context that does not run starts at its entry point with every
register 0, due in the next pace, and one that does is left; `PULSE_STOP` halts the named contexts; no other context changes. Parameters put
before the pulse shares of a pace are stored each with its complement, and later ones wait; they are read back as stored. Words put are
appended to the host queue, and words got leave theirs. -/
def Obligations.PulseCommands : Prop :=
  ∀ (m : Msg) (s : State),
    let p := (word m 0).toNat % 4
    plsOwner s p = m.client →
    (Accepted 0x0150 m s → 4 ≤ m.words.length → isSet s (PLS_CTRL_SWITCH_PEND p) = false → imageSound m.words = true →
      bindsOk s p m.client (imageBinds m.words) = true → Answers (.loadPulseImage m) s 0x0150 m [] (fun u =>
        isSet u (PLS_CTRL_LOADED p) = true ∧ plsBank u p = plsBank s p ∧ OnlyRegs s u [PLS_CTRL p] ∧
          (if isSet s (PLS_CTRL_BANK p) then (plsAt u p).bank0 else (plsAt u p).bank1) =
            ⟨codeOf 0 (m.words.drop 68), imageBinds m.words⟩)) ∧
    (Accepted 0x0151 m s → word m 0 &&& ~~~3#32 = 0 → isSet s (PLS_CTRL_LOADED p) = true → isSet s (PLS_CTRL_SWITCH_PEND p) = false →
      Runs (.pulseSwitch m) s (fun t => plsAt t p = { plsAt s p with switch := some (m, s.cyc) } ∧
        isSet t (PLS_CTRL_SWITCH_PEND p) = true ∧ t.out = s.out ∧ OnlyRegs s t [PLS_CTRL p])) ∧
    (Accepted 0x0152 m s → word m 0 &&& ~~~0xFFFF0003#32 = 0 → (pairAt s p).halted = false → Answers (.pulseStart m) s 0x0152 m [] (fun u =>
      (∀ i, i < 16 → bitOf (word m 0).toNat (16 + i) = true → (ctxAt s (16 * p + i)).runs = false →
        (ctxAt u (16 * p + i)).pc = (bindOf s (16 * p + i)).entry ∧ (∀ r, (ctxAt u (16 * p + i)).reg r = 0) ∧
          ∃ k, (ctxAt u (16 * p + i)).run = .ready 4 k (s.cyc / 100 + 1) none) ∧
      (∀ n, ((ctxAt s n).runs = true ∨ n / 16 ≠ p ∨ bitOf (word m 0).toNat (16 + n % 16) = false) → ctxAt u n = ctxAt s n))) ∧
    (Accepted 0x0153 m s → word m 0 &&& ~~~0xFFFF0003#32 = 0 → (∀ o, (laneAt s o).on = false) → s.pulse.gpo = 0 → s.pulse.pads = 0 →
      Answers (.pulseStop m) s 0x0153 m [] (fun u =>
        (∀ i, i < 16 → bitOf (word m 0).toNat (16 + i) = true → (ctxAt u (16 * p + i)).run = .halted ∧
          ((ctxAt s (16 * p + i)).run ≠ .halted → (ctxAt u (16 * p + i)).wait = none)) ∧
        (∀ n, ((ctxAt s n).run = .halted ∨ n / 16 ≠ p ∨ bitOf (word m 0).toNat (16 + n % 16) = false) → ctxAt u n = ctxAt s n))) ∧
    (let n := paramCount m
     let a := paramFirst m
     0 < n → n ≤ 16 → word m 0 &&& ~~~0x0FFF1F03#32 = 0 → a + n ≤ 2048 →
       (Accepted 0x0154 m s → m.words.length = n + 1 →
         (s.cyc % 100 < 60 → Answers (.pulseParamPut m) s 0x0154 m [] (fun u =>
           (∀ i, i < n → paramAt u p (a + i) = ((word m (i + 1)).toNat, 2 ^ 32 - 1 - (word m (i + 1)).toNat)) ∧
           (∀ q b, (q ≠ p ∨ b < a ∨ a + n ≤ b) → paramAt u q b = paramAt s q b) ∧ u.regs = s.regs)) ∧
         (60 ≤ s.cyc % 100 → Runs (.pulseParamPut m) s (fun t => t.regs = s.regs ∧ t.out = s.out ∧
           plsAt t p = { plsAt s p with puts := (plsAt s p).puts ++ [m] }))) ∧
       (Accepted 0x0155 m s → Answers (.pulseParamGet m) s 0x0155 m
         ((List.range n).flatMap (fun i => [wd (paramAt s p (a + i)).1, wd (paramAt s p (a + i)).2])) (fun u => u = s))) ∧
    (let n := queueCount m
     0 < n → n ≤ 16 → word m 0 &&& ~~~0x001F0303#32 = 0 →
       (let q := 8 + bits (word m 0) 9 8
        Accepted 0x0156 m s → m.words.length = n + 1 → (queueAt s p q).length + n ≤ 32 → Answers (.pulseQueuePut m) s 0x0156 m [] (fun u =>
          queueAt u p q = queueAt s p q ++ (m.words.drop 1).map (fun w => w.toNat) ∧ u.regs = s.regs)) ∧
       (let q := 12 + bits (word m 0) 9 8
        let l := queueAt s p q
        Accepted 0x0157 m s → l ≠ [] → Answers (.pulseQueueGet m) s 0x0157 m (wd (min n l.length) :: (l.take n).map wd) (fun u =>
          queueAt u p q = l.drop n)))

/-! ### Event commands (scheduling R118 to R154) -/

/-- Every descriptor but `i` is as it was. -/
def OtherDescs (s t : State) (i : Nat) : Prop := ∀ k, k ≠ i → desc t k = desc s k

/-- R118, R120, R144 to R151, R154, R523, Tables 4-2 and 4-5. An admitted event takes a free descriptor, the next serial number and a unit of
its client's quota, and is answered with its index. A message whose pairs fail at hop 2 is refused with F_0202. `CANCEL_EVENT` frees a descriptor that is not fixed, and defers for a recurring one that
is. `UPDATE_EVENT` changes a waiting descriptor at once. `EVENT_QUERY` answers with the words of a descriptor. `BANK_SWITCH` waits for its
cycle, and `BANK_CLEAR` frees the descriptors of the shadow bank. `SAFETY_CUT` inhibits the named outputs with F_0114, and `SAFETY_RELEASE`
names those that the next pace releases. -/
def Obligations.EventCommands : Prop :=
  ∀ (m : Msg) (s : State),
    let i := (word m 0).toNat
    (∀ (w : Wheel) (k : Nat), Accepted 0x0210 m s →
      ((bitOf (word m 0).toNat 16 = false ∧ bitOf (word m 0).toNat 17 = false) ∨ 0x20 ≤ versionOf s m.client) → m.words.length = 6 →
      reservedBad m armMasks = none → s.angle.wheel = some w → s.angle.stations ≠ [] → admitCheck s w m (askedDesc s w m) = none →
      freeIndex s = some k → Answers (.armEvent m true) s 0x0210 m [wd k] (fun u => OtherDescs s u k ∧ u.seq.nextSerial = serialAfter s.seq.nextSerial ∧
        rd u (CLI_SEQ_USE_USED m.client) = (rd s (CLI_SEQ_USE_USED m.client) + 1) % 65536 ∧ OnlyRegs s u [CLI_SEQ_USE m.client] ∧
          ∃ d, desc u k = some d ∧ d.stage = .waiting ∧ d.channel = bits (word m 0) 31 24 ∧ d.profile = bits (word m 0) 23 18 ∧
            d.bank = bits (word m 0) 16 16 ∧ d.flags = bits (word m 0) 15 8 ∧ d.duration = (word m 2).toNat ∧ d.client = m.client ∧
              d.sequence = m.seq ∧ d.serial = s.seq.nextSerial)) ∧
    (∀ d : Desc, desc s i = some d → d.client = m.client → d.frozen s = false → reservedBad m [0x0000FFFF] = none → Accepted 0x0211 m s →
      (d.stage.fixed = false → Answers (.cancelEvent m true) s 0x0211 m [] (fun u => desc u i = none ∧ OtherDescs s u i ∧
        rd u (CLI_SEQ_USE_USED m.client) = (rd s (CLI_SEQ_USE_USED m.client) - 1) % 65536) ∧
        Refuses (.cancelEvent m false) s 0x0211 m 0x01 2 (fun u => Detects u 0x0202 ∧ u.seq = s.seq)) ∧
      (d.stage.fixed = true → d.recurring = true → Refuses (.cancelEvent m true) s 0x0211 m 0x020B 0 (fun u =>
        desc u i = some { d with lastOne := true } ∧ OtherDescs s u i ∧ u.regs = s.regs))) ∧
    (∀ (d : Desc) (w : Wheel), desc s i = some d → d.client = m.client → d.stage = .waiting → d.toothLocked = false →
      reservedBad m [0x0000FFFF, 0xFFFFFFF8, 0xFFFFFFFF, 0xFFFFFF00] = none → updateCheck s m d = none → s.angle.wheel = some w →
      Accepted 0x0212 m s → Answers (.updateEvent m true) s 0x0212 m [] (fun u => OtherDescs s u i ∧ u.regs = s.regs ∧
        desc u i = some { d with
          endAngle := ofSigned 24 (s.angle.stations.getD (bits (word m 1) 7 3) 0 + signed 24 (bits (word m 1) 31 8))
          duration := (word m 2).toNat
          armLead := leadOf w (bits (word m 3) 31 8) })) ∧
    (∀ d : Desc, desc s i = some d → reservedBad m [0x0000FFFF] = none → Accepted 0x0240 m s →
      Answers (.eventQuery m true) s 0x0240 m d.words (fun u => u = s)) ∧
    (let b := bankFields m.client (bitOf (word m 0).toNat 0)
     let gap := ((word m 1).toNat + 2 ^ 32 - rd s SEQ_CYCLE_CYCLE) % 2 ^ 32
     Accepted 0x0220 m s → reservedBad m [1, 0xFFFFFFFF] = none → gap ≠ 0 → gap ≤ 65535 → isSet s b.1 = false →
       Answers (.bankSwitch m true) s 0x0220 m [] (fun u => isSet u b.1 = true ∧ rd u b.2.2 = (word m 1).toNat ∧ rd u b.2.1 = rd s b.2.1)) ∧
    (let astern := bitOf (word m 0).toNat 0
     let b := bankFields m.client astern
     let l := s.seq.descs.filter (fun x => x.2.client == m.client && x.2.astern == astern && x.2.bank != rd s b.2.1 && !x.2.frozen s)
     Accepted 0x0221 m s → reservedBad m [1] = none → isSet s b.1 = false → l.all (fun x => !x.2.stage.fixed) = true →
       Answers (.bankClear m true) s 0x0221 m [wd l.length] (fun u => ∀ x ∈ l, desc s x.1 = some x.2 → desc u x.1 = none)) ∧
    (Accepted 0x0230 m s → reservedBad m [0xFFFFFFFF, 0xFFFF000F] = none → (∀ o, (laneAt s o).on = false) →
      s.seq.descs.all (fun x => !x.2.stage.fixed) = true → Answers (.safetyCut m true) s 0x0230 m [] (fun u => Detects u 0x0114 ∧
        u.seq.descs = s.seq.descs ∧ ∀ o, o < 52 → bitOf u.seq.inhibit o = (bitOf s.seq.inhibit o || (cutOutputs s m).contains o))) ∧
    (Accepted 0x0231 m s → reservedBad m [0xFFFFFFFF, 0xFFFF000F] = none → Answers (.safetyRelease m true) s 0x0231 m [] (fun u =>
      u.seq.inhibit = s.seq.inhibit ∧ u.regs = s.regs ∧
        ∀ o, o < 52 → bitOf u.seq.release o = (bitOf s.seq.release o || (releaseNames s m).contains o)))

/-! ### The whole block -/

/-- A step takes the command that waits longest and runs it on the state with the queue's rest; with none waiting nothing happens (log
entry 1). -/
def Obligations.StepRunsFront : Prop :=
  (∀ (c : Instr) (rest : List Instr) (s : State), s.pending = c :: rest → step s = exec c { s with pending := rest }) ∧
  (∀ s : State, s.pending = [] → step s = .next s)

/-- R16, R430. The state after reset is sound, awake, at cycle 0, with nothing waiting, stored, armed or running, no session and no
output enabled; every register field reads its reset value. The values that the tables do not state are the model's (log entries 3
to 6). -/
def Obligations.ResetState : Prop :=
  Sound State.reset ∧ awake State.reset = true ∧ State.reset.cyc = 0 ∧ State.reset.pending = [] ∧ State.reset.seq.descs = [] ∧
    State.reset.acq.sample = [] ∧ (∀ o, (laneAt State.reset o).on = false) ∧ (∀ n, (ctxAt State.reset n).runs = false) ∧
      (∀ c, sessionOpen State.reset c = false) ∧ (∀ c, energised State.reset c = false) ∧ syncState State.reset = 0 ∧ role State.reset = 3 ∧
        boostState State.reset 0 = 0 ∧ boostState State.reset 1 = 0 ∧ ∀ f : Fld, rd State.reset f = f.reset

/-- Every step keeps a sound state sound: the sample memory keeps its canonical form, and only registers of access type PW hold the value
half of a pair, none of them two (R9, R316). -/
def Obligations.StepKeepsSound : Prop := ∀ s t : State, Sound s → step s = .next t → Sound t

/-- Flash is programmed by two commands alone: no other one changes the image slots, the boot record's preference, the start-up records or
the anti-rollback counter (R430, R432, R435, R440, R444). No step lowers the counter. -/
def Obligations.FlashContents : Prop :=
  (∀ (c : Instr) (s t : State), Memory.wf s = true → (∀ m, c ≠ .fwLoad m) → (∀ dt image, c ≠ .flashWriteDone dt image) → exec c s = .next t →
    t.boot.slotA = s.boot.slotA ∧ t.boot.slotB = s.boot.slotB ∧ t.boot.preferred = s.boot.preferred ∧ t.boot.recA = s.boot.recA ∧
      t.boot.recB = s.boot.recB ∧ t.boot.counter = s.boot.counter) ∧
  (∀ s t : State, Sound s → step s = .next t → s.boot.counter ≤ t.boot.counter)

/-- The commands in which acquisition may store samples: a conversion that ends, a knock window that closes, and the events of the wheel and
of the list triggers that begin or end runs and windows. -/
def storesSamples (c : Instr) : Bool :=
  match c with
  | .trackerDisagree .. | .crankEdge .. | .camEdge .. | .camWindowExpiry .. | .coast .. | .frozenInput .. | .pulseStakeFire ..
  | .acqAngleTrigger .. | .acqTimeTrigger .. | .conversionDone .. | .knockWindowOpen .. | .knockTrigger .. | .knockWindowClose ..
  | .loadWheel .. | .resync .. => true
  | _ => false

/-- The commands that may be or bring a full reset, which empties the sample memory (R430, R457). -/
def mayReset (c : Instr) : Bool :=
  match c with
  | .supplyFault .. | .entryWindowEnd .. | .wakeEvent .. | .pmbusAck .. | .pmbusTimeout => true
  | _ => false

/-- R316, R317, R328. Only acquisition and a full reset change the sample memory, and only an access of PCI Express, the cycle that ends a
slot's time, and a reset change the slots of paired writes. -/
def Obligations.StoredWords : Prop :=
  ∀ (c : Instr) (s t : State), Memory.wf s = true → exec c s = .next t →
    (storesSamples c = false → mayReset c = false → t.acq.sample = s.acq.sample) ∧
    (mayReset c = false → t.slots ≠ s.slots →
      (∃ dt b, c = .perst dt b) ∨ (∃ dt, c = .hotReset dt) ∨ (∃ dt fn, c = .functionLevelReset dt fn) ∨
        (∃ dt k x, c = .pairedWriteValue dt k x) ∨ (∃ dt k x, c = .pairedWriteComplement dt k x) ∨
          (∃ dt, c = .pairedWriteExpiry dt) ∨ ∃ dt fn g r be x, c = .registerWrite dt fn g r be x)

/-- R32, R33, R511, R513, R514, Tables 13-4 and 19-2. Whatever it asks for, once it is its turn, a command of a client without a session (but `HELLO`) is refused with
NO_SESSION, one below the version of its opcode with VERSION_DENIED, one whose response fits nowhere with NO_RESP_BUFFER, one of a class that the opcode is not open to with CLASS_DENIED, and one
whose fixed number of value words differs with FIELD_RANGE, detail 0xFF, in this order; nothing else changes. A firmware-path command has no
effect while firmware does not run, and none has any before its turn. -/
def Obligations.CommonChecks : Prop :=
  ∀ (c : Instr) (code : Nat) (m : Msg) (r : OpRow) (s : State), messageOf c = some (code, m) → opRow code = some r → awake s = true →
    let refuses := fun (status detail : Nat) => exec c s = .next (respond code m status detail [] s)
    (code < 0x0200 ∨ 0x0300 ≤ code → firmwareRuns s = false → exec c s = .next s) ∧
    (itsTurn code m s = false → exec c s = .next s) ∧
    (itsTurn code m s = true → (firmwareRuns s = true ∨ (0x0200 ≤ code ∧ code < 0x0300)) →
      (code ≠ 1 → sessionOpen s m.client = false → refuses 0x17 0) ∧
      (code ≠ 1 → sessionOpen s m.client = true → versionOf s m.client < r.since → refuses 0x1A 0) ∧
      (sessionOpen s m.client = true → r.since ≤ versionOf s m.client → (m.urgent = true → 0x30 ≤ versionOf s m.client) →
        let fits := answerFits s m.client (rspWords s code m.words)
        (m.rspLen = 0 → fits = false → refuses 0x15 0) ∧
        (m.rspLen ≠ 0 ∨ fits = true →
          (r.any = false → classOf s m.client ≠ 0 → (r.control = false ∨ classOf s m.client ≠ 1) → refuses 0x02 0) ∧
          (∀ n, classAllows r (classOf s m.client) = true → r.words = some n → m.words.length ≠ n → refuses 0x0B 0xFF))))

/-- No command stops the block: every step answers a next state, and its queue is the queue's rest. -/
def Obligations.StepsGoOn : Prop := ∀ s : State, Sound s → ∃ t, step s = .next t ∧ t.pending = s.pending.tail
end

