-- ==== Sys2Proof/Laws/State.lean ====
section
/-! SUPPORT. What each elementary update of the state leaves: one lemma per field and update. -/
namespace Sys2Proof.Machine
variable (s : State)

/-! ### `wr` -/

@[simp] theorem wr_cyc (f : Fld) (v : Nat) : (wr f v s).cyc = s.cyc := rfl
@[simp] theorem wr_pending (f : Fld) (v : Nat) : (wr f v s).pending = s.pending := rfl
@[simp] theorem wr_out (f : Fld) (v : Nat) : (wr f v s).out = s.out := rfl
@[simp] theorem wr_hw (f : Fld) (v : Nat) : (wr f v s).hw = s.hw := rfl
@[simp] theorem wr_sw (f : Fld) (v : Nat) : (wr f v s).sw = s.sw := rfl
@[simp] theorem wr_barred (f : Fld) (v : Nat) : (wr f v s).barred = s.barred := rfl
@[simp] theorem wr_slots (f : Fld) (v : Nat) : (wr f v s).slots = s.slots := rfl
@[simp] theorem wr_fresh (f : Fld) (v : Nat) : (wr f v s).fresh = s.fresh := rfl
@[simp] theorem wr_faults (f : Fld) (v : Nat) : (wr f v s).faults = s.faults := rfl
@[simp] theorem wr_boot (f : Fld) (v : Nat) : (wr f v s).boot = s.boot := rfl
@[simp] theorem wr_power (f : Fld) (v : Nat) : (wr f v s).power = s.power := rfl
@[simp] theorem wr_rtc (f : Fld) (v : Nat) : (wr f v s).rtc = s.rtc := rfl
@[simp] theorem wr_book (f : Fld) (v : Nat) : (wr f v s).book = s.book := rfl
@[simp] theorem wr_host (f : Fld) (v : Nat) : (wr f v s).host = s.host := rfl
@[simp] theorem wr_can (f : Fld) (v : Nat) : (wr f v s).can = s.can := rfl
@[simp] theorem wr_intc (f : Fld) (v : Nat) : (wr f v s).intc = s.intc := rfl
@[simp] theorem wr_acq (f : Fld) (v : Nat) : (wr f v s).acq = s.acq := rfl
@[simp] theorem wr_angle (f : Fld) (v : Nat) : (wr f v s).angle = s.angle := rfl
@[simp] theorem wr_seq (f : Fld) (v : Nat) : (wr f v s).seq = s.seq := rfl
@[simp] theorem wr_drive (f : Fld) (v : Nat) : (wr f v s).drive = s.drive := rfl
@[simp] theorem wr_periph (f : Fld) (v : Nat) : (wr f v s).periph = s.periph := rfl
@[simp] theorem wr_pulse (f : Fld) (v : Nat) : (wr f v s).pulse = s.pulse := rfl
@[simp] theorem wr_tie (f : Fld) (v : Nat) : (wr f v s).tie = s.tie := rfl
@[simp] theorem wr_dma (f : Fld) (v : Nat) : (wr f v s).dma = s.dma := rfl

/-! ### `wrB` -/

@[simp] theorem wrB_cyc (f : Fld) (b : Bool) : (wrB f b s).cyc = s.cyc := rfl
@[simp] theorem wrB_pending (f : Fld) (b : Bool) : (wrB f b s).pending = s.pending := rfl
@[simp] theorem wrB_out (f : Fld) (b : Bool) : (wrB f b s).out = s.out := rfl
@[simp] theorem wrB_hw (f : Fld) (b : Bool) : (wrB f b s).hw = s.hw := rfl
@[simp] theorem wrB_sw (f : Fld) (b : Bool) : (wrB f b s).sw = s.sw := rfl
@[simp] theorem wrB_barred (f : Fld) (b : Bool) : (wrB f b s).barred = s.barred := rfl
@[simp] theorem wrB_slots (f : Fld) (b : Bool) : (wrB f b s).slots = s.slots := rfl
@[simp] theorem wrB_fresh (f : Fld) (b : Bool) : (wrB f b s).fresh = s.fresh := rfl
@[simp] theorem wrB_faults (f : Fld) (b : Bool) : (wrB f b s).faults = s.faults := rfl
@[simp] theorem wrB_boot (f : Fld) (b : Bool) : (wrB f b s).boot = s.boot := rfl
@[simp] theorem wrB_power (f : Fld) (b : Bool) : (wrB f b s).power = s.power := rfl
@[simp] theorem wrB_rtc (f : Fld) (b : Bool) : (wrB f b s).rtc = s.rtc := rfl
@[simp] theorem wrB_book (f : Fld) (b : Bool) : (wrB f b s).book = s.book := rfl
@[simp] theorem wrB_host (f : Fld) (b : Bool) : (wrB f b s).host = s.host := rfl
@[simp] theorem wrB_can (f : Fld) (b : Bool) : (wrB f b s).can = s.can := rfl
@[simp] theorem wrB_intc (f : Fld) (b : Bool) : (wrB f b s).intc = s.intc := rfl
@[simp] theorem wrB_acq (f : Fld) (b : Bool) : (wrB f b s).acq = s.acq := rfl
@[simp] theorem wrB_angle (f : Fld) (b : Bool) : (wrB f b s).angle = s.angle := rfl
@[simp] theorem wrB_seq (f : Fld) (b : Bool) : (wrB f b s).seq = s.seq := rfl
@[simp] theorem wrB_drive (f : Fld) (b : Bool) : (wrB f b s).drive = s.drive := rfl
@[simp] theorem wrB_periph (f : Fld) (b : Bool) : (wrB f b s).periph = s.periph := rfl
@[simp] theorem wrB_pulse (f : Fld) (b : Bool) : (wrB f b s).pulse = s.pulse := rfl
@[simp] theorem wrB_tie (f : Fld) (b : Bool) : (wrB f b s).tie = s.tie := rfl
@[simp] theorem wrB_dma (f : Fld) (b : Bool) : (wrB f b s).dma = s.dma := rfl

/-! ### `flag` -/

@[simp] theorem flag_cyc (f : Fld) : (flag f s).cyc = s.cyc := rfl
@[simp] theorem flag_pending (f : Fld) : (flag f s).pending = s.pending := rfl
@[simp] theorem flag_out (f : Fld) : (flag f s).out = s.out := rfl
@[simp] theorem flag_sw (f : Fld) : (flag f s).sw = s.sw := rfl
@[simp] theorem flag_barred (f : Fld) : (flag f s).barred = s.barred := rfl
@[simp] theorem flag_slots (f : Fld) : (flag f s).slots = s.slots := rfl
@[simp] theorem flag_fresh (f : Fld) : (flag f s).fresh = s.fresh := rfl
@[simp] theorem flag_faults (f : Fld) : (flag f s).faults = s.faults := rfl
@[simp] theorem flag_boot (f : Fld) : (flag f s).boot = s.boot := rfl
@[simp] theorem flag_power (f : Fld) : (flag f s).power = s.power := rfl
@[simp] theorem flag_rtc (f : Fld) : (flag f s).rtc = s.rtc := rfl
@[simp] theorem flag_book (f : Fld) : (flag f s).book = s.book := rfl
@[simp] theorem flag_host (f : Fld) : (flag f s).host = s.host := rfl
@[simp] theorem flag_can (f : Fld) : (flag f s).can = s.can := rfl
@[simp] theorem flag_intc (f : Fld) : (flag f s).intc = s.intc := rfl
@[simp] theorem flag_acq (f : Fld) : (flag f s).acq = s.acq := rfl
@[simp] theorem flag_angle (f : Fld) : (flag f s).angle = s.angle := rfl
@[simp] theorem flag_seq (f : Fld) : (flag f s).seq = s.seq := rfl
@[simp] theorem flag_drive (f : Fld) : (flag f s).drive = s.drive := rfl
@[simp] theorem flag_periph (f : Fld) : (flag f s).periph = s.periph := rfl
@[simp] theorem flag_pulse (f : Fld) : (flag f s).pulse = s.pulse := rfl
@[simp] theorem flag_tie (f : Fld) : (flag f s).tie = s.tie := rfl
@[simp] theorem flag_dma (f : Fld) : (flag f s).dma = s.dma := rfl

/-! ### `flagBit` -/

@[simp] theorem flagBit_cyc (f : Fld) (i : Nat) : (flagBit f i s).cyc = s.cyc := rfl
@[simp] theorem flagBit_pending (f : Fld) (i : Nat) : (flagBit f i s).pending = s.pending := rfl
@[simp] theorem flagBit_out (f : Fld) (i : Nat) : (flagBit f i s).out = s.out := rfl
@[simp] theorem flagBit_sw (f : Fld) (i : Nat) : (flagBit f i s).sw = s.sw := rfl
@[simp] theorem flagBit_barred (f : Fld) (i : Nat) : (flagBit f i s).barred = s.barred := rfl
@[simp] theorem flagBit_slots (f : Fld) (i : Nat) : (flagBit f i s).slots = s.slots := rfl
@[simp] theorem flagBit_fresh (f : Fld) (i : Nat) : (flagBit f i s).fresh = s.fresh := rfl
@[simp] theorem flagBit_faults (f : Fld) (i : Nat) : (flagBit f i s).faults = s.faults := rfl
@[simp] theorem flagBit_boot (f : Fld) (i : Nat) : (flagBit f i s).boot = s.boot := rfl
@[simp] theorem flagBit_power (f : Fld) (i : Nat) : (flagBit f i s).power = s.power := rfl
@[simp] theorem flagBit_rtc (f : Fld) (i : Nat) : (flagBit f i s).rtc = s.rtc := rfl
@[simp] theorem flagBit_book (f : Fld) (i : Nat) : (flagBit f i s).book = s.book := rfl
@[simp] theorem flagBit_host (f : Fld) (i : Nat) : (flagBit f i s).host = s.host := rfl
@[simp] theorem flagBit_can (f : Fld) (i : Nat) : (flagBit f i s).can = s.can := rfl
@[simp] theorem flagBit_intc (f : Fld) (i : Nat) : (flagBit f i s).intc = s.intc := rfl
@[simp] theorem flagBit_acq (f : Fld) (i : Nat) : (flagBit f i s).acq = s.acq := rfl
@[simp] theorem flagBit_angle (f : Fld) (i : Nat) : (flagBit f i s).angle = s.angle := rfl
@[simp] theorem flagBit_seq (f : Fld) (i : Nat) : (flagBit f i s).seq = s.seq := rfl
@[simp] theorem flagBit_drive (f : Fld) (i : Nat) : (flagBit f i s).drive = s.drive := rfl
@[simp] theorem flagBit_periph (f : Fld) (i : Nat) : (flagBit f i s).periph = s.periph := rfl
@[simp] theorem flagBit_pulse (f : Fld) (i : Nat) : (flagBit f i s).pulse = s.pulse := rfl
@[simp] theorem flagBit_tie (f : Fld) (i : Nat) : (flagBit f i s).tie = s.tie := rfl
@[simp] theorem flagBit_dma (f : Fld) (i : Nat) : (flagBit f i s).dma = s.dma := rfl

/-! ### `bump` -/

@[simp] theorem bump_cyc (f : Fld) (n : Nat) : (bump f n s).cyc = s.cyc := rfl
@[simp] theorem bump_pending (f : Fld) (n : Nat) : (bump f n s).pending = s.pending := rfl
@[simp] theorem bump_out (f : Fld) (n : Nat) : (bump f n s).out = s.out := rfl
@[simp] theorem bump_sw (f : Fld) (n : Nat) : (bump f n s).sw = s.sw := rfl
@[simp] theorem bump_barred (f : Fld) (n : Nat) : (bump f n s).barred = s.barred := rfl
@[simp] theorem bump_slots (f : Fld) (n : Nat) : (bump f n s).slots = s.slots := rfl
@[simp] theorem bump_fresh (f : Fld) (n : Nat) : (bump f n s).fresh = s.fresh := rfl
@[simp] theorem bump_faults (f : Fld) (n : Nat) : (bump f n s).faults = s.faults := rfl
@[simp] theorem bump_boot (f : Fld) (n : Nat) : (bump f n s).boot = s.boot := rfl
@[simp] theorem bump_power (f : Fld) (n : Nat) : (bump f n s).power = s.power := rfl
@[simp] theorem bump_rtc (f : Fld) (n : Nat) : (bump f n s).rtc = s.rtc := rfl
@[simp] theorem bump_book (f : Fld) (n : Nat) : (bump f n s).book = s.book := rfl
@[simp] theorem bump_host (f : Fld) (n : Nat) : (bump f n s).host = s.host := rfl
@[simp] theorem bump_can (f : Fld) (n : Nat) : (bump f n s).can = s.can := rfl
@[simp] theorem bump_intc (f : Fld) (n : Nat) : (bump f n s).intc = s.intc := rfl
@[simp] theorem bump_acq (f : Fld) (n : Nat) : (bump f n s).acq = s.acq := rfl
@[simp] theorem bump_angle (f : Fld) (n : Nat) : (bump f n s).angle = s.angle := rfl
@[simp] theorem bump_seq (f : Fld) (n : Nat) : (bump f n s).seq = s.seq := rfl
@[simp] theorem bump_drive (f : Fld) (n : Nat) : (bump f n s).drive = s.drive := rfl
@[simp] theorem bump_periph (f : Fld) (n : Nat) : (bump f n s).periph = s.periph := rfl
@[simp] theorem bump_pulse (f : Fld) (n : Nat) : (bump f n s).pulse = s.pulse := rfl
@[simp] theorem bump_tie (f : Fld) (n : Nat) : (bump f n s).tie = s.tie := rfl
@[simp] theorem bump_dma (f : Fld) (n : Nat) : (bump f n s).dma = s.dma := rfl

/-! ### `lose` -/

@[simp] theorem lose_cyc (f : Fld) (n : Nat) : (lose f n s).cyc = s.cyc := by unfold lose; split <;> rfl
@[simp] theorem lose_pending (f : Fld) (n : Nat) : (lose f n s).pending = s.pending := by unfold lose; split <;> rfl
@[simp] theorem lose_out (f : Fld) (n : Nat) : (lose f n s).out = s.out := by unfold lose; split <;> rfl
@[simp] theorem lose_sw (f : Fld) (n : Nat) : (lose f n s).sw = s.sw := by unfold lose; split <;> rfl
@[simp] theorem lose_barred (f : Fld) (n : Nat) : (lose f n s).barred = s.barred := by unfold lose; split <;> rfl
@[simp] theorem lose_slots (f : Fld) (n : Nat) : (lose f n s).slots = s.slots := by unfold lose; split <;> rfl
@[simp] theorem lose_fresh (f : Fld) (n : Nat) : (lose f n s).fresh = s.fresh := by unfold lose; split <;> rfl
@[simp] theorem lose_faults (f : Fld) (n : Nat) : (lose f n s).faults = s.faults := by unfold lose; split <;> rfl
@[simp] theorem lose_boot (f : Fld) (n : Nat) : (lose f n s).boot = s.boot := by unfold lose; split <;> rfl
@[simp] theorem lose_power (f : Fld) (n : Nat) : (lose f n s).power = s.power := by unfold lose; split <;> rfl
@[simp] theorem lose_rtc (f : Fld) (n : Nat) : (lose f n s).rtc = s.rtc := by unfold lose; split <;> rfl
@[simp] theorem lose_book (f : Fld) (n : Nat) : (lose f n s).book = s.book := by unfold lose; split <;> rfl
@[simp] theorem lose_host (f : Fld) (n : Nat) : (lose f n s).host = s.host := by unfold lose; split <;> rfl
@[simp] theorem lose_can (f : Fld) (n : Nat) : (lose f n s).can = s.can := by unfold lose; split <;> rfl
@[simp] theorem lose_intc (f : Fld) (n : Nat) : (lose f n s).intc = s.intc := by unfold lose; split <;> rfl
@[simp] theorem lose_acq (f : Fld) (n : Nat) : (lose f n s).acq = s.acq := by unfold lose; split <;> rfl
@[simp] theorem lose_angle (f : Fld) (n : Nat) : (lose f n s).angle = s.angle := by unfold lose; split <;> rfl
@[simp] theorem lose_seq (f : Fld) (n : Nat) : (lose f n s).seq = s.seq := by unfold lose; split <;> rfl
@[simp] theorem lose_drive (f : Fld) (n : Nat) : (lose f n s).drive = s.drive := by unfold lose; split <;> rfl
@[simp] theorem lose_periph (f : Fld) (n : Nat) : (lose f n s).periph = s.periph := by unfold lose; split <;> rfl
@[simp] theorem lose_pulse (f : Fld) (n : Nat) : (lose f n s).pulse = s.pulse := by unfold lose; split <;> rfl
@[simp] theorem lose_tie (f : Fld) (n : Nat) : (lose f n s).tie = s.tie := by unfold lose; split <;> rfl
@[simp] theorem lose_dma (f : Fld) (n : Nat) : (lose f n s).dma = s.dma := by unfold lose; split <;> rfl

/-! ### `count` -/

@[simp] theorem count_cyc (f : Fld) (n : Nat) : (count f n s).cyc = s.cyc := by unfold count; split <;> simp
@[simp] theorem count_pending (f : Fld) (n : Nat) : (count f n s).pending = s.pending := by unfold count; split <;> simp
@[simp] theorem count_out (f : Fld) (n : Nat) : (count f n s).out = s.out := by unfold count; split <;> simp
@[simp] theorem count_sw (f : Fld) (n : Nat) : (count f n s).sw = s.sw := by unfold count; split <;> simp
@[simp] theorem count_barred (f : Fld) (n : Nat) : (count f n s).barred = s.barred := by unfold count; split <;> simp
@[simp] theorem count_slots (f : Fld) (n : Nat) : (count f n s).slots = s.slots := by unfold count; split <;> simp
@[simp] theorem count_fresh (f : Fld) (n : Nat) : (count f n s).fresh = s.fresh := by unfold count; split <;> simp
@[simp] theorem count_faults (f : Fld) (n : Nat) : (count f n s).faults = s.faults := by unfold count; split <;> simp
@[simp] theorem count_boot (f : Fld) (n : Nat) : (count f n s).boot = s.boot := by unfold count; split <;> simp
@[simp] theorem count_power (f : Fld) (n : Nat) : (count f n s).power = s.power := by unfold count; split <;> simp
@[simp] theorem count_rtc (f : Fld) (n : Nat) : (count f n s).rtc = s.rtc := by unfold count; split <;> simp
@[simp] theorem count_book (f : Fld) (n : Nat) : (count f n s).book = s.book := by unfold count; split <;> simp
@[simp] theorem count_host (f : Fld) (n : Nat) : (count f n s).host = s.host := by unfold count; split <;> simp
@[simp] theorem count_can (f : Fld) (n : Nat) : (count f n s).can = s.can := by unfold count; split <;> simp
@[simp] theorem count_intc (f : Fld) (n : Nat) : (count f n s).intc = s.intc := by unfold count; split <;> simp
@[simp] theorem count_acq (f : Fld) (n : Nat) : (count f n s).acq = s.acq := by unfold count; split <;> simp
@[simp] theorem count_angle (f : Fld) (n : Nat) : (count f n s).angle = s.angle := by unfold count; split <;> simp
@[simp] theorem count_seq (f : Fld) (n : Nat) : (count f n s).seq = s.seq := by unfold count; split <;> simp
@[simp] theorem count_drive (f : Fld) (n : Nat) : (count f n s).drive = s.drive := by unfold count; split <;> simp
@[simp] theorem count_periph (f : Fld) (n : Nat) : (count f n s).periph = s.periph := by unfold count; split <;> simp
@[simp] theorem count_pulse (f : Fld) (n : Nat) : (count f n s).pulse = s.pulse := by unfold count; split <;> simp
@[simp] theorem count_tie (f : Fld) (n : Nat) : (count f n s).tie = s.tie := by unfold count; split <;> simp
@[simp] theorem count_dma (f : Fld) (n : Nat) : (count f n s).dma = s.dma := by unfold count; split <;> simp

/-! ### `maxTo` -/

@[simp] theorem maxTo_cyc (f : Fld) (v : Nat) : (maxTo f v s).cyc = s.cyc := by simp only [maxTo]; split <;> rfl
@[simp] theorem maxTo_pending (f : Fld) (v : Nat) : (maxTo f v s).pending = s.pending := by simp only [maxTo]; split <;> rfl
@[simp] theorem maxTo_out (f : Fld) (v : Nat) : (maxTo f v s).out = s.out := by simp only [maxTo]; split <;> rfl
@[simp] theorem maxTo_sw (f : Fld) (v : Nat) : (maxTo f v s).sw = s.sw := by simp only [maxTo]; split <;> rfl
@[simp] theorem maxTo_barred (f : Fld) (v : Nat) : (maxTo f v s).barred = s.barred := by simp only [maxTo]; split <;> rfl
@[simp] theorem maxTo_slots (f : Fld) (v : Nat) : (maxTo f v s).slots = s.slots := by simp only [maxTo]; split <;> rfl
@[simp] theorem maxTo_fresh (f : Fld) (v : Nat) : (maxTo f v s).fresh = s.fresh := by simp only [maxTo]; split <;> rfl
@[simp] theorem maxTo_faults (f : Fld) (v : Nat) : (maxTo f v s).faults = s.faults := by simp only [maxTo]; split <;> rfl
@[simp] theorem maxTo_boot (f : Fld) (v : Nat) : (maxTo f v s).boot = s.boot := by simp only [maxTo]; split <;> rfl
@[simp] theorem maxTo_power (f : Fld) (v : Nat) : (maxTo f v s).power = s.power := by simp only [maxTo]; split <;> rfl
@[simp] theorem maxTo_rtc (f : Fld) (v : Nat) : (maxTo f v s).rtc = s.rtc := by simp only [maxTo]; split <;> rfl
@[simp] theorem maxTo_book (f : Fld) (v : Nat) : (maxTo f v s).book = s.book := by simp only [maxTo]; split <;> rfl
@[simp] theorem maxTo_host (f : Fld) (v : Nat) : (maxTo f v s).host = s.host := by simp only [maxTo]; split <;> rfl
@[simp] theorem maxTo_can (f : Fld) (v : Nat) : (maxTo f v s).can = s.can := by simp only [maxTo]; split <;> rfl
@[simp] theorem maxTo_intc (f : Fld) (v : Nat) : (maxTo f v s).intc = s.intc := by simp only [maxTo]; split <;> rfl
@[simp] theorem maxTo_acq (f : Fld) (v : Nat) : (maxTo f v s).acq = s.acq := by simp only [maxTo]; split <;> rfl
@[simp] theorem maxTo_angle (f : Fld) (v : Nat) : (maxTo f v s).angle = s.angle := by simp only [maxTo]; split <;> rfl
@[simp] theorem maxTo_seq (f : Fld) (v : Nat) : (maxTo f v s).seq = s.seq := by simp only [maxTo]; split <;> rfl
@[simp] theorem maxTo_drive (f : Fld) (v : Nat) : (maxTo f v s).drive = s.drive := by simp only [maxTo]; split <;> rfl
@[simp] theorem maxTo_periph (f : Fld) (v : Nat) : (maxTo f v s).periph = s.periph := by simp only [maxTo]; split <;> rfl
@[simp] theorem maxTo_pulse (f : Fld) (v : Nat) : (maxTo f v s).pulse = s.pulse := by simp only [maxTo]; split <;> rfl
@[simp] theorem maxTo_tie (f : Fld) (v : Nat) : (maxTo f v s).tie = s.tie := by simp only [maxTo]; split <;> rfl
@[simp] theorem maxTo_dma (f : Fld) (v : Nat) : (maxTo f v s).dma = s.dma := by simp only [maxTo]; split <;> rfl

/-! ### `raise` -/

@[simp] theorem raise_cyc (code source : Nat) (d : Word) (a : Nat) : (raise code source d a s).cyc = s.cyc := rfl
@[simp] theorem raise_pending (code source : Nat) (d : Word) (a : Nat) : (raise code source d a s).pending = s.pending := rfl
@[simp] theorem raise_out (code source : Nat) (d : Word) (a : Nat) : (raise code source d a s).out = s.out := rfl
@[simp] theorem raise_regs (code source : Nat) (d : Word) (a : Nat) : (raise code source d a s).regs = s.regs := rfl
@[simp] theorem raise_was (code source : Nat) (d : Word) (a : Nat) : (raise code source d a s).was = s.was := rfl
@[simp] theorem raise_hw (code source : Nat) (d : Word) (a : Nat) : (raise code source d a s).hw = s.hw := rfl
@[simp] theorem raise_sw (code source : Nat) (d : Word) (a : Nat) : (raise code source d a s).sw = s.sw := rfl
@[simp] theorem raise_barred (code source : Nat) (d : Word) (a : Nat) : (raise code source d a s).barred = s.barred := rfl
@[simp] theorem raise_slots (code source : Nat) (d : Word) (a : Nat) : (raise code source d a s).slots = s.slots := rfl
@[simp] theorem raise_fresh (code source : Nat) (d : Word) (a : Nat) : (raise code source d a s).fresh = s.fresh := rfl
@[simp] theorem raise_boot (code source : Nat) (d : Word) (a : Nat) : (raise code source d a s).boot = s.boot := rfl
@[simp] theorem raise_power (code source : Nat) (d : Word) (a : Nat) : (raise code source d a s).power = s.power := rfl
@[simp] theorem raise_rtc (code source : Nat) (d : Word) (a : Nat) : (raise code source d a s).rtc = s.rtc := rfl
@[simp] theorem raise_book (code source : Nat) (d : Word) (a : Nat) : (raise code source d a s).book = s.book := rfl
@[simp] theorem raise_host (code source : Nat) (d : Word) (a : Nat) : (raise code source d a s).host = s.host := rfl
@[simp] theorem raise_can (code source : Nat) (d : Word) (a : Nat) : (raise code source d a s).can = s.can := rfl
@[simp] theorem raise_intc (code source : Nat) (d : Word) (a : Nat) : (raise code source d a s).intc = s.intc := rfl
@[simp] theorem raise_acq (code source : Nat) (d : Word) (a : Nat) : (raise code source d a s).acq = s.acq := rfl
@[simp] theorem raise_angle (code source : Nat) (d : Word) (a : Nat) : (raise code source d a s).angle = s.angle := rfl
@[simp] theorem raise_seq (code source : Nat) (d : Word) (a : Nat) : (raise code source d a s).seq = s.seq := rfl
@[simp] theorem raise_drive (code source : Nat) (d : Word) (a : Nat) : (raise code source d a s).drive = s.drive := rfl
@[simp] theorem raise_periph (code source : Nat) (d : Word) (a : Nat) : (raise code source d a s).periph = s.periph := rfl
@[simp] theorem raise_pulse (code source : Nat) (d : Word) (a : Nat) : (raise code source d a s).pulse = s.pulse := rfl
@[simp] theorem raise_tie (code source : Nat) (d : Word) (a : Nat) : (raise code source d a s).tie = s.tie := rfl
@[simp] theorem raise_dma (code source : Nat) (d : Word) (a : Nat) : (raise code source d a s).dma = s.dma := rfl

/-! ### `draw` -/

@[simp] theorem draw_cyc : ((draw s).2).cyc = s.cyc := rfl
@[simp] theorem draw_pending : ((draw s).2).pending = s.pending := rfl
@[simp] theorem draw_out : ((draw s).2).out = s.out := rfl
@[simp] theorem draw_regs : ((draw s).2).regs = s.regs := rfl
@[simp] theorem draw_was : ((draw s).2).was = s.was := rfl
@[simp] theorem draw_hw : ((draw s).2).hw = s.hw := rfl
@[simp] theorem draw_sw : ((draw s).2).sw = s.sw := rfl
@[simp] theorem draw_barred : ((draw s).2).barred = s.barred := rfl
@[simp] theorem draw_slots : ((draw s).2).slots = s.slots := rfl
@[simp] theorem draw_faults : ((draw s).2).faults = s.faults := rfl
@[simp] theorem draw_boot : ((draw s).2).boot = s.boot := rfl
@[simp] theorem draw_power : ((draw s).2).power = s.power := rfl
@[simp] theorem draw_rtc : ((draw s).2).rtc = s.rtc := rfl
@[simp] theorem draw_book : ((draw s).2).book = s.book := rfl
@[simp] theorem draw_host : ((draw s).2).host = s.host := rfl
@[simp] theorem draw_can : ((draw s).2).can = s.can := rfl
@[simp] theorem draw_intc : ((draw s).2).intc = s.intc := rfl
@[simp] theorem draw_acq : ((draw s).2).acq = s.acq := rfl
@[simp] theorem draw_angle : ((draw s).2).angle = s.angle := rfl
@[simp] theorem draw_seq : ((draw s).2).seq = s.seq := rfl
@[simp] theorem draw_drive : ((draw s).2).drive = s.drive := rfl
@[simp] theorem draw_periph : ((draw s).2).periph = s.periph := rfl
@[simp] theorem draw_pulse : ((draw s).2).pulse = s.pulse := rfl
@[simp] theorem draw_tie : ((draw s).2).tie = s.tie := rfl
@[simp] theorem draw_dma : ((draw s).2).dma = s.dma := rfl

/-! ### `onClient` -/

@[simp] theorem onClient_cyc (c : Nat) (f : Client → Client) : (onClient c f s).cyc = s.cyc := rfl
@[simp] theorem onClient_pending (c : Nat) (f : Client → Client) : (onClient c f s).pending = s.pending := rfl
@[simp] theorem onClient_out (c : Nat) (f : Client → Client) : (onClient c f s).out = s.out := rfl
@[simp] theorem onClient_regs (c : Nat) (f : Client → Client) : (onClient c f s).regs = s.regs := rfl
@[simp] theorem onClient_was (c : Nat) (f : Client → Client) : (onClient c f s).was = s.was := rfl
@[simp] theorem onClient_hw (c : Nat) (f : Client → Client) : (onClient c f s).hw = s.hw := rfl
@[simp] theorem onClient_sw (c : Nat) (f : Client → Client) : (onClient c f s).sw = s.sw := rfl
@[simp] theorem onClient_barred (c : Nat) (f : Client → Client) : (onClient c f s).barred = s.barred := rfl
@[simp] theorem onClient_slots (c : Nat) (f : Client → Client) : (onClient c f s).slots = s.slots := rfl
@[simp] theorem onClient_fresh (c : Nat) (f : Client → Client) : (onClient c f s).fresh = s.fresh := rfl
@[simp] theorem onClient_faults (c : Nat) (f : Client → Client) : (onClient c f s).faults = s.faults := rfl
@[simp] theorem onClient_boot (c : Nat) (f : Client → Client) : (onClient c f s).boot = s.boot := rfl
@[simp] theorem onClient_power (c : Nat) (f : Client → Client) : (onClient c f s).power = s.power := rfl
@[simp] theorem onClient_rtc (c : Nat) (f : Client → Client) : (onClient c f s).rtc = s.rtc := rfl
@[simp] theorem onClient_book (c : Nat) (f : Client → Client) : (onClient c f s).book = s.book := rfl
@[simp] theorem onClient_can (c : Nat) (f : Client → Client) : (onClient c f s).can = s.can := rfl
@[simp] theorem onClient_intc (c : Nat) (f : Client → Client) : (onClient c f s).intc = s.intc := rfl
@[simp] theorem onClient_acq (c : Nat) (f : Client → Client) : (onClient c f s).acq = s.acq := rfl
@[simp] theorem onClient_angle (c : Nat) (f : Client → Client) : (onClient c f s).angle = s.angle := rfl
@[simp] theorem onClient_seq (c : Nat) (f : Client → Client) : (onClient c f s).seq = s.seq := rfl
@[simp] theorem onClient_drive (c : Nat) (f : Client → Client) : (onClient c f s).drive = s.drive := rfl
@[simp] theorem onClient_periph (c : Nat) (f : Client → Client) : (onClient c f s).periph = s.periph := rfl
@[simp] theorem onClient_pulse (c : Nat) (f : Client → Client) : (onClient c f s).pulse = s.pulse := rfl
@[simp] theorem onClient_tie (c : Nat) (f : Client → Client) : (onClient c f s).tie = s.tie := rfl
@[simp] theorem onClient_dma (c : Nat) (f : Client → Client) : (onClient c f s).dma = s.dma := rfl

/-! ### `setSrc` -/

@[simp] theorem setSrc_cyc (k : Nat) (x : IntSrc) : (setSrc k x s).cyc = s.cyc := rfl
@[simp] theorem setSrc_pending (k : Nat) (x : IntSrc) : (setSrc k x s).pending = s.pending := rfl
@[simp] theorem setSrc_out (k : Nat) (x : IntSrc) : (setSrc k x s).out = s.out := rfl
@[simp] theorem setSrc_regs (k : Nat) (x : IntSrc) : (setSrc k x s).regs = s.regs := rfl
@[simp] theorem setSrc_was (k : Nat) (x : IntSrc) : (setSrc k x s).was = s.was := rfl
@[simp] theorem setSrc_hw (k : Nat) (x : IntSrc) : (setSrc k x s).hw = s.hw := rfl
@[simp] theorem setSrc_sw (k : Nat) (x : IntSrc) : (setSrc k x s).sw = s.sw := rfl
@[simp] theorem setSrc_barred (k : Nat) (x : IntSrc) : (setSrc k x s).barred = s.barred := rfl
@[simp] theorem setSrc_slots (k : Nat) (x : IntSrc) : (setSrc k x s).slots = s.slots := rfl
@[simp] theorem setSrc_fresh (k : Nat) (x : IntSrc) : (setSrc k x s).fresh = s.fresh := rfl
@[simp] theorem setSrc_faults (k : Nat) (x : IntSrc) : (setSrc k x s).faults = s.faults := rfl
@[simp] theorem setSrc_boot (k : Nat) (x : IntSrc) : (setSrc k x s).boot = s.boot := rfl
@[simp] theorem setSrc_power (k : Nat) (x : IntSrc) : (setSrc k x s).power = s.power := rfl
@[simp] theorem setSrc_rtc (k : Nat) (x : IntSrc) : (setSrc k x s).rtc = s.rtc := rfl
@[simp] theorem setSrc_book (k : Nat) (x : IntSrc) : (setSrc k x s).book = s.book := rfl
@[simp] theorem setSrc_host (k : Nat) (x : IntSrc) : (setSrc k x s).host = s.host := rfl
@[simp] theorem setSrc_can (k : Nat) (x : IntSrc) : (setSrc k x s).can = s.can := rfl
@[simp] theorem setSrc_acq (k : Nat) (x : IntSrc) : (setSrc k x s).acq = s.acq := rfl
@[simp] theorem setSrc_angle (k : Nat) (x : IntSrc) : (setSrc k x s).angle = s.angle := rfl
@[simp] theorem setSrc_seq (k : Nat) (x : IntSrc) : (setSrc k x s).seq = s.seq := rfl
@[simp] theorem setSrc_drive (k : Nat) (x : IntSrc) : (setSrc k x s).drive = s.drive := rfl
@[simp] theorem setSrc_periph (k : Nat) (x : IntSrc) : (setSrc k x s).periph = s.periph := rfl
@[simp] theorem setSrc_pulse (k : Nat) (x : IntSrc) : (setSrc k x s).pulse = s.pulse := rfl
@[simp] theorem setSrc_tie (k : Nat) (x : IntSrc) : (setSrc k x s).tie = s.tie := rfl
@[simp] theorem setSrc_dma (k : Nat) (x : IntSrc) : (setSrc k x s).dma = s.dma := rfl

/-! ### `tick` -/

@[simp] theorem tick_pending (dt : Nat) : (tick dt s).pending = s.pending := by unfold tick; split <;> rfl
@[simp] theorem tick_out (dt : Nat) : (tick dt s).out = s.out := by unfold tick; split <;> rfl
@[simp] theorem tick_regs (dt : Nat) : (tick dt s).regs = s.regs := by unfold tick; split <;> rfl
@[simp] theorem tick_slots (dt : Nat) : (tick dt s).slots = s.slots := by unfold tick; split <;> rfl
@[simp] theorem tick_fresh (dt : Nat) : (tick dt s).fresh = s.fresh := by unfold tick; split <;> rfl
@[simp] theorem tick_faults (dt : Nat) : (tick dt s).faults = s.faults := by unfold tick; split <;> rfl
@[simp] theorem tick_boot (dt : Nat) : (tick dt s).boot = s.boot := by unfold tick; split <;> rfl
@[simp] theorem tick_power (dt : Nat) : (tick dt s).power = s.power := by unfold tick; split <;> rfl
@[simp] theorem tick_rtc (dt : Nat) : (tick dt s).rtc = s.rtc := by unfold tick; split <;> rfl
@[simp] theorem tick_book (dt : Nat) : (tick dt s).book = s.book := by unfold tick; split <;> rfl
@[simp] theorem tick_host (dt : Nat) : (tick dt s).host = s.host := by unfold tick; split <;> rfl
@[simp] theorem tick_can (dt : Nat) : (tick dt s).can = s.can := by unfold tick; split <;> rfl
@[simp] theorem tick_intc (dt : Nat) : (tick dt s).intc = s.intc := by unfold tick; split <;> rfl
@[simp] theorem tick_acq (dt : Nat) : (tick dt s).acq = s.acq := by unfold tick; split <;> rfl
@[simp] theorem tick_angle (dt : Nat) : (tick dt s).angle = s.angle := by unfold tick; split <;> rfl
@[simp] theorem tick_seq (dt : Nat) : (tick dt s).seq = s.seq := by unfold tick; split <;> rfl
@[simp] theorem tick_drive (dt : Nat) : (tick dt s).drive = s.drive := by unfold tick; split <;> rfl
@[simp] theorem tick_periph (dt : Nat) : (tick dt s).periph = s.periph := by unfold tick; split <;> rfl
@[simp] theorem tick_pulse (dt : Nat) : (tick dt s).pulse = s.pulse := by unfold tick; split <;> rfl
@[simp] theorem tick_tie (dt : Nat) : (tick dt s).tie = s.tie := by unfold tick; split <;> rfl
@[simp] theorem tick_dma (dt : Nat) : (tick dt s).dma = s.dma := by unfold tick; split <;> rfl

end Sys2Proof.Machine
end

