-- ==== Sys2Proof/Laws/Tbl.lean ====
section
/-! SUPPORT. Laws of the sparse table: what is read after an insertion, a removal and a set, and the canonical form. -/
namespace Sys2Proof.Tbl
variable {α : Type}

@[simp] theorem find_insert_self (m : Tbl α) (k : Nat) (v : α) : find (insert m k v) k = some v := by
  induction m with
  | nil => simp [insert, find]
  | cons p m ih =>
    obtain ⟨j, x⟩ := p
    simp only [insert]
    split
    · simp [find]
    · split
      · simp [find]
      · have : j ≠ k := fun h => by simp_all
        simp [find, this, ih]

theorem find_insert_ne (m : Tbl α) (v : α) {j k : Nat} (h : j ≠ k) : find (insert m k v) j = find m j := by
  induction m with
  | nil => simp [insert, find, Ne.symm h]
  | cons p m ih =>
    obtain ⟨i, x⟩ := p
    simp only [insert]
    split
    · simp [find, Ne.symm h]
    · split
      · next e => subst e; simp [find, Ne.symm h]
      · simp [find, ih]

@[simp] theorem find_erase_self (m : Tbl α) (k : Nat) : find (erase m k) k = none := by
  induction m with
  | nil => rfl
  | cons p m ih =>
    obtain ⟨j, x⟩ := p
    simp only [erase]
    split
    · exact ih
    · next h => simp [find, h, ih]

theorem find_erase_ne (m : Tbl α) {j k : Nat} (h : j ≠ k) : find (erase m k) j = find m j := by
  induction m with
  | nil => rfl
  | cons p m ih =>
    obtain ⟨i, x⟩ := p
    simp only [erase]
    split
    · next e => subst e; simp [find, Ne.symm h, ih]
    · simp [find, ih]

/-- What is set is read. -/
@[simp] theorem get_set_self [DecidableEq α] (d : α) (m : Tbl α) (k : Nat) (v : α) : get d (set d m k v) k = v := by
  unfold get set
  split
  · next h => simp [h]
  · simp

/-- A set leaves every other entry, whatever default it is read with. -/
theorem get_set_ne [DecidableEq α] (d e : α) (m : Tbl α) (v : α) {j k : Nat} (h : j ≠ k) : get e (set d m k v) j = get e m j := by
  unfold get set
  split
  · rw [find_erase_ne m h]
  · rw [find_insert_ne m v h]

@[simp] theorem get_insert_self (d : α) (m : Tbl α) (k : Nat) (v : α) : get d (insert m k v) k = v := by simp [get]

theorem get_insert_ne (d : α) (m : Tbl α) (v : α) {j k : Nat} (h : j ≠ k) : get d (insert m k v) j = get d m j := by
  simp [get, find_insert_ne m v h]

theorem above_insert {m : Tbl α} {b k : Nat} (v : α) (hm : above b m = true) (hk : b < k) : above b (insert m k v) = true := by
  induction m with
  | nil => simp [insert, above, hk]
  | cons p m ih =>
    obtain ⟨j, x⟩ := p
    simp only [above, Bool.and_eq_true, decide_eq_true_eq] at hm
    simp only [insert]
    split
    · simp [above, hk, hm]
    · split
      · simp_all [above]
      · simp [above, hm, ih hm.2]

theorem above_mono {m : Tbl α} {a b : Nat} (h : a ≤ b) (hm : above b m = true) : above a m = true := by
  induction m with
  | nil => rfl
  | cons p m ih =>
    obtain ⟨j, x⟩ := p
    simp only [above, Bool.and_eq_true, decide_eq_true_eq] at hm ⊢
    exact ⟨by omega, ih hm.2⟩

theorem above_erase {m : Tbl α} {b : Nat} (k : Nat) (hm : above b m = true) : above b (erase m k) = true := by
  induction m with
  | nil => rfl
  | cons p m ih =>
    obtain ⟨j, x⟩ := p
    simp only [above, Bool.and_eq_true, decide_eq_true_eq] at hm
    simp only [erase]
    split
    · exact ih hm.2
    · simp [above, hm.1, ih hm.2]

theorem sorted_insert {m : Tbl α} (k : Nat) (v : α) (hm : sorted m = true) : sorted (insert m k v) = true := by
  induction m with
  | nil => simp [insert, sorted, above]
  | cons p m ih =>
    obtain ⟨j, x⟩ := p
    have hs := hm
    simp only [sorted, Bool.and_eq_true] at hs
    simp only [insert]
    split
    · next h => simp [sorted, above, hs, h, above_mono (Nat.le_of_lt h) hs.1]
    · split
      · next h => subst h; simp [sorted, hs]
      · next h1 h2 =>
        have : j < k := by omega
        simp [sorted, above_insert v hs.1 this, ih hs.2]

theorem sorted_erase {m : Tbl α} (k : Nat) (hm : sorted m = true) : sorted (erase m k) = true := by
  induction m with
  | nil => rfl
  | cons p m ih =>
    obtain ⟨j, x⟩ := p
    simp only [sorted, Bool.and_eq_true] at hm
    simp only [erase]
    split
    · exact ih hm.2
    · simp [sorted, above_erase k hm.1, ih hm.2]

theorem mem_insert {m : Tbl α} {k : Nat} {v : α} {p : Nat × α} (h : p ∈ insert m k v) : p = (k, v) ∨ p ∈ m := by
  induction m with
  | nil => simp_all [insert]
  | cons q m ih =>
    obtain ⟨j, x⟩ := q
    simp only [insert] at h
    split at h
    · simpa using h
    · split at h
      · simp only [List.mem_cons] at h ⊢
        exact h.imp id .inr
      · simp only [List.mem_cons] at h ⊢
        rcases h with h | h
        · exact .inr (.inl h)
        · exact (ih h).imp id .inr

theorem mem_erase {m : Tbl α} {k : Nat} {p : Nat × α} (h : p ∈ erase m k) : p ∈ m := by
  induction m with
  | nil => simp_all [erase]
  | cons q m ih =>
    obtain ⟨j, x⟩ := q
    simp only [erase] at h
    split at h
    · exact List.mem_cons_of_mem _ (ih h)
    · simp only [List.mem_cons] at h ⊢
      exact h.imp id ih

/-- A set keeps the canonical form. -/
theorem wf_set [DecidableEq α] {d : α} {m : Tbl α} (k : Nat) (v : α) (hm : wf d m = true) : wf d (set d m k v) = true := by
  simp only [wf, Bool.and_eq_true, List.all_eq_true, decide_eq_true_eq] at hm ⊢
  unfold set
  split
  · exact ⟨sorted_erase k hm.1, fun p hp => hm.2 p (mem_erase hp)⟩
  · next hv =>
    refine ⟨sorted_insert k v hm.1, fun p hp => ?_⟩
    rcases mem_insert hp with h | h
    · subst h; exact hv
    · exact hm.2 p h

end Sys2Proof.Tbl
end

