-- ==== Sys2Proof/Laws/Regs.lean ====
section
/-! SUPPORT. Laws of register fields: what a field reads after an elementary update, of itself and of another field. -/
namespace Sys2Proof.Machine
variable {s t : State} {f g : Fld}

/-- A field reads what its table lists: states with one register file read alike. -/
theorem rd_congr (h : s.regs = t.regs) (f : Fld) : rd s f = rd t f := by simp [rd, h]

/-- States with one register file show the same flags. -/
theorem isSet_congr (h : s.regs = t.regs) (f : Fld) : isSet s f = isSet t f := by simp [isSet, rd, h]

theorem wr_regs (f : Fld) (v : Nat) (s : State) : (wr f v s).regs = Tbl.set f.reset s.regs f.key (v % 2 ^ f.w) := rfl

/-- A field reads the low bits of what was written. -/
@[simp] theorem rd_wr_self (f : Fld) (v : Nat) (s : State) : rd (wr f v s) f = v % 2 ^ f.w := by
  simp [rd, wr_regs]

/-- A write leaves every field of another key. -/
theorem rd_wr_ne (v : Nat) (s : State) (h : g.key ≠ f.key) : rd (wr f v s) g = rd s g := by
  simp [rd, wr_regs, Tbl.get_set_ne _ _ _ _ h]

theorem rd_wr_lt {v : Nat} (s : State) (h : v < 2 ^ f.w) : rd (wr f v s) f = v := by
  simp [Nat.mod_eq_of_lt h]

@[simp] theorem isSet_wrB_self (b : Bool) (s : State) (h : 0 < f.w) : isSet (wrB f b s) f = b := by
  have : 1 < 2 ^ f.w := Nat.one_lt_two_pow (by omega)
  cases b <;> simp [isSet, wrB, Nat.mod_eq_of_lt this]

theorem rd_wrB_ne (b : Bool) (s : State) (h : g.key ≠ f.key) : rd (wrB f b s) g = rd s g := rd_wr_ne _ s h

theorem isSet_wr_ne (v : Nat) (s : State) (h : g.key ≠ f.key) : isSet (wr f v s) g = isSet s g := by
  simp [isSet, rd_wr_ne v s h]

theorem isSet_wrB_ne (b : Bool) (s : State) (h : g.key ≠ f.key) : isSet (wrB f b s) g = isSet s g := isSet_wr_ne _ s h

theorem flag_regs (f : Fld) (s : State) : (flag f s).regs = (wr f 1 s).regs := rfl

@[simp] theorem isSet_flag_self (s : State) (h : 0 < f.w) : isSet (flag f s) f = true := by
  have : 1 < 2 ^ f.w := Nat.one_lt_two_pow (by omega)
  rw [isSet_congr (flag_regs f s), isSet, rd_wr_self, Nat.mod_eq_of_lt this]; rfl

theorem rd_flag_ne (s : State) (h : g.key ≠ f.key) : rd (flag f s) g = rd s g := by
  rw [rd_congr (flag_regs f s), rd_wr_ne _ s h]

theorem isSet_flag_ne (s : State) (h : g.key ≠ f.key) : isSet (flag f s) g = isSet s g := by
  simp [isSet, rd_flag_ne s h]

theorem bump_regs (f : Fld) (n : Nat) (s : State) : (bump f n s).regs = (wr f (min f.max (rd s f + n)) s).regs := rfl

/-- A saturating count. -/
@[simp] theorem rd_bump_self (n : Nat) (s : State) : rd (bump f n s) f = min f.max (rd s f + n) := by
  rw [rd_congr (bump_regs f n s), rd_wr_self, Nat.mod_eq_of_lt]
  have : f.max < 2 ^ f.w := by
    have := Nat.two_pow_pos f.w
    simp only [Fld.max]; omega
  omega

theorem rd_bump_ne (n : Nat) (s : State) (h : g.key ≠ f.key) : rd (bump f n s) g = rd s g := by
  rw [rd_congr (bump_regs f n s), rd_wr_ne _ s h]

/-- Counting without a software write of the counter in the cycle saturates. -/
theorem rd_count_self (n : Nat) (s : State) (h : f.off ∉ s.sw) : rd (count f n s) f = min f.max (rd s f + n) := by
  simp [count, h]

/-! ### Time (scope R12) -/

@[simp] theorem rd_tick (dt : Nat) (s : State) (f : Fld) : rd (tick dt s) f = rd s f := rd_congr (tick_regs s dt) f

@[simp] theorem isSet_tick (dt : Nat) (s : State) (f : Fld) : isSet (tick dt s) f = isSet s f := isSet_congr (tick_regs s dt) f

@[simp] theorem tick_cyc (dt : Nat) (s : State) : (tick dt s).cyc = s.cyc + dt := by
  unfold tick; split <;> simp_all

theorem tick_hw {dt : Nat} (h : dt ≠ 0) (s : State) : (tick dt s).hw = [] := by simp [tick, h]
theorem tick_sw {dt : Nat} (h : dt ≠ 0) (s : State) : (tick dt s).sw = [] := by simp [tick, h]
theorem tick_barred {dt : Nat} (h : dt ≠ 0) (s : State) : (tick dt s).barred = [] := by simp [tick, h]
theorem tick_was {dt : Nat} (h : dt ≠ 0) (s : State) : (tick dt s).was = [] := by simp [tick, h]

/-- Whether the module is held in reset or asleep does not turn on time. -/
@[simp] theorem awake_tick (dt : Nat) (s : State) : awake (tick dt s) = awake s := by simp [awake]

end Sys2Proof.Machine
end

