-- ==== Sys2Proof/Laws/Run.lean ====
section
/-! SUPPORT. What the wrappers of the meanings do: a timed event, an event of the island, a client's command, a register write. -/
namespace Sys2Proof.Machine
variable {s : State}

/-- While the core clock runs, time passes to the event and then it acts. -/
theorem event_awake (h : awake s = true) (dt : Nat) (f : State → State) : event dt f s = .next (f (passTime dt s)) := by
  simp [event, h]

/-- What a steady interval is. -/
theorem steady_iff {dt : Nat} : steady dt s = true ↔ awake s = true ∧ sharePending dt s = false ∧ settles dt s = false := by
  simp [steady, and_assoc]

/-- In a steady interval nothing happens but that time passes. -/
theorem passTime_steady {dt : Nat} (h : steady dt s = true) : passTime dt s = tick dt s := by
  simp [passTime, passShares, (steady_iff.1 h).2]

/-- No time passes to an event of the same cycle. -/
theorem steady_zero (h : awake s = true) (hs : sharePending 0 s = false) : steady 0 s = true := by
  simp [steady, settles, h, hs]

/-- While the module is held in reset or asleep, nothing happens. -/
theorem event_asleep (h : awake s = false) (dt : Nat) (f : State → State) : event dt f s = .next s := by
  simp [event, h]

/-- An event always answers a next state: the state itself, or what its action makes of the state in its cycle. -/
theorem event_cases (dt : Nat) (f : State → State) (s : State) :
    event dt f s = .next s ∨ event dt f s = .next (f (passTime dt s)) := by
  unfold event; split
  · exact .inr rfl
  · exact .inl rfl

theorem islandEvent_awake (h : awake s = true) (dt : Nat) (f : State → State) :
    islandEvent dt f s = .next (f (passTime dt s)) := by simp [islandEvent, h]

theorem islandEvent_asleep (h : awake s = false) (dt : Nat) (f : State → State) : islandEvent dt f s = .next (f s) := by
  simp [islandEvent, h]

/-- A command whose executor is there, whose turn it is and whose common checks pass has its own effect. -/
theorem command_accepted {code : Nat} {m : Msg} (hs : serves code s = true) (ht : itsTurn code m s = true)
    (hc : commonCheck code m s = none) (f : State → State) : command code m f s = .next (f s) := by
  simp [command, hs, ht, hc]

/-- A command that fails a common check is answered with it (host link Table 13-4). -/
theorem command_refused {code st d : Nat} {m : Msg} (hs : serves code s = true) (ht : itsTurn code m s = true)
    (hc : commonCheck code m s = some (st, d)) (f : State → State) :
    command code m f s = .next (respond code m st d [] s) := by simp [command, hs, ht, hc]

/-- A command whose executor is not there waits: nothing happens. -/
theorem command_absent {code : Nat} {m : Msg} (hs : serves code s = false) (f : State → State) :
    command code m f s = .next s := by simp [command, hs]

/-- A command whose turn it is not waits: nothing happens (architecture R33). -/
theorem command_waits {code : Nat} {m : Msg} (ht : itsTurn code m s = false) (f : State → State) :
    command code m f s = .next s := by simp [command, ht]

/-- A write to a function that answers, which no commit and no reset of this cycle bars, acts where the register's domain is on (register reference R538). -/
theorem writes_on {fn off : Nat} (h0 : fnAnswers s fn = true) (h1 : off ∉ s.barred) (h2 : 2 ^ 24 + fn ∉ s.barred) (h3 : regPower s off = .on)
    (f : State → State) : writes fn off f s = f s := by
  have h : (!fnAnswers s fn || s.barred.contains off || s.barred.contains (2 ^ 24 + fn)) = false := by
    simp only [h0, List.contains_eq_mem, h1, h2, decide_false, Bool.not_true, Bool.or_false]
  unfold writes; rw [h, h3]; rfl

/-- A virtual function that does not answer takes no write (host link R399). -/
theorem writes_dead {fn off : Nat} (h : fnAnswers s fn = false) (f : State → State) : writes fn off f s = s := by
  simp [writes, h]

/-- A domain that is off discards the write (timers R342). -/
theorem writes_off {fn off : Nat} (h3 : regPower s off = .off) (f : State → State) : writes fn off f s = s := by
  simp [writes, h3]

/-- A register in no domain is always powered (register reference R531). -/
theorem regPower_none {off : Nat} (h : regDomain s off = none) : regPower s off = .on := by simp [regPower, h]

/-- With nothing waiting the block idles. -/
theorem step_idle (h : s.pending = []) : step s = .next s := by simp [step, h]

/-- A step runs the command at the front on the state that holds the queue's rest. -/
theorem step_front {c : Instr} {rest : List Instr} (h : s.pending = c :: rest) : step s = exec c { s with pending := rest } := by
  simp [step, h]

end Sys2Proof.Machine
end

