-- ==== Sys2Proof/Laws/Still.lean ====
section
/-! SUPPORT. The parts of the state that almost no command touches - the sample memory, the paired-write slots, the images in flash, the
anti-rollback counter - and one lemma per operation that says it leaves them (`_still`), or leaves all but the bytes of the sample
memory and keeps that in its canonical form (`_firm`). -/
namespace Sys2Proof.Machine

/-! ### The parts -/

/-- Sample memory, paired-write slots, the queue, anti-rollback counter, preferred and running image, the image slots and the start-up
record's copies. -/
structure Still where
  sample : List (Nat × BitVec 8)
  slots : Tbl PwSlot
  pending : List Instr
  counter : Nat
  preferred : Nat
  running : Nat
  slotA : Image
  slotB : Image
  recA : Option StartRec
  recB : Option StartRec
  deriving DecidableEq

/-- The same with no more of the sample memory than whether it has its canonical form. -/
structure Firm where
  memOk : Bool
  slots : Tbl PwSlot
  pending : List Instr
  counter : Nat
  preferred : Nat
  running : Nat
  slotA : Image
  slotB : Image
  recA : Option StartRec
  recB : Option StartRec
  deriving DecidableEq

/-- These parts of a state. -/
def State.still (s : State) : Still :=
  ⟨s.acq.sample, s.slots, s.pending, s.boot.counter, s.boot.preferred, s.boot.running, s.boot.slotA, s.boot.slotB, s.boot.recA,
    s.boot.recB⟩

/-- What a command that may store samples keeps. -/
def Still.firm (x : Still) : Firm := 
  ⟨Tbl.wf 0#8 x.sample, x.slots, x.pending, x.counter, x.preferred, x.running, x.slotA, x.slotB, x.recA, x.recB⟩

@[simp] theorem still_eta (x : State) :
    Still.mk x.acq.sample x.slots x.pending x.boot.counter x.boot.preferred x.boot.running x.boot.slotA x.boot.slotB x.boot.recA
      x.boot.recB = x.still := rfl

@[simp] theorem still_mk (cyc : Nat) (pending : List Instr) (out : List Out) (regs was hw : Tbl Nat) (sw barred : List Nat)
    (slots : Tbl PwSlot) (fresh : Nat) (faults : List FaultEv) (boot : Boot) (power : Power) (rtc : Rtc) (book : FieldBook)
    (host : HostLink) (can : Can) (intc : Intc) (acq : Acq) (angle : Angle) (seq : Seq) (drive : Drive) (periph : Periph)
    (pulse : Pulse) (tie : Tie) (dma : Dma) :
    (State.mk cyc pending out regs was hw sw barred slots fresh faults boot power rtc book host can intc acq angle seq drive
      periph pulse tie dma).still = ⟨acq.sample, slots, pending, boot.counter, boot.preferred, boot.running, boot.slotA,
        boot.slotB, boot.recA, boot.recB⟩ := rfl

/-- A fold keeps what each of its steps keeps. -/
@[simp] theorem foldl_still {α : Type} (g : State → α → State) (h : ∀ s a, (g s a).still = s.still) (l : List α) (s : State) :
    (l.foldl g s).still = s.still := by
  induction l generalizing s with
  | nil => rfl
  | cons a l ih => simp [ih, h]

/-- A fold keeps what each of its steps keeps while the sample memory has its canonical form. -/
theorem foldl_firm {α : Type} (g : State → α → State)
    (h : ∀ s a, s.still.firm.memOk = true → (g s a).still.firm = s.still.firm) (l : List α) (s : State)
    (hs : s.still.firm.memOk = true) : (l.foldl g s).still.firm = s.still.firm := by
  induction l generalizing s with
  | nil => rfl
  | cons a l ih => rw [List.foldl_cons, ih _ (by rw [h s a hs]; exact hs), h s a hs]

theorem foldl_snd_still {α β : Type} (g : β × State → α → β × State) (h : ∀ a n, (g a n).2.still = a.2.still) (l : List α)
    (a : β × State) : (l.foldl g a).2.still = a.2.still := by
  induction l generalizing a with
  | nil => rfl
  | cons x l ih => simp [ih, h]

@[simp] theorem ite_still (c : Prop) [Decidable c] (s t : State) : (if c then s else t).still = if c then s.still else t.still := by
  split <;> rfl

@[simp] theorem ite_firm (c : Prop) [Decidable c] (s t : Still) : (if c then s else t).firm = if c then s.firm else t.firm := by
  split <;> rfl

/-! ### Machine/Ops -/

@[simp] theorem wr_still (f : Fld) (v : Nat) (s : State) : (wr f v s).still = s.still := by simp [wr]

@[simp] theorem wrB_still (f : Fld) (b : Bool) (s : State) : (wrB f b s).still = s.still := by simp [wrB]

@[simp] theorem flag_still (f : Fld) (s : State) : (flag f s).still = s.still := by simp [flag]

@[simp] theorem flagBit_still (f : Fld) (i : Nat) (s : State) : (flagBit f i s).still = s.still := by simp [flagBit]

@[simp] theorem bump_still (f : Fld) (n : Nat) (s : State) : (bump f n s).still = s.still := by simp [bump]

@[simp] theorem lose_still (f : Fld) (n : Nat) (s : State) : (lose f n s).still = s.still := by unfold lose; split <;> simp

@[simp] theorem count_still (f : Fld) (n : Nat) (s : State) : (count f n s).still = s.still := by simp [count]

@[simp] theorem maxTo_still (f : Fld) (v : Nat) (s : State) : (maxTo f v s).still = s.still := by simp [maxTo]

@[simp] theorem swField_still (f : Fld) (v : Nat) (s : State) : (swField f v s).still = s.still := by
  unfold swField; (repeat' split) <;> (try dsimp only) <;> (repeat' split) <;> simp

@[simp] theorem swWrite_still (off : Nat) (fs : List Fld) (x : Word) (s : State) : (swWrite off fs x s).still = s.still := by
  simp [swWrite]

@[simp] theorem commits_still (offs : List Nat) (s : State) : (commits offs s).still = s.still := by simp [commits]

@[simp] theorem resetsFn_still (fn : Nat) (s : State) : (resetsFn fn s).still = s.still := by simp [resetsFn]

/-- A write leaves what its action leaves. -/
theorem writes_still (fn off : Nat) (f : State → State) (s : State) (h : ∀ s, (f s).still = s.still) :
    (writes fn off f s).still = s.still := by
  unfold writes; (repeat' split) <;> simp [h]

@[simp] theorem clearRead_still (f : Fld) (s : State) : (clearRead f s).still = s.still := by unfold clearRead; split <;> simp

@[simp] theorem resetFields_still (fs : List Fld) (s : State) : (resetFields fs s).still = s.still := by simp [resetFields]

@[simp] theorem draw_still (s : State) : (draw s).2.still = s.still := by simp [draw]

@[simp] theorem onClient_still (c : Nat) (f : Client → Client) (s : State) : (onClient c f s).still = s.still := by
  simp [onClient]

@[simp] theorem setSrc_still (k : Nat) (x : IntSrc) (s : State) : (setSrc k x s).still = s.still := by simp [setSrc]

@[simp] theorem groupEvent_still (k : Nat) (s : State) : (groupEvent k s).still = s.still := by simp [groupEvent]

@[simp] theorem closeGroup_still (g : Nat) (s : State) : (closeGroup g s).still = s.still := by simp [closeGroup]

@[simp] theorem leaveDoze_still (s : State) : (leaveDoze s).still = s.still := by simp [leaveDoze]

@[simp] theorem wakeDoze_still (s : State) : (wakeDoze s).still = s.still := by simp [wakeDoze]

@[simp] theorem holdWrite_still (set clr : Nat) (s : State) : (holdWrite set clr s).still = s.still := by simp [holdWrite]

@[simp] theorem dropWaits_still (m : Msg) (s : State) : (dropWaits m s).still = s.still := by
  unfold dropWaits; dsimp only; (repeat' split) <;> simp

@[simp] theorem dropPulse_still (m : Msg) (s : State) : (dropPulse m s).still = s.still := by
  unfold dropPulse
  refine (foldl_still _ (fun s x => ?_) _ _).trans rfl
  dsimp only; (repeat' split) <;> simp

@[simp] theorem cutShort_still (m : Msg) (s : State) : (cutShort m s).still = s.still := by
  simp [cutShort]

@[simp] theorem requestRises_still (k : Nat) (s : State) : (requestRises k s).still = s.still := by simp [requestRises]

@[simp] theorem intRaise_still (k : Nat) (s : State) : (intRaise k s).still = s.still := by simp [intRaise]

@[simp] theorem intFall_still (k : Nat) (s : State) : (intFall k s).still = s.still := by simp [intFall]

@[simp] theorem msixSend_still (c v : Nat) (s : State) : (msixSend c v s).still = s.still := by simp [msixSend]

@[simp] theorem msixRelease_still (c v : Nat) (s : State) : (msixRelease c v s).still = s.still := by simp [msixRelease]

@[simp] theorem vector_still (c v : Nat) (s : State) : (vector c v s).still = s.still := by simp [vector]

@[simp] theorem vectorAll_still (v : Nat) (s : State) : (vectorAll v s).still = s.still := by simp [vectorAll]

@[simp] theorem shadowWrite_still (c : Nat) (s : State) : (shadowWrite c s).still = s.still := by simp [shadowWrite]

@[simp] theorem rspWrite_still (c n : Nat) (indirect : Bool) (m : ModMsg) (s : State) :
    (rspWrite c n indirect m s).still = s.still := by simp [rspWrite]

@[simp] theorem rspSend_still (c n : Nat) (indirect : Bool) (m : ModMsg) (s : State) :
    (rspSend c n indirect m s).still = s.still := by simp [rspSend]

@[simp] theorem fltWrite_still (c : Nat) (m : ModMsg) (s : State) : (fltWrite c m s).still = s.still := by simp [fltWrite]

@[simp] theorem raise_still (code source : Nat) (detail : Word) (action : Nat) (s : State) :
    (raise code source detail action s).still = s.still := by simp [raise]

@[simp] theorem loseNotice_still (c : Nat) (s : State) : (loseNotice c s).still = s.still := by simp [loseNotice]

@[simp] theorem noteLost_still (c : Nat) (s : State) : (noteLost c s).still = s.still := by simp [noteLost]

@[simp] theorem notice_still (m : ModMsg) (s : State) : (notice m s).still = s.still := by simp [notice]

@[simp] theorem dispatch_still (c : Nat) (s : State) : (dispatch c s).still = s.still := by simp [dispatch]

@[simp] theorem dispatchAll_still (s : State) : (dispatchAll s).still = s.still := by simp [dispatchAll]

@[simp] theorem sendResponse_still (m : Msg) (r : ModMsg) (s : State) : (sendResponse m r s).still = s.still := by
  simp only [sendResponse]; (repeat' split) <;> simp

@[simp] theorem respond_still (opcode : Nat) (m : Msg) (status detail : Nat) (words : List Word) (s : State) :
    (respond opcode m status detail words s).still = s.still := by simp [respond]

@[simp] theorem ok_still (opcode : Nat) (m : Msg) (s : State) : (ok opcode m s).still = s.still := by simp [ok]

@[simp] theorem refuse_still (opcode : Nat) (m : Msg) (status : Nat) (s : State) :
    (refuse opcode m status s).still = s.still := by simp [refuse]

@[simp] theorem tick_still (dt : Nat) (s : State) : (tick dt s).still = s.still := by simp [tick]

/-! ### Machine/Chan -/

@[simp] theorem raisePerCycle_still (code inst source : Nat) (detail : Word) (action : Nat) (s : State) :
    (raisePerCycle code inst source detail action s).still = s.still := by simp [raisePerCycle]

@[simp] theorem onChan_still (c : Nat) (f : Chan → Chan) (s : State) : (onChan c f s).still = s.still := by simp [onChan]

@[simp] theorem pairRefresh_still (s : State) : (pairRefresh s).still = s.still := by simp [pairRefresh]

@[simp] theorem setDesc_still (i : Nat) (d : Desc) (s : State) : (setDesc i d s).still = s.still := by simp [setDesc]

@[simp] theorem onDesc_still (i : Nat) (f : Desc → Desc) (s : State) : (onDesc i f s).still = s.still := by
  unfold onDesc; split <;> simp

@[simp] theorem noteBit_still (x b : Nat) (s : State) : (noteBit x b s).still = s.still := by unfold noteBit; split <;> simp

@[simp] theorem clearNote_still (x b : Nat) (s : State) :
    (clearNote x b s).still = s.still := by unfold clearNote; (repeat' split) <;> simp

@[simp] theorem report_still (r : Report) (s : State) : (report r s).still = s.still := by simp [report]

/-! ### Machine/EventOps -/

@[simp] theorem onPair_still (p : Nat) (f : Pair → Pair) (s : State) : (onPair p f s).still = s.still := by simp [onPair]

@[simp] theorem requeue_still (i : Nat) (s : State) : (requeue i s).still = s.still := by unfold requeue; split <;> simp

@[simp] theorem withdraw_still (i : Nat) (s : State) : (withdraw i s).still = s.still := by unfold withdraw; split <;> simp

@[simp] theorem freeDesc_still (i : Nat) (s : State) : (freeDesc i s).still = s.still := by unfold freeDesc; split <;> simp

@[simp] theorem countNote_still (type : Nat) (s : State) : (countNote type s).still = s.still := by
  unfold countNote; split <;> simp

@[simp] theorem sendNote_still (i : Nat) (a : NoteArgs) (s : State) : (sendNote i a s).still = s.still := by
  unfold sendNote; split <;> simp

@[simp] theorem noteClosing_still (c : Nat) (closing : Word) (s : State) :
    (noteClosing c closing s).still = s.still := by simp [noteClosing]

@[simp] theorem endWith_still (i : Nat) (a : NoteArgs) (s : State) : (endWith i a s).still = s.still := by
  unfold endWith; split <;> simp

/-! ### Machine/CloseOps -/

@[simp] theorem onTrim_still (c : Nat) (f : Trim → Trim) (s : State) : (onTrim c f s).still = s.still := by simp [onTrim]

@[simp] theorem setWindow_still (k : Nat) (x : Option Window) (s : State) : (setWindow k x s).still = s.still := by
  simp [setWindow]

@[simp] theorem setReserves_still (k : Nat) (l : List Reserve) (s : State) : (setReserves k l s).still = s.still := by
  simp [setReserves]

@[simp] theorem dropReserve_still (k x : Nat) (s : State) : (dropReserve k x s).still = s.still := by simp [dropReserve]

@[simp] theorem setTrim_still (c : Nat) (t : Int) (s : State) : (setTrim c t s).still = s.still := by simp [setTrim]

@[simp] theorem trimSet_still (c m : Nat) (s : State) : (trimSet c m s).still = s.still := by simp [trimSet]

@[simp] theorem trimMiss_still (c : Nat) (s : State) : (trimMiss c s).still = s.still := by simp [trimMiss]

@[simp] theorem trimFrom_still (c status m : Nat) (s : State) : (trimFrom c status m s).still = s.still := by simp [trimFrom]

@[simp] theorem trimReset_still (c : Nat) (s : State) : (trimReset c s).still = s.still := by simp [trimReset]

@[simp] theorem trimForArming_still (c : Nat) (s : State) : (trimForArming c s).2.still = s.still := by
  unfold trimForArming; split <;> simp

@[simp] theorem releaseWaiting_still (c x : Nat) (word : Word) (s : State) : (releaseWaiting c x word s).still = s.still := by
  unfold releaseWaiting; (try dsimp only)
  (refine (foldl_still _ (fun s a => ?_) _ _).trans ?_ <;> try dsimp only) <;> (repeat' split) <;> simp

@[simp] theorem measured_still (c x status cause delay : Nat) (s : State) :
    (measured c x status cause delay s).still = s.still := by simp [measured]

@[simp] theorem cutWindow_still (c cause : Nat) (s : State) : (cutWindow c cause s).still = s.still := by
  simp only [cutWindow]; (repeat' split) <;> simp

@[simp] theorem preempt_still (k : Nat) (s : State) : (preempt k s).still = s.still := by unfold preempt; split <;> simp

@[simp] theorem openClosing_still (c x : Nat) (eligible : Bool) (s : State) :
    (openClosing c x eligible s).still = s.still := by simp only [openClosing]; (repeat' split) <;> simp

@[simp] theorem beginReserved_still (c x : Nat) (s : State) :
    (beginReserved c x s).still = s.still := by unfold beginReserved; (repeat' split) <;> simp

@[simp] theorem openExit_still (c x len : Nat) (s : State) : (openExit c x len s).still = s.still := by
  simp only [openExit]; (repeat' split) <;> simp

@[simp] theorem endExit_still (c : Nat) (taken : Bool) (s : State) : (endExit c taken s).still = s.still := by
  simp only [endExit]; (repeat' split) <;> simp

@[simp] theorem loseReserve_still (k : Nat) (r : Reserve) (cause : Nat) (s : State) :
    (loseReserve k r cause s).still = s.still := by simp [loseReserve]

@[simp] theorem reserve_still (k : Nat) (x : Reserve) (s : State) : (reserve k x s).still = s.still := by simp [reserve]

@[simp] theorem reserveConverter_still (i : Nat) (d : Desc) (s : State) : (reserveConverter i d s).still = s.still := by
  simp [reserveConverter]

/-! ### Machine/ChanOps -/

@[simp] theorem beginRise_still (c delta : Nat) (s : State) : (beginRise c delta s).still = s.still := by simp [beginRise]

@[simp] theorem feedCheck_still (c : Nat) (s : State) : (feedCheck c s).still = s.still := by simp [feedCheck]

@[simp] theorem sourceOff_still (c : Nat) (s : State) : (sourceOff c s).still = s.still := by simp [sourceOff]

@[simp] theorem sourceOn_still (c : Nat) (s : State) : (sourceOn c s).still = s.still := by simp [sourceOn]

@[simp] theorem switchSource_still (c : Nat) (on : Bool) (s : State) : (switchSource c on s).still = s.still := by
  simp [switchSource]

@[simp] theorem regulate_still (c : Nat) (on : Bool) (s : State) : (regulate c on s).still = s.still := by simp [regulate]

@[simp] theorem callFor_still (c : Nat) (on : Bool) (s : State) : (callFor c on s).still = s.still := by simp [callFor]

@[simp] theorem quench_still (c mode : Nat) (clean : Bool) (s : State) : (quench c mode clean s).still = s.still := by
  simp [quench]

@[simp] theorem senseLost_still (c : Nat) (s : State) : (senseLost c s).still = s.still := by simp [senseLost]

@[simp] theorem plausFail_still (c : Nat) (s : State) : (plausFail c s).still = s.still := by simp [plausFail]

@[simp] theorem plausPass_still (c t : Nat) (r : Rise) (s : State) : (plausPass c t r s).still = s.still := by simp [plausPass]

@[simp] theorem endRise_still (c : Nat) (s : State) : (endRise c s).still = s.still := by unfold endRise; split <;> simp

@[simp] theorem disturbMates_still (c : Nat) (s : State) : (disturbMates c s).still = s.still := by
  unfold disturbMates; (try dsimp only)
  (refine (foldl_still _ (fun s a => ?_) _ _).trans ?_ <;> try dsimp only) <;> (repeat' split) <;> simp

@[simp] theorem startSource_still (c k : Nat) (idle : Bool) (s : State) : (startSource c k idle s).still = s.still := by
  simp [startSource]

@[simp] theorem runPhase_still (c k endOff : Nat) (idle : Bool) (s : State) :
    (runPhase c k endOff idle s).still = s.still := by simp [runPhase]

@[simp] theorem skipEvent_still (c delay last : Nat) (s : State) : (skipEvent c delay last s).still = s.still := by
  simp [skipEvent]

@[simp] theorem notReady_still (c act : Nat) (s : State) : (notReady c act s).still = s.still := by simp [notReady]

@[simp] theorem boostTest_still (c k endOff : Nat) (idle : Bool) (s : State) :
    (boostTest c k endOff idle s).still = s.still := by simp [boostTest]

@[simp] theorem storeFailed_still (c : Nat) (s : State) : (storeFailed c s).still = s.still := by simp [storeFailed]

@[simp] theorem enterPhase_still (c k endOff : Nat) (idle : Bool) (s : State) :
    (enterPhase c k endOff idle s).still = s.still := by simp [enterPhase]

@[simp] theorem exitPhase_still (c : Nat) (taken : Bool) (s : State) : (exitPhase c taken s).still = s.still := by
  simp [exitPhase]

@[simp] theorem takeConfig_still (m : Nat) (s : State) : (takeConfig m s).still = s.still := by simp [takeConfig]

@[simp] theorem prepare_still (m : Nat) (s : State) : (prepare m s).still = s.still := by
  simp only [prepare]; (repeat' split) <;> simp

@[simp] theorem startMember_still (m : Nat) (f : Frame) (p : List Word) (k : Nat) (hold : Bool) (s : State) :
    (startMember m f p k hold s).still = s.still := by simp [startMember]

@[simp] theorem startNotes_still (x : Nat) (f : Frame) (hold : Bool) (s : State) :
    (startNotes x f hold s).still = s.still := by simp [startNotes]

@[simp] theorem chanStart_still (c x : Nat) (f : Frame) (p : List Word) (k : Nat) (hold : Bool) (s : State) :
    (chanStart c x f p k hold s).still = s.still := by unfold chanStart; split <;> simp

@[simp] theorem chanOn_still (c x : Nat) (s : State) : (chanOn c x s).still = s.still := by
  simp only [chanOn]; (repeat' split) <;> simp

@[simp] theorem extendMember_still (m : Nat) (s : State) : (extendMember m s).still = s.still := by
  simp only [extendMember]; (repeat' split) <;> simp

@[simp] theorem restartMember_still (m : Nat) (f : Frame) (p : List Word) (s : State) :
    (restartMember m f p s).still = s.still := by simp [restartMember]

@[simp] theorem restartRefused_still (c x reason : Nat) (s : State) :
    (restartRefused c x reason s).still = s.still := by simp [restartRefused]

@[simp] theorem trackAgain_still (c x : Nat) (s : State) :
    (trackAgain c x s).still = s.still := by simp only [trackAgain]; (repeat' split) <;> simp

@[simp] theorem chanAgain_still (c x : Nat) (s : State) : (chanAgain c x s).still = s.still := by
  simp only [chanAgain]; (repeat' split) <;> simp

@[simp] theorem chanOff_still (c : Nat) (fast : Bool) (eligible : Option Bool) (s : State) :
    (chanOff c fast eligible s).still = s.still := by simp only [chanOff]; (repeat' split) <;> simp

@[simp] theorem latchChannel_still (m reason : Nat) (s : State) : (latchChannel m reason s).still = s.still := by
  simp [latchChannel]

@[simp] theorem tripMember_still (m reason mode : Nat) (s : State) : (tripMember m reason mode s).still = s.still := by
  simp [tripMember]

@[simp] theorem tripLatched_still (c code reason : Nat) (s : State) : (tripLatched c code reason s).still = s.still := by
  simp [tripLatched]

@[simp] theorem tripUnlatched_still (l : List Nat) (reason : Nat) (s : State) :
    (tripUnlatched l reason s).still = s.still := by simp [tripUnlatched]

@[simp] theorem clearLatch_still (c : Nat) (s : State) : (clearLatch c s).still = s.still := by simp [clearLatch]

/-! ### Machine/Drive -/

@[simp] theorem phaseExitTimeDue_still (c : Nat) (s : State) : (phaseExitTimeDue c s).still = s.still := by
  simp [phaseExitTimeDue]

@[simp] theorem aboveHigh_still (c : Nat) (s : State) : (aboveHigh c s).still = s.still := by simp [aboveHigh]

@[simp] theorem comparator_still (c : Nat) (high up : Bool) (s : State) : (comparator c high up s).still = s.still := by
  simp only [comparator]; (repeat' split) <;> simp

@[simp] theorem minTimeOver_still (c : Nat) (s : State) : (minTimeOver c s).still = s.still := by
  simp only [minTimeOver]; (repeat' split) <;> simp

@[simp] theorem toggleSource_still (c : Nat) (s : State) : (toggleSource c s).still = s.still := by
  simp only [toggleSource]; (repeat' split) <;> simp

@[simp] theorem setDraw_still (n b v : Nat) (s : State) : (setDraw n b v s).still = s.still := by simp [setDraw]

@[simp] theorem learnDraw_still (b n g : Nat) (s : State) : (learnDraw b n g s).still = s.still := by simp [learnDraw]

@[simp] theorem decayOver_still (c : Nat) (drawn : List Nat) (s : State) :
    (decayOver c drawn s).still = s.still := by simp only [decayOver]; (repeat' split) <;> simp

@[simp] theorem dutyCut_still (c : Nat) (s : State) : (dutyCut c s).still = s.still := by simp [dutyCut]

@[simp] theorem plausTimedOut_still (c : Nat) (s : State) : (plausTimedOut c s).still = s.still := by
  unfold plausTimedOut; split <;> simp

@[simp] theorem setValid_still (n : Nat) (b : Bool) (s : State) : (setValid n b s).still = s.still := by simp [setValid]

@[simp] theorem profileStored_still (s : State) : (profileStored s).still = s.still := by unfold profileStored; split <;> simp

@[simp] theorem drainRead_still (c v : Nat) (s : State) : (drainRead c v s).still = s.still := by simp [drainRead]

@[simp] theorem calBegin_still (c since : Nat) (s : State) : (calBegin c since s).still = s.still := by simp [calBegin]

@[simp] theorem calAsk_still (c : Nat) (s : State) : (calAsk c s).still = s.still := by unfold calAsk; split <;> simp

@[simp] theorem calRun_still (c : Nat) (s : State) : (calRun c s).still = s.still := by unfold calRun; split <;> simp

@[simp] theorem calDecide_still (e status : Nat) (last : Bool) (s : State) :
    (calDecide e status last s).still = s.still := by simp [calDecide]

@[simp] theorem clearSense_still (c : Nat) (s : State) : (clearSense c s).still = s.still := by simp [clearSense]

@[simp] theorem calDone_still (c : Nat) (mA : Int) (s : State) : (calDone c mA s).still = s.still := by
  unfold calDone; split <;> simp

@[simp] theorem calTimeout_still (c : Nat) (s : State) : (calTimeout c s).still = s.still := by unfold calTimeout; split <;> simp

/-! ### Machine/Boost -/

@[simp] theorem onBoost_still (b : Nat) (f : Boost → Boost) (s : State) : (onBoost b f s).still = s.still := by simp [onBoost]

@[simp] theorem boostDrive_still (b : Nat) (s : State) : (boostDrive b s).still = s.still := by simp [boostDrive]

@[simp] theorem boostDrives_still (s : State) : (boostDrives s).still = s.still := by simp [boostDrives]

@[simp] theorem boostEnter_still (b x : Nat) (s : State) : (boostEnter b x s).still = s.still := by simp [boostEnter]

@[simp] theorem releaseWaiters_still (b : Nat) (s : State) : (releaseWaiters b s).still = s.still := by
  unfold releaseWaiters; (try dsimp only)
  (refine (foldl_still _ (fun s a => ?_) _ _).trans ?_ <;> try dsimp only) <;> (repeat' split) <;> simp

@[simp] theorem boostTrack_still (b : Nat) (s : State) : (boostTrack b s).still = s.still := by simp [boostTrack]

@[simp] theorem vcapFrom_still (b v t : Nat) (s : State) : (vcapFrom b v t s).still = s.still := by simp [vcapFrom]

@[simp] theorem setVcap_still (b v : Nat) (s : State) : (setVcap b v s).still = s.still := by simp [setVcap]

@[simp] theorem bankRun_still (b t n : Nat) (r : BankRun) (s : State) : (bankRun b t n r s).still = s.still := by simp [bankRun]

@[simp] theorem boostMeasure_still (l : List BoostRun) (s : State) : (boostMeasure l s).still = s.still := by
  unfold boostMeasure; rw [foldl_snd_still _ (fun _ _ => by simp)]

@[simp] theorem boostWaitOver_still (c : Nat) (s : State) : (boostWaitOver c s).still = s.still := by
  unfold boostWaitOver; split <;> simp

@[simp] theorem boostStop_still (b : Nat) (s : State) : (boostStop b s).still = s.still := by simp [boostStop]

@[simp] theorem boostStart_still (b : Nat) (s : State) : (boostStart b s).still = s.still := by simp [boostStart]

@[simp] theorem boostConfigure_still (b : Nat) (cfg cap : Word) (leave : Bool) (s : State) :
    (boostConfigure b cfg cap leave s).still = s.still := by simp [boostConfigure]

@[simp] theorem bstWrite_still (b : Nat) (cap : Bool) (x : Word) (s : State) : (bstWrite b cap x s).still = s.still := by
  simp [bstWrite]

@[simp] theorem boostConfig_still (m : Msg) (s : State) : (boostConfig m s).still = s.still := by simp [boostConfig]

@[simp] theorem boostStatus_still (m : Msg) (s : State) : (boostStatus m s).still = s.still := by simp [boostStatus]

@[simp] theorem boostRecover_still (b : Nat) (s : State) : (boostRecover b s).still = s.still := by simp [boostRecover]

@[simp] theorem bootBoost_still (b : Nat) (cfg cap : Word) (s : State) : (bootBoost b cfg cap s).still = s.still := by
  simp [bootBoost]

/-! ### Machine/Protect -/

@[simp] theorem testResult_still (c drain high : Nat) (s : State) :
    (testResult c drain high s).still = s.still := by unfold testResult; (repeat' split) <;> simp

@[simp] theorem openLoad_still (c amps drain : Nat) (s : State) : (openLoad c amps drain s).still = s.still := by simp [openLoad]

@[simp] theorem channelThermal_still (c t : Nat) (s : State) : (channelThermal c t s).still = s.still := by simp [channelThermal]

@[simp] theorem zoneThermal_still (z t : Nat) (s : State) : (zoneThermal z t s).still = s.still := by simp [zoneThermal]

@[simp] theorem retryChannel_still (c : Nat) (s : State) : (retryChannel c s).still = s.still := by
  unfold retryChannel; split <;> simp

@[simp] theorem latchWrite_still (c : Nat) (v : Bool) (s : State) : (latchWrite c v s).still = s.still := by simp [latchWrite]

@[simp] theorem prtStatWrite_still (c : Nat) (x : Word) (s : State) : (prtStatWrite c x s).still = s.still := by
  simp [prtStatWrite]

@[simp] theorem protectConfig_still (m : Msg) (s : State) : (protectConfig m s).still = s.still := by simp [protectConfig]

@[simp] theorem clearChannelItem_still (m : Msg) (c : Nat) (s : State) : (clearChannelItem m c s).2.still = s.still := by
  unfold clearChannelItem; (repeat' split) <;> simp

@[simp] theorem clearBoostItem_still (m : Msg) (b : Nat) (s : State) : (clearBoostItem m b s).2.still = s.still := by
  unfold clearBoostItem; split <;> simp

@[simp] theorem clearChannels_still (m : Msg) (mask : Nat) (s : State) : (clearChannels m mask s).2.still = s.still := by
  unfold clearChannels
  refine (foldl_snd_still _ (fun a n => ?_) _ _).trans rfl
  split <;> simp

@[simp] theorem clearBoosts_still (m : Msg) (mask : Nat) (a : Tbl Nat × State) : (clearBoosts m mask a).2.still = a.2.still := by
  unfold clearBoosts
  refine foldl_snd_still _ (fun a n => ?_) _ _
  split <;> simp

@[simp] theorem protectClear_still (m : Msg) (s : State) : (protectClear m s).still = s.still := by
  unfold protectClear; split <;> simp

/-! ### Machine/Closing -/

@[simp] theorem closedExit_still (c : Nat) (s : State) : (closedExit c s).still = s.still := by simp [closedExit]

@[simp] theorem kinkFound_still (k : Nat) (v : List (BitVec 12)) (below : Nat) (s : State) :
    (kinkFound k v below s).still = s.still := by simp only [kinkFound]; (repeat' split) <;> simp

@[simp] theorem windowOver_still (k : Nat) (s : State) : (windowOver k s).still = s.still := by unfold windowOver; split <;> simp

@[simp] theorem cdConfigure_still (c : Nat) (cfg det plaus lim : Word) (s : State) :
    (cdConfigure c cfg det plaus lim s).still = s.still := by simp only [cdConfigure]; (repeat' split) <;> simp

@[simp] theorem cdWrite_still (c off : Nat) (x : Word) (s : State) : (cdWrite c off x s).still = s.still := by simp [cdWrite]

@[simp] theorem closingConfig_still (m : Msg) (s : State) : (closingConfig m s).still = s.still := by
  unfold closingConfig; split <;> simp

@[simp] theorem trimResetItems_still (m : Msg) (mask : Nat) (s : State) : (trimResetItems m mask s).2.still = s.still := by
  unfold trimResetItems
  refine (foldl_snd_still _ (fun a n => ?_) _ _).trans rfl
  (repeat' split) <;> simp

@[simp] theorem trimResetCmd_still (m : Msg) (s : State) : (trimResetCmd m s).still = s.still := by
  unfold trimResetCmd; split <;> simp

@[simp] theorem closingStatus_still (m : Msg) (s : State) : (closingStatus m s).still = s.still := by
  unfold closingStatus; split <;> simp

/-! ### Machine/AuxOut -/

@[simp] theorem onAux_still (n : Nat) (f : Aux → Aux) (s : State) : (onAux n f s).still = s.still := by simp [onAux]

@[simp] theorem auxConducts_still (n : Nat) (s : State) : (auxConducts n s).still = s.still := by simp [auxConducts]

@[simp] theorem auxInrush_still (n : Nat) (s : State) : (auxInrush n s).still = s.still := by simp [auxInrush]

@[simp] theorem auxWait_still (n : Nat) (s : State) : (auxWait n s).still = s.still := by simp [auxWait]

@[simp] theorem auxEnergise_still (n : Nat) (s : State) : (auxEnergise n s).still = s.still := by simp [auxEnergise]

@[simp] theorem serveWaiters_still (n : Nat) (s : State) : (serveWaiters n s).still = s.still := by
  unfold serveWaiters; (repeat' split) <;> simp

@[simp] theorem auxSwitchOff_still (n : Nat) (s : State) : (auxSwitchOff n s).still = s.still := by simp [auxSwitchOff]

@[simp] theorem auxRun_still (r : AuxRun) (t : Nat) (s : State) : (auxRun r t s).still = s.still := by simp [auxRun]

@[simp] theorem auxMeasure_still (l : List AuxRun) (s : State) : (auxMeasure l s).still = s.still := by
  unfold auxMeasure; rw [foldl_snd_still _ (fun _ _ => by simp)]

@[simp] theorem auxReport_still (n reason : Nat) (s : State) : (auxReport n reason s).still = s.still := by simp [auxReport]

@[simp] theorem auxStart_still (n : Nat) (s : State) : (auxStart n s).still = s.still := by simp [auxStart]

@[simp] theorem auxOn_still (n x : Nat) (s : State) : (auxOn n x s).still = s.still := by
  simp only [auxOn]; (repeat' split) <;> simp

@[simp] theorem auxAgain_still (n x : Nat) (s : State) : (auxAgain n x s).still = s.still := by unfold auxAgain; split <;> simp

@[simp] theorem auxOff_still (n : Nat) (s : State) : (auxOff n s).still = s.still := by simp [auxOff]

@[simp] theorem inrushEnd_still (n : Nat) (s : State) :
    (inrushEnd n s).still = s.still := by unfold inrushEnd; (repeat' split) <;> simp

@[simp] theorem auxShort_still (n : Nat) (s : State) : (auxShort n s).still = s.still := by simp [auxShort]

@[simp] theorem auxOpen_still (n : Nat) (s : State) : (auxOpen n s).still = s.still := by simp [auxOpen]

@[simp] theorem auxBackfeed_still (n : Nat) (s : State) : (auxBackfeed n s).still = s.still := by simp [auxBackfeed]

@[simp] theorem auxShutdown_still (n : Nat) (s : State) : (auxShutdown n s).still = s.still := by simp [auxShutdown]

@[simp] theorem auxThermal_still (n t : Nat) (s : State) : (auxThermal n t s).still = s.still := by simp [auxThermal]

@[simp] theorem retryAux_still (n : Nat) (s : State) : (retryAux n s).still = s.still := by unfold retryAux; split <;> simp

@[simp] theorem clearAux_still (n : Nat) (s : State) : (clearAux n s).still = s.still := by simp [clearAux]

@[simp] theorem auxStatWrite_still (n : Nat) (x : Word) (s : State) : (auxStatWrite n x s).still = s.still := by
  simp [auxStatWrite]

@[simp] theorem auxEnable_still (x : Nat) (s : State) : (auxEnable x s).still = s.still := by simp [auxEnable]

@[simp] theorem auxCfgWrite_still (n : Nat) (x : Word) (s : State) : (auxCfgWrite n x s).still = s.still := by simp [auxCfgWrite]

@[simp] theorem auxConfig_still (m : Msg) (s : State) : (auxConfig m s).still = s.still := by simp [auxConfig]

@[simp] theorem clearAuxItems_still (m : Msg) (mask : Nat) (s : State) : (clearAuxItems m mask s).2.still = s.still := by
  unfold clearAuxItems
  refine (foldl_snd_still _ (fun a n => ?_) _ _).trans rfl
  (repeat' split) <;> simp

@[simp] theorem auxClear_still (m : Msg) (s : State) : (auxClear m s).still = s.still := by unfold auxClear; split <;> simp

@[simp] theorem auxQuery_still (m : Msg) (s : State) : (auxQuery m s).still = s.still := by simp [auxQuery]

/-! ### Machine/Acq -/

@[simp] theorem intPulse_still (k : Nat) (s : State) : (intPulse k s).still = s.still := by simp [intPulse]

@[simp] theorem onList_still (l : Nat) (f : AcqList → AcqList) (s : State) : (onList l f s).still = s.still := by simp [onList]

@[simp] theorem setRunning_still (l : Nat) (b : Bool) (s : State) : (setRunning l b s).still = s.still := by simp [setRunning]

@[simp] theorem acqStop_still (l : Nat) (s : State) : (acqStop l s).still = s.still := by simp [acqStop]

@[simp] theorem setSample_firm (a : Nat) (b : Byte) (s : State) (h : s.still.firm.memOk = true) : (setSample a b s).still.firm = s.still.firm := by
  have e : Tbl.wf 0#8 (Tbl.set 0#8 s.acq.sample a b) = true := Tbl.wf_set _ _ h
  show Firm.mk (Tbl.wf 0#8 (Tbl.set 0#8 s.acq.sample a b)) _ _ _ _ _ _ _ _ _ =
    Firm.mk (Tbl.wf 0#8 s.acq.sample) _ _ _ _ _ _ _ _ _
  rw [e, show Tbl.wf 0#8 s.acq.sample = true from h]; rfl

@[simp] theorem setWord16_firm (l off v : Nat) (s : State) (h : s.still.firm.memOk = true) :
    (setWord16 l off v s).still.firm = s.still.firm := by simp [setWord16, h]

@[simp] theorem setWord32_firm (l off v : Nat) (s : State) (h : s.still.firm.memOk = true) :
    (setWord32 l off v s).still.firm = s.still.firm := by simp [setWord32, h]

@[simp] theorem acqInterrupt_still (l : Nat) (s : State) : (acqInterrupt l s).still = s.still := by
  have e : (intPulse (276 + l) s).still = s.still := intPulse_still _ _
  unfold acqInterrupt
  generalize intPulse (276 + l) s = t at e ⊢
  dsimp only; split <;> simp [e]

@[simp] theorem reserveSpace_still (l n : Nat) (s : State) : (reserveSpace l n s).2.still = s.still := by simp [reserveSpace]

@[simp] theorem acqOverflow_still (l : Nat) (s : State) : (acqOverflow l s).still = s.still := by simp [acqOverflow]

@[simp] theorem storeLost_firm (l : Nat) (counts : Bool) (s : State) (h : s.still.firm.memOk = true) : (storeLost l counts s).still.firm = s.still.firm := by
  unfold storeLost; dsimp only
  split
  · have e : ∀ t : State, t.still = s.still → t.still.firm.memOk = true := fun t h' => by rw [h']; exact h
    refine (foldl_firm _ (fun s a hs => setWord16_firm _ _ _ s hs) _ _ (e _ ?_)).trans (congrArg Still.firm ?_) <;>
      · rw [reserveSpace_still]; split <;> simp
  · simp

@[simp] theorem setConv_still (k : Nat) (x : Option Conv) (s : State) : (setConv k x s).still = s.still := by simp [setConv]

@[simp] theorem setUrgent_still (k : Nat) (x y : Option Urgent) (s : State) : (setUrgent k x y s).still = s.still := by
  simp [setUrgent]

@[simp] theorem convChoose_still (k at_ : Nat) (s : State) : (convChoose k at_ s).still = s.still := by
  simp only [convChoose]; (repeat' split) <;> simp

@[simp] theorem convKick_still (k : Nat) (s : State) : (convKick k s).still = s.still := by simp [convKick]

@[simp] theorem knockSample_still (l x : Nat) (s : State) : (knockSample l x s).still = s.still := by simp [knockSample]

@[simp] theorem conversionDone_firm (k vin vref : Nat) (s : State) (h : s.still.firm.memOk = true) :
    (conversionDone k vin vref s).still.firm = s.still.firm := by simp only [conversionDone]; (repeat' split) <;> simp [h]

@[simp] theorem acqUnsettled_still (s : State) : (acqUnsettled s).still = s.still := by simp [acqUnsettled]

@[simp] theorem knockLost_still (l : Nat) (s : State) : (knockLost l s).still = s.still := by simp [knockLost]

@[simp] theorem acqTrigger_firm (l : Nat) (s : State) (h : s.still.firm.memOk = true) :
    (acqTrigger l s).still.firm = s.still.firm := by simp only [acqTrigger]; (repeat' split) <;> simp [h]

@[simp] theorem angleTriggers_firm (l n : Nat) (s : State) (h : s.still.firm.memOk = true) :
    (angleTriggers l n s).still.firm = s.still.firm := by
  induction n generalizing s with
  | zero => rfl
  | succ n ih =>
    unfold angleTriggers; dsimp only
    (repeat' split) <;> simp [ih, h]

@[simp] theorem acqLine_firm (k : Nat) (s : State) (h : s.still.firm.memOk = true) : (acqLine k s).still.firm = s.still.firm := by
  unfold acqLine
  refine foldl_firm _ (fun s a h => ?_) _ _ h
  dsimp only; split <;> simp [h]

@[simp] theorem knockRecord_firm (l : Nat) (k : Knock) (abandoned : Bool) (s : State) (h : s.still.firm.memOk = true) : (knockRecord l k abandoned s).still.firm = s.still.firm := by
  unfold knockRecord
  split
  · rfl
  · refine foldl_firm _ (fun s a h => ?_) _ _ h
    simp [h]

@[simp] theorem knockClose_firm (l : Nat) (abandoned : Bool) (s : State) (h : s.still.firm.memOk = true) :
    (knockClose l abandoned s).still.firm = s.still.firm := by simp only [knockClose]; (repeat' split) <;> simp [h]

@[simp] theorem knockTrigger_firm (l : Nat) (s : State) (h : s.still.firm.memOk = true) :
    (knockTrigger l s).still.firm = s.still.firm := by simp [knockTrigger, h]

@[simp] theorem knockOpen_firm (l : Nat) (s : State) (h : s.still.firm.memOk = true) :
    (knockOpen l s).still.firm = s.still.firm := by simp only [knockOpen]; (repeat' split) <;> simp [h]

@[simp] theorem acqBreak_firm (l : Nat) (s : State) (h : s.still.firm.memOk = true) : (acqBreak l s).still.firm = s.still.firm := by
  have e : ∀ n : Nat, ((List.range n).foldl (fun s _ => storeLost l false s) s).still.firm = s.still.firm := fun n =>
    foldl_firm _ (fun s a h => by simp [h]) _ _ h
  unfold acqBreak; dsimp only
  (repeat' split) <;> simp [h, e]

@[simp] theorem acqConditions_firm (s : State) (h : s.still.firm.memOk = true) : (acqConditions s).still.firm = s.still.firm := by
  unfold acqConditions
  refine foldl_firm _ (fun s a h => ?_) _ _ h
  dsimp only; (repeat' split) <;> simp [h]

@[simp] theorem convAll_still (s : State) : (convAll s).still = s.still := by simp [convAll]

@[simp] theorem refSettled_still (s : State) : (refSettled s).still = s.still := by simp [refSettled]

@[simp] theorem urgentError_still (k status : Nat) (s : State) : (urgentError k status s).still = s.still := by
  unfold urgentError; (repeat' split) <;> simp

@[simp] theorem urgentErrorAll_still (k status : Nat) (s : State) : (urgentErrorAll k status s).still = s.still := by
  simp only [urgentErrorAll]; (repeat' split) <;> simp

@[simp] theorem urgentUnsettled_still (k : Nat) (s : State) : (urgentUnsettled k s).still = s.still := by simp [urgentUnsettled]

@[simp] theorem convHold_still (k : Nat) (s : State) :
    (convHold k s).still = s.still := by unfold convHold; (repeat' split) <;> simp

@[simp] theorem refUnsettle_still (s : State) : (refUnsettle s).still = s.still := by simp [refUnsettle]

@[simp] theorem refSelect_still (x : Nat) (s : State) : (refSelect x s).still = s.still := by simp [refSelect]

@[simp] theorem refWrite_still (x : Word) (s : State) : (refWrite x s).still = s.still := by simp [refWrite]

@[simp] theorem acqRefSet_still (m : Msg) (s : State) : (acqRefSet m s).still = s.still := by simp [acqRefSet]

@[simp] theorem acqDomainOff_still (k : Nat) (s : State) : (acqDomainOff k s).still = s.still := by simp [acqDomainOff]

@[simp] theorem urgentAsk_still (k n : Nat) (cmd : Option Msg) (s : State) : (urgentAsk k n cmd s).still = s.still := by
  simp [urgentAsk]

@[simp] theorem urgWrite_still (k : Nat) (x : Word) (s : State) : (urgWrite k x s).still = s.still := by simp [urgWrite]

@[simp] theorem acqUrgent_still (m : Msg) (s : State) : (acqUrgent m s).still = s.still := by simp [acqUrgent]

@[simp] theorem acqListPut_still (m : Msg) (s : State) : (acqListPut m s).still = s.still := by
  simp only [acqListPut]; (repeat' split) <;> simp

@[simp] theorem acqStart_still (l : Nat) (s : State) : (acqStart l s).still = s.still := by simp [acqStart]

@[simp] theorem acqAskStop_still (l : Nat) (s : State) : (acqAskStop l s).still = s.still := by simp [acqAskStop]

@[simp] theorem acqListCtrl_still (m : Msg) (s : State) : (acqListCtrl m s).still = s.still := by
  unfold acqListCtrl; split <;> simp

@[simp] theorem acqStatus_still (m : Msg) (s : State) : (acqStatus m s).still = s.still := by simp [acqStatus]

/-! ### Machine/Monitor -/

@[simp] theorem onMon_still (i : Nat) (f : Mon → Mon) (s : State) : (onMon i f s).still = s.still := by simp [onMon]

@[simp] theorem testDecide_still (i status : Nat) (s : State) : (testDecide i status s).still = s.still := by simp [testDecide]

@[simp] theorem monAbort_still (i : Nat) (s : State) : (monAbort i s).still = s.still := by unfold monAbort; split <;> simp

@[simp] theorem monCrossing_still (i q : Nat) (s : State) : (monCrossing i q s).still = s.still := by simp [monCrossing]

@[simp] theorem monViolation_still (i : Nat) (high : Bool) (s : State) : (monViolation i high s).still = s.still := by
  simp only [monViolation]; (repeat' split) <;> simp

@[simp] theorem monRecover_still (i q : Nat) (s : State) : (monRecover i q s).still = s.still := by simp [monRecover]

@[simp] theorem monTestBegin_still (i : Nat) (s : State) : (monTestBegin i s).still = s.still := by simp [monTestBegin]

@[simp] theorem monAuto_still (i : Nat) (s : State) : (monAuto i s).still = s.still := by simp [monAuto]

@[simp] theorem monStep_still (i : Nat) (outs : Bool × Bool) (s : State) :
    (monStep i outs s).still = s.still := by unfold monStep; (repeat' split) <;> simp

@[simp] theorem cmpBegin_still (c : Nat) (s : State) : (cmpBegin c s).still = s.still := by simp [cmpBegin]

@[simp] theorem cmpFail_still (c : Nat) (s : State) : (cmpFail c s).still = s.still := by simp [cmpFail]

@[simp] theorem cmpSecond_still (e : Nat) (b : Bool) (s : State) : (cmpSecond e b s).still = s.still := by simp [cmpSecond]

@[simp] theorem cmpRetry_still (e : Nat) (s : State) : (cmpRetry e s).still = s.still := by unfold cmpRetry; split <;> simp

@[simp] theorem cmpStep_still (c : Nat) (outs : Bool × Bool) (s : State) : (cmpStep c outs s).still = s.still := by simp [cmpStep]

@[simp] theorem monThresholds_still (i : Nat) (x : Word) (s : State) : (monThresholds i x s).still = s.still := by
  simp [monThresholds]

@[simp] theorem monConfig_still (m : Msg) (s : State) : (monConfig m s).still = s.still := by unfold monConfig; split <;> simp

@[simp] theorem testBegin_still (i : Nat) (s : State) : (testBegin i s).still = s.still := by simp [testBegin]

@[simp] theorem monSelftest_still (m : Msg) (s : State) : (monSelftest m s).still = s.still := by
  unfold monSelftest; split <;> simp

/-! ### Machine/Timers -/

@[simp] theorem onTimer_still (t : Nat) (f : Timer → Timer) (s : State) : (onTimer t f s).still = s.still := by simp [onTimer]

@[simp] theorem showRunning_still (s : State) : (showRunning s).still = s.still := by simp [showRunning]

@[simp] theorem timerStart_still (t : Nat) (s : State) : (timerStart t s).still = s.still := by simp [timerStart]

@[simp] theorem takeBack_still (f : Fld) (s : State) : (takeBack f s).still = s.still := by simp [takeBack]

@[simp] theorem timerUndo_still (t : Nat) (s : State) :
    (timerUndo t s).still = s.still := by unfold timerUndo; (repeat' split) <;> simp

@[simp] theorem timerStop_still (t : Nat) (s : State) : (timerStop t s).still = s.still := by simp [timerStop]

@[simp] theorem hostTimers_still (x : Word) (s : State) : (hostTimers x s).2.still = s.still := by simp [hostTimers]

theorem eachTimer_still (mask : Nat) (f : Nat → State → State) (s : State) (h : ∀ t s, (f t s).still = s.still) :
    (eachTimer mask f s).still = s.still := by
  unfold eachTimer
  simp only [showRunning_still]
  refine foldl_still _ (fun s a => ?_) _ _
  split <;> simp [h]

@[simp] theorem timersWrite_still (run : Bool) (x : Word) (s : State) : (timersWrite run x s).still = s.still := by
  unfold timersWrite
  refine (eachTimer_still _ _ _ (fun t s => ?_)).trans ?_
  · split <;> simp
  · simp


@[simp] theorem tioPads_still (outside : Nat) (s : State) : (tioPads outside s).still = s.still := by simp [tioPads]

@[simp] theorem tioRefresh_still (s : State) : (tioRefresh s).still = s.still := by simp [tioRefresh]

@[simp] theorem tioAction_still (t p act : Nat) (s : State) : (tioAction t p act s).still = s.still := by simp [tioAction]

@[simp] theorem tioSettle_still (s : State) : (tioSettle s).still = s.still := by simp [tioSettle]

@[simp] theorem timerInt_still (t : Nat) (f : Fld) (s : State) : (timerInt t f s).still = s.still := by simp [timerInt]

@[simp] theorem timerActs_still (t : Nat) (s : State) : (timerActs t s).still = s.still := by simp [timerActs]

@[simp] theorem timerMatch_still (t : Nat) (s : State) : (timerMatch t s).still = s.still := by simp [timerMatch]

@[simp] theorem timerEdge_still (t : Nat) (rising : Bool) (s : State) : (timerEdge t rising s).still = s.still := by
  simp [timerEdge]

@[simp] theorem timerWrite_still (t off : Nat) (x : Word) (s : State) : (timerWrite t off x s).still = s.still := by
  simp [timerWrite]

@[simp] theorem tioWrite_still (x : Word) (s : State) : (tioWrite x s).still = s.still := by simp [tioWrite]

@[simp] theorem timerReset_still (t : Nat) (s : State) : (timerReset t s).still = s.still := by simp [timerReset]

/-! ### Machine/PinEngine -/

@[simp] theorem onPe_still (n : Nat) (f : Pe → Pe) (s : State) : (onPe n f s).still = s.still := by simp [onPe]

@[simp] theorem peInt_still (n : Nat) (s : State) : (peInt n s).still = s.still := by simp [peInt]

@[simp] theorem pePads_still (n outside : Nat) (s : State) : (pePads n outside s).still = s.still := by simp [pePads]

@[simp] theorem peStart_still (n : Nat) (s : State) : (peStart n s).still = s.still := by simp [peStart]

@[simp] theorem peStop_still (n : Nat) (s : State) : (peStop n s).still = s.still := by simp [peStop]

@[simp] theorem peRunWrite_still (n : Nat) (x : Word) (s : State) : (peRunWrite n x s).still = s.still := by simp [peRunWrite]

@[simp] theorem peTxWrite_still (n : Nat) (x : Word) (s : State) : (peTxWrite n x s).still = s.still := by simp [peTxWrite]

@[simp] theorem peRxRead_still (n : Nat) (s : State) : (peRxRead n s).2.still = s.still := by
  simp only [peRxRead]; (repeat' split) <;> simp

@[simp] theorem peConfigWrite_still (n off : Nat) (x : Word) (s : State) : (peConfigWrite n off x s).still = s.still := by
  simp [peConfigWrite]

@[simp] theorem peFault_still (n : Nat) (s : State) : (peFault n s).still = s.still := by simp [peFault]

@[simp] theorem peFetch_still (n : Nat) (w : Word) (s : State) : (peFetch n w s).still = s.still := by
  unfold peFetch; split <;> simp

@[simp] theorem peSetPins_still (n : Nat) (w : Word) (s : State) : (peSetPins n w s).still = s.still := by simp [peSetPins]

@[simp] theorem peSerial_still (n pins : Nat) (w : Word) (s : State) : (peSerial n pins w s).still = s.still := by simp [peSerial]

@[simp] theorem peDeposit_still (n : Nat) (w : Word) (s : State) : (peDeposit n w s).still = s.still := by simp [peDeposit]

@[simp] theorem peCounter_still (n : Nat) (w : Word) (s : State) : (peCounter n w s).still = s.still := by
  unfold peCounter; split <;> simp

@[simp] theorem peNext_still (n pins : Nat) (w : Word) (s : State) : (peNext n pins w s).still = s.still := by simp [peNext]

@[simp] theorem peTick_still (n pins : Nat) (s : State) : (peTick n pins s).still = s.still := by simp [peTick]

@[simp] theorem peReset_still (n : Nat) (s : State) : (peReset n s).still = s.still := by simp [peReset]

/-! ### Machine/Position -/

@[simp] theorem onPos_still (i : Nat) (f : Pos → Pos) (s : State) : (onPos i f s).still = s.still := by simp [onPos]

@[simp] theorem posInt_still (i : Nat) (s : State) : (posInt i s).still = s.still := by simp [posInt]

@[simp] theorem posError_still (i : Nat) (s : State) : (posError i s).still = s.still := by simp [posError]

@[simp] theorem posCountError_still (i : Nat) (s : State) : (posCountError i s).still = s.still := by simp [posCountError]

@[simp] theorem posCompare_still (i : Nat) (s : State) : (posCompare i s).still = s.still := by
  simp only [posCompare]; (repeat' split) <;> simp

@[simp] theorem posPublish_still (i : Nat) (s : State) : (posPublish i s).still = s.still := by simp [posPublish]

@[simp] theorem posMove_still (i : Nat) (n : Int) (s : State) : (posMove i n s).still = s.still := by simp [posMove]

@[simp] theorem posInputs_still (i : Nat) (a b z : Bool) (s : State) : (posInputs i a b z s).still = s.still := by
  simp only [posInputs]; (repeat' split) <;> simp

@[simp] theorem posIndex_still (i : Nat) (s : State) : (posIndex i s).still = s.still := by simp [posIndex]

@[simp] theorem posValue_still (i v w : Nat) (s : State) : (posValue i v w s).still = s.still := by
  simp only [posValue]; (repeat' split) <;> simp

@[simp] theorem sentFrame_still (i : Nat) (pulses : List Nat) (s : State) : (sentFrame i pulses s).still = s.still := by
  unfold sentFrame; (repeat' split) <;> simp

@[simp] theorem posLost_still (i : Nat) (s : State) : (posLost i s).still = s.still := by simp [posLost]

@[simp] theorem ssiStart_still (i : Nat) (idle : Bool) (s : State) : (ssiStart i idle s).still = s.still := by simp [ssiStart]

@[simp] theorem ssiDone_still (i : Nat) (data : List (Nat × Bool)) (s : State) :
    (ssiDone i data s).still = s.still := by unfold ssiDone; (repeat' split) <;> simp

@[simp] theorem posUndo_still (i : Nat) (s : State) : (posUndo i s).still = s.still := by simp [posUndo]

@[simp] theorem posCheck_still (i : Nat) (s : State) : (posCheck i s).still = s.still := by simp [posCheck]

@[simp] theorem posPreset_still (i : Nat) (x : Word) (s : State) : (posPreset i x s).still = s.still := by simp [posPreset]

@[simp] theorem posStart_still (i : Nat) (s : State) : (posStart i s).still = s.still := by simp [posStart]

@[simp] theorem posWrite_still (i off : Nat) (x : Word) (s : State) : (posWrite i off x s).still = s.still := by simp [posWrite]

@[simp] theorem posReset_still (i : Nat) (s : State) : (posReset i s).still = s.still := by simp [posReset]

@[simp] theorem settle_still (s : State) : (settle s).still = s.still := by simp [settle]

@[simp] theorem pinsRefresh_still (s : State) : (pinsRefresh s).still = s.still := by simp [pinsRefresh]

@[simp] theorem pinsOutside_still (tio : BitVec 8) (pep : Word) (s : State) :
    (pinsOutside tio pep s).still = s.still := by simp [pinsOutside]

/-! ### Machine/Lanes -/

@[simp] theorem onLane_still (o : Nat) (f : Lane → Lane) (s : State) : (onLane o f s).still = s.still := by simp [onLane]

@[simp] theorem laneOn_still (o x : Nat) (s : State) : (laneOn o x s).still = s.still := by simp [laneOn]

@[simp] theorem sendFrame_still (o x profile startPhase : Nat) (battery : Bool) (s : State) :
    (sendFrame o x profile startPhase battery s).still = s.still := by simp [sendFrame]

@[simp] theorem onPls_still (p : Nat) (f : PPair → PPair) (s : State) : (onPls p f s).still = s.still := by simp [onPls]

@[simp] theorem onCtx_still (n : Nat) (f : PCtx → PCtx) (s : State) : (onCtx n f s).still = s.still := by simp [onCtx]

@[simp] theorem pulseFrame_still (o : Nat) (s : State) : (pulseFrame o s).still = s.still := by unfold pulseFrame; split <;> simp

@[simp] theorem laneOff_still (o : Nat) (fast : Bool) (eligible : Option Bool) (s : State) :
    (laneOff o fast eligible s).still = s.still := by simp [laneOff]

@[simp] theorem dropStakes_still (p : Nat) (f : PStake → Bool) (s : State) : (dropStakes p f s).still = s.still := by
  simp [dropStakes]

@[simp] theorem pulseLevel_still (src : Nat) (level : Bool) (s : State) : (pulseLevel src level s).still = s.still := by
  simp [pulseLevel]

@[simp] theorem setPad_still (g : Nat) (level : Bool) (s : State) : (setPad g level s).still = s.still := by simp [setPad]

@[simp] theorem setGpo_still (g : Nat) (level : Bool) (s : State) : (setGpo g level s).still = s.still := by simp [setGpo]

@[simp] theorem gpoPads_still (outside : Nat) (s : State) : (gpoPads outside s).still = s.still := by simp [gpoPads]

@[simp] theorem drivePins_still (s : State) : (drivePins s).still = s.still := by simp [drivePins]

@[simp] theorem pulseOutOff_still (o : Nat) (fast : Bool) (s : State) : (pulseOutOff o fast s).still = s.still := by
  simp [pulseOutOff]

@[simp] theorem pulseOff_still (t : Nat) (fast : Bool) (s : State) : (pulseOff t fast s).still = s.still := by
  unfold pulseOff; split <;> simp

@[simp] theorem pulseOn_still (t n : Nat) (s : State) : (pulseOn t n s).still = s.still := by unfold pulseOn; split <;> simp

@[simp] theorem pulseTargetsOff_still (b : PBind) (s : State) : (pulseTargetsOff b s).still = s.still := by simp [pulseTargetsOff]

@[simp] theorem pulseHalt_still (n : Nat) (s : State) : (pulseHalt n s).still = s.still := by simp [pulseHalt]

@[simp] theorem pulseFault_still (code n : Nat) (s : State) : (pulseFault code n s).still = s.still := by simp [pulseFault]

@[simp] theorem pulseRelease_still (o : Nat) (s : State) : (pulseRelease o s).still = s.still := by simp [pulseRelease]

@[simp] theorem pulseCut_still (o : Nat) (s : State) : (pulseCut o s).still = s.still := by simp [pulseCut]

@[simp] theorem pulseSyncLost_still (s : State) : (pulseSyncLost s).still = s.still := by simp [pulseSyncLost]

/-! ### Machine/SeqOps -/

@[simp] theorem overrun_still (p : Nat) (s : State) : (overrun p s).still = s.still := by simp [overrun]

@[simp] theorem overrunAge_still (s : State) : (overrunAge s).still = s.still := by simp [overrunAge]

@[simp] theorem overrunSettle_still (s : State) : (overrunSettle s).still = s.still := by simp [overrunSettle]

theorem loadStake_still (i : Nat) (start : Bool) (cycle meant : Nat) (s t : State) (h : loadStake i start cycle meant s = some t) : t.still = s.still := by
  unfold loadStake at h
  split at h
  · simp at h
  · split at h
    · simp at h
    · simp only [Option.some.injEq] at h
      simp [← h]

@[simp] theorem spendLoad_still (p used : Nat) (s : State) : (spendLoad p used s).still = s.still := by simp [spendLoad]

@[simp] theorem placeEnd_still (i : Nat) (s : State) : (placeEnd i s).still = s.still := by
  unfold placeEnd; split
  · rfl
  · dsimp only; split
    · split
      · split <;> simp
      · split
        · next h => rw [loadStake_still _ _ _ _ _ _ h]; split <;> simp
        · split <;> simp
    · simp

@[simp] theorem unplace_still (i : Nat) (s : State) : (unplace i s).still = s.still := by unfold unplace; split <;> simp

@[simp] theorem complete_still (i : Nat) (closing : Option Word) (s : State) : (complete i closing s).still = s.still := by
  unfold complete; split <;> simp

@[simp] theorem fireEnd_still (i : Nat) (s : State) : (fireEnd i s).still = s.still := by
  unfold fireEnd; (try dsimp only)
  split
  · rfl
  · split
    · simp
    · refine (foldl_still _ (fun s a => ?_) _ _).trans ?_
      · (try dsimp only); (repeat' split) <;> simp
      · simp only [laneOff_still]; split <;> simp

@[simp] theorem unhold_still (i : Nat) (s : State) : (unhold i s).still = s.still := by
  unfold unhold; (try dsimp only)
  split
  · rfl
  · split
    · rfl
    · split
      · simp
      · (refine (foldl_still _ (fun s a => ?_) _ _).trans ?_ <;> try dsimp only) <;> (repeat' split) <;> simp

@[simp] theorem cutEvent_still (i type reason : Nat) (s : State) : (cutEvent i type reason s).still = s.still := by
  unfold cutEvent; split <;> simp

@[simp] theorem cutAll_still (f : Desc → Bool) (type reason : Nat) (s : State) :
    (cutAll f type reason s).still = s.still := by simp [cutAll]

@[simp] theorem mergeHolders_still (o i te : Nat) (s : State) : (mergeHolders o i te s).still = s.still := by
  unfold mergeHolders; (try dsimp only)
  split
  · simp only [onLane_still, onDesc_still]
    split
    · (refine (foldl_still _ (fun s a => ?_) _ _).trans ?_ <;> try dsimp only) <;> (repeat' split) <;> simp
    · simp only [unplace_still]
      (refine (foldl_still _ (fun s a => ?_) _ _).trans ?_ <;> try dsimp only) <;> (repeat' split) <;> simp
  · simp only [onLane_still]
    split
    · (refine (foldl_still _ (fun s a => ?_) _ _).trans ?_ <;> try dsimp only) <;> (repeat' split) <;> simp
    · simp only [onDesc_still]
      (refine (foldl_still _ (fun s a => ?_) _ _).trans ?_ <;> try dsimp only) <;> (repeat' split) <;> simp

@[simp] theorem fireStart_still (i : Nat) (s : State) : (fireStart i s).still = s.still := by unfold fireStart; split <;> simp

@[simp] theorem fireStake_still (x : Stake) (s : State) : (fireStake x s).still = s.still := by simp [fireStake]

@[simp] theorem suppress_still (i hop code : Nat) (s : State) : (suppress i hop code s).still = s.still := by
  unfold suppress; split <;> simp

@[simp] theorem nearToWheel_still (f : Desc → Bool) (s : State) : (nearToWheel f s).still = s.still := by simp [nearToWheel]

@[simp] theorem seqSyncLost_still (coast : Frac) (s : State) : (seqSyncLost coast s).still = s.still := by simp [seqSyncLost]

@[simp] theorem seqReversed_still (s : State) : (seqReversed s).still = s.still := by simp [seqReversed]

@[simp] theorem seqFinish_still (c : Nat) (s : State) : (seqFinish c s).still = s.still := by simp [seqFinish]

@[simp] theorem seqCut_still (c : Nat) (s : State) : (seqCut c s).still = s.still := by simp [seqCut]

@[simp] theorem plsStopOwned_still (c : Nat) (s : State) : (plsStopOwned c s).still = s.still := by simp [plsStopOwned]

@[simp] theorem grantWithdrawn_still (o : Nat) (s : State) : (grantWithdrawn o s).still = s.still := by simp [grantWithdrawn]

@[simp] theorem haltPair_still (p : Nat) (s : State) : (haltPair p s).still = s.still := by simp [haltPair]

/-! ### Machine/Arming -/

@[simp] theorem dropEvent_still (i reason : Nat) (s : State) : (dropEvent i reason s).still = s.still := by
  unfold dropEvent; split <;> simp

@[simp] theorem sendNotes_still (i : Nat) (l : List (Nat × Nat × Nat)) (s : State) : (sendNotes i l s).still = s.still := by
  simp [sendNotes]

@[simp] theorem commitArm_still (i ts late slip : Nat) (battery : Bool) (s : State) :
    (commitArm i ts late slip battery s).still = s.still := by simp only [commitArm]; (repeat' split) <;> simp

@[simp] theorem resolveArm_still (w : Wheel) (i ts late : Nat) (s : State) : (resolveArm w i ts late s).still = s.still := by
  unfold resolveArm; split <;> simp

@[simp] theorem countBacklog_still (d : Desc) (s : State) : (countBacklog d s).still = s.still := by
  unfold countBacklog; split <;> simp

@[simp] theorem armDesc_still (w : Wheel) (i : Nat) (s : State) : (armDesc w i s).still = s.still := by
  unfold armDesc; split <;> simp

@[simp] theorem queueReview_still (n i : Nat) (s : State) :
    (queueReview n i s).still = s.still := by unfold queueReview; (repeat' split) <;> simp

@[simp] theorem reinsert_still (i k m a : Nat) (s : State) :
    (reinsert i k m a s).still = s.still := by simp only [reinsert]; (repeat' split) <;> simp

@[simp] theorem dropLong_still (i : Nat) (s : State) : (dropLong i s).still = s.still := by simp [dropLong]

@[simp] theorem review_still (w : Wheel) (i : Nat) (s : State) : (review w i s).still = s.still := by
  simp only [review]; (repeat' split) <;> simp

@[simp] theorem recomputeNear_still (w : Wheel) (i : Nat) (s : State) : (recomputeNear w i s).still = s.still := by
  simp only [recomputeNear]; (repeat' split) <;> simp

@[simp] theorem Share.spend_still (x : Share) (n : Nat) (f : State → State) (h : ∀ s, (f s).still = s.still) :
    (x.spend n f).s.still = x.s.still := h x.s

theorem foldl_share {α : Type} (g : Share → α → Share) (h : ∀ x a, (g x a).s.still = x.s.still) (l : List α) (x : Share) :
    (l.foldl g x).s.still = x.s.still := by
  induction l generalizing x with
  | nil => rfl
  | cons a l ih => simp [ih, h]

@[simp] theorem loadMissed_still (d : Desc) (s : State) : (loadMissed d s).still = s.still := by
  unfold loadMissed; (repeat' split) <;> simp

@[simp] theorem loadDue_still (i : Nat) (d : Desc) (used : Nat) (s : State) : (loadDue i d used s).still = s.still := by
  unfold loadDue; dsimp only; split
  · simp
  · split
    · next h => split <;> simp [loadStake_still _ _ _ _ _ _ h]
    · simp

@[simp] theorem loadPass_still (p : Nat) (x : Share) : (loadPass p x).s.still = x.s.still := by
  unfold loadPass
  refine foldl_share _ (fun x a => ?_) _ _
  (repeat' split) <;> simp [Share.spend]

@[simp] theorem armPass_still (w : Wheel) (p : Nat) (x : Share) : (armPass w p x).s.still = x.s.still := by
  unfold armPass
  refine foldl_share _ (fun x a => ?_) _ _
  split <;> simp [Share.spend]

@[simp] theorem reviewOne_still (w : Wheel) (p i : Nat) (x : Share) : (reviewOne w p i x).s.still = x.s.still := by
  unfold reviewOne; dsimp only
  (repeat' split) <;> simp [Share.spend]

theorem reviewMost_still (w : Wheel) (p n : Nat) (x : Share) : (reviewMost w p n x).s.still = x.s.still := by
  induction n generalizing x with
  | zero => rfl
  | succ n ih => unfold reviewMost; (repeat' split) <;> simp [ih]

@[simp] theorem reviewPass_still (w : Wheel) (p : Nat) (x : Share) : (reviewPass w p x).s.still = x.s.still :=
  reviewMost_still w p 10 x

@[simp] theorem recomputePass_still (w : Wheel) (p : Nat) (x : Share) : (recomputePass w p x).s.still = x.s.still := by
  unfold recomputePass
  refine foldl_share _ (fun x a => ?_) _ _
  split <;> simp [Share.spend]

@[simp] theorem moveFine_still (i l : Nat) (s : State) : (moveFine i l s).still = s.still := by simp [moveFine]

@[simp] theorem movePass_still (p : Nat) (x : Share) : (movePass p x).s.still = x.s.still := by
  unfold movePass
  refine foldl_share _ (fun x a => ?_) _ _
  (repeat' split) <;> simp [Share.spend]

@[simp] theorem Share.close_still (x : Share) (p : Nat) : (x.close p).still = x.s.still := by simp [Share.close]

@[simp] theorem pairWork_still (p : Nat) (s : State) : (pairWork p s).still = s.still := by
  unfold pairWork; split
  · rfl
  · dsimp only; rw [Share.close_still]; split
    · simp
    · split <;> simp

@[simp] theorem dequeue_still (back : Bool) (k : Option Nat) (n : Nat) (s : State) :
    (dequeue back k n s).still = s.still := by simp [dequeue]

@[simp] theorem dequeueSlots_still (s : State) : (dequeueSlots s).still = s.still := by simp [dequeueSlots]

@[simp] theorem passReversal_still (s : State) : (passReversal s).still = s.still := by unfold passReversal; split <;> simp

@[simp] theorem microcode_still (s : State) : (microcode s).still = s.still := by simp [microcode]

/-! ### Machine/PulseExec -/

@[simp] theorem putReg_still (n c v : Nat) (s : State) : (putReg n c v s).still = s.still := by simp [putReg]

@[simp] theorem stepOn_still (n : Nat) (s : State) : (stepOn n s).still = s.still := by simp [stepOn]

@[simp] theorem setParam_still (p a v : Nat) (s : State) : (setParam p a v s).still = s.still := by simp [setParam]

@[simp] theorem pulseLdp_still (n cd ca off : Nat) (s : State) : (pulseLdp n cd ca off s).still = s.still := by simp [pulseLdp]

@[simp] theorem pulseStp_still (n cd ca off : Nat) (s : State) : (pulseStp n cd ca off s).still = s.still := by simp [pulseStp]

@[simp] theorem pulseWait_still (n cd now : Nat) (w : PWait) (limit : Option Nat) (s : State) :
    (pulseWait n cd now w limit s).still = s.still := by simp [pulseWait]

@[simp] theorem pulseResume_still (n cd now status : Nat) (s : State) : (pulseResume n cd now status s).still = s.still := by
  simp [pulseResume]

@[simp] theorem pulseWaita_still (n cd ca : Nat) (limit : Option Nat) (now : Nat) (s : State) :
    (pulseWaita n cd ca limit now s).still = s.still := by simp only [pulseWaita]; (repeat' split) <;> simp

@[simp] theorem pulseWaitt_still (n cd ca : Nat) (rel : Bool) (now : Nat) (s : State) :
    (pulseWaitt n cd ca rel now s).still = s.still := by simp [pulseWaitt]

@[simp] theorem pulseWaite_still (n cd : Nat) (limit : Option Nat) (det : Bool) (kind source now : Nat) (s : State) :
    (pulseWaite n cd limit det kind source now s).still = s.still := by unfold pulseWaite; split <;> simp

@[simp] theorem setQueue_still (p q : Nat) (l : List Nat) (s : State) : (setQueue p q l s).still = s.still := by simp [setQueue]

@[simp] theorem pushQueue_still (p q v : Nat) (s : State) : (pushQueue p q v s).still = s.still := by simp [pushQueue]

@[simp] theorem queueDrained_still (p q : Nat) (s : State) : (queueDrained p q s).still = s.still := by simp [queueDrained]

theorem takeQueue_still (n q cd : Nat) (s t : State) (h : takeQueue n q cd s = some t) : t.still = s.still := by
  unfold takeQueue at h
  split at h <;> simp at h
  simp [← h]

theorem giveQueue_still (n q v : Nat) (s t : State) (h : giveQueue n q v s = some t) : t.still = s.still := by
  unfold giveQueue at h
  (repeat' split at h) <;> simp at h
  all_goals simp [← h]

@[simp] theorem placePulseStake_still (n target action : Nat) (fire : Option Nat) (s : State) :
    (placePulseStake n target action fire s).still = s.still := by unfold placePulseStake; split <;> simp

@[simp] theorem pulseLoad_still (n cd target action t now : Nat) (before : Option Nat) (s : State) :
    (pulseLoad n cd target action t now before s).still = s.still := by simp [pulseLoad]

@[simp] theorem pulseStk_still (n cd ca slot action now : Nat) (s : State) :
    (pulseStk n cd ca slot action now s).still = s.still := by simp [pulseStk]

@[simp] theorem pulseAdct_still (n cd ca line now : Nat) (s : State) : (pulseAdct n cd ca line now s).still = s.still := by
  simp [pulseAdct]

@[simp] theorem pulseCapt_still (n cd ca source now : Nat) (s : State) :
    (pulseCapt n cd ca source now s).still = s.still := by simp [pulseCapt]

@[simp] theorem pulseBranch_still (n : Nat) (b : Bool) (t : Nat) (s : State) : (pulseBranch n b t s).still = s.still := by
  simp [pulseBranch]

@[simp] theorem pulseBrc_still (n c t : Nat) (s : State) : (pulseBrc n c t s).still = s.still := by
  exact (pulseBranch_still _ _ _ _).trans (onCtx_still _ _ _)

@[simp] theorem pulseYield_still (n now : Nat) (s : State) : (pulseYield n now s).still = s.still := by simp [pulseYield]

@[simp] theorem pulseStop_still (n : Nat) (s : State) : (pulseStop n s).still = s.still := by simp [pulseStop]

@[simp] theorem pulseExec_still (n : Nat) (op : POp) (now : Nat) (s : State) : (pulseExec n op now s).1.still = s.still := by
  cases op
  case qin cd q =>
    unfold pulseExec; dsimp only
    split
    · next h => simp [takeQueue_still _ _ _ _ _ h]
    · simp
  case qout ca q =>
    unfold pulseExec; dsimp only
    split
    · next h => simp [giveQueue_still _ _ _ _ _ h]
    · simp
  all_goals simp [pulseExec]

@[simp] theorem pulseSettle_still (n now : Nat) (s : State) : (pulseSettle n now s).1.still = s.still := by
  simp only [pulseSettle]; (repeat' split) <;> simp

@[simp] theorem pulseStep_still (n : Nat) (op : Option POp) (now : Nat) (s : State) :
    (pulseStep n op now s).1.still = s.still := by simp only [pulseStep]; (repeat' split) <;> simp

/-! ### Machine/PulseRun -/

@[simp] theorem sendSlots_still (l : List PSlot) (s : State) : (sendSlots l s).still = s.still := by
  unfold sendSlots
  refine foldl_still _ (fun s a => ?_) _ _
  split
  · split <;> simp
  · rfl

@[simp] theorem startCtx_still (n : Nat) (s : State) : (startCtx n s).still = s.still := by simp [startCtx]

@[simp] theorem stepLoop_still (n k used : Nat) (s : State) : (stepLoop n k used s).1.still = s.still := by
  induction k generalizing used s with
  | zero => rfl
  | succ k ih =>
    unfold stepLoop; dsimp only
    split
    · simp
    · (repeat' split) <;> simp [ih]

theorem completeWait_still (n : Nat) (status : Option Nat) (s t : State) (h : completeWait n status s = some t) :
    t.still = s.still := by
  unfold completeWait at h; dsimp only at h
  split at h
  · obtain ⟨x, hx, rfl⟩ := Option.map_eq_some_iff.mp h
    simp [takeQueue_still _ _ _ _ _ hx]
  · obtain ⟨x, hx, rfl⟩ := Option.map_eq_some_iff.mp h
    simp [giveQueue_still _ _ _ _ _ hx]
  · split at h <;> simp at h <;> simp [← h]

@[simp] theorem dispatchCtx_still (n used : Nat) (s : State) : (dispatchCtx n used s).1.still = s.still := by
  unfold dispatchCtx
  split
  · dsimp only
    split
    · next h => rw [stepLoop_still, completeWait_still _ _ _ _ h, onCtx_still]; split <;> simp
    · simp only [onCtx_still]; split <;> simp
  · rfl

@[simp] theorem shareLoop_still (l : List Nat) (used : Nat) (s : State) : (shareLoop l used s).1.still = s.still := by
  induction l generalizing used s with
  | nil => rfl
  | cons n l ih => unfold shareLoop; dsimp only; (repeat' split) <;> simp [ih]

@[simp] theorem pulseShare_still (p : Nat) (s : State) : (pulseShare p s).still = s.still := by
  unfold pulseShare; split <;> simp

@[simp] theorem wake_still (n group key : Nat) (status : Option Nat) (s : State) :
    (wake n group key status s).still = s.still := by simp [wake]

@[simp] theorem wakeCtx_still (prev : Option Nat) (n : Nat) (s : State) : (wakeCtx prev n s).still = s.still := by
  unfold wakeCtx; (repeat' split) <;> simp

@[simp] theorem limitCtx_still (n : Nat) (s : State) : (limitCtx n s).still = s.still := by
  unfold limitCtx; (repeat' split) <;> simp


@[simp] theorem tokenPass_still (s : State) : (tokenPass s).still = s.still := by simp [tokenPass]

@[simp] theorem shareWake_still (n : Nat) (s : State) : (shareWake n s).still = s.still := by simp [shareWake]

@[simp] theorem runShares_still (s : State) : (runShares s).still = s.still := by simp [runShares]

@[simp] theorem noteFired_still (t action : Nat) (s : State) : (noteFired t action s).still = s.still := by simp [noteFired]

@[simp] theorem raiseLine_firm (k : Nat) (s : State) (h : s.still.firm.memOk = true) :
    (raiseLine k s).still.firm = s.still.firm := by
  unfold raiseLine; dsimp only; split
  · rfl
  · exact acqLine_firm _ _ h

@[simp] theorem firePulse_firm (p : Nat) (x : PStake) (s : State) (h : s.still.firm.memOk = true) :
    (firePulse p x s).still.firm = s.still.firm := by unfold firePulse; (repeat' split) <;> simp [h]

@[simp] theorem failPulse_still (p : Nat) (x : PStake) (s : State) : (failPulse p x s).still = s.still := by simp [failPulse]

@[simp] theorem exchangeCtx_still (n : Nat) (old new : PBind) (s : State) : (exchangeCtx n old new s).still = s.still := by
  unfold exchangeCtx; split <;> simp

@[simp] theorem exchange_still (p : Nat) (s : State) : (exchange p s).still = s.still := by simp [exchange]

/-! ### Machine/Event -/

@[simp] theorem passShares_still (dt : Nat) (s : State) : (passShares dt s).still = s.still := by simp [passShares]

@[simp] theorem passTime_still (dt : Nat) (s : State) : (passTime dt s).still = s.still := by simp [passTime]

/-! ### Machine/Track -/

@[simp] theorem onAngle_still (f : Angle → Angle) (s : State) : (onAngle f s).still = s.still := by simp [onAngle]

@[simp] theorem onSensor_still (i : Nat) (f : Sensor → Sensor) (s : State) : (onSensor i f s).still = s.still := by
  simp [onSensor]

@[simp] theorem onCrank_still (i : Nat) (f : Crank → Crank) (s : State) : (onCrank i f s).still = s.still := by simp [onCrank]

@[simp] theorem onCam_still (k : Nat) (f : Cam → Cam) (s : State) : (onCam k f s).still = s.still := by simp [onCam]

@[simp] theorem setSync_firm (n : Nat) (s : State) (h : s.still.firm.memOk = true) :
    (setSync n s).still.firm = s.still.firm := by simp [setSync, h]

@[simp] theorem watchFrom_still (s : State) : (watchFrom s).still = s.still := by simp [watchFrom]

@[simp] theorem shiftChain_still (d : Int) (s : State) : (shiftChain d s).still = s.still := by simp [shiftChain]

@[simp] theorem passSlots_still (k : Nat) (s : State) : (passSlots k s).still = s.still := by simp [passSlots]

@[simp] theorem enterPhased_firm (w : Wheel) (h1 : Bool) (s : State) (h : s.still.firm.memOk = true) :
    (enterPhased w h1 s).still.firm = s.still.firm := by simp [enterPhased, h]

@[simp] theorem decidePhase_firm (w : Wheel) (s : State) (h : s.still.firm.memOk = true) :
    (decidePhase w s).still.firm = s.still.firm := by simp [decidePhase, h]

@[simp] theorem freshTest_still (s : State) : (freshTest s).still = s.still := by simp [freshTest]

@[simp] theorem chooseRate_still (back : Bool) (c0 tgt : Int) (delta : Frac) (s : State) :
    (chooseRate back c0 tgt delta s).2.still = s.still := by simp only [chooseRate]; (repeat' split) <;> simp

@[simp] theorem setCourse_still (at_ : Nat) (c0 : Int) (hold : Option Int) (tgt : Int) (delta : Frac) (s : State) :
    (setCourse at_ c0 hold tgt delta s).still = s.still := by simp [setCourse]

@[simp] theorem standAt_still (v : Int) (s : State) : (standAt v s).still = s.still := by simp [standAt]

@[simp] theorem holdChain_still (s : State) : (holdChain s).still = s.still := by simp [holdChain]

@[simp] theorem countWait_still (s : State) : (countWait s).still = s.still := by simp [countWait]

@[simp] theorem recordTime_still (w : Wheel) (t : Frac) (early : Option Frac) (s : State) :
    (recordTime w t early s).still = s.still := by simp [recordTime]

@[simp] theorem chooseBand_still (w : Wheel) (s : State) : (chooseBand w s).still = s.still := by simp [chooseBand]

@[simp] theorem judgeFast_still (w : Wheel) (s : State) : (judgeFast w s).still = s.still := by simp [judgeFast]

@[simp] theorem keepInjection_still (w : Wheel) (s : State) :
    (keepInjection w s).still = s.still := by unfold keepInjection; (repeat' split) <;> simp

@[simp] theorem passTooth_still (w : Wheel) (s : State) :
    (passTooth w s).still = s.still := by unfold passTooth; (repeat' split) <;> simp

@[simp] theorem clearFiring_still (s : State) : (clearFiring s).still = s.still := by simp [clearFiring]

@[simp] theorem learnFiring_still (w : Wheel) (j : Nat) (t : Frac) (s : State) : (learnFiring w j t s).still = s.still := by
  simp [learnFiring]

@[simp] theorem firingCrossing_still (w : Wheel) (s : State) : (firingCrossing w s).still = s.still := by simp [firingCrossing]

@[simp] theorem setMap_still (i : Nat) (m : ClosureMap) (place : Nat) (s : State) :
    (setMap i m place s).still = s.still := by simp [setMap]

@[simp] theorem useMap_still (w : Wheel) (x : MapWait) (s : State) : (useMap w x s).still = s.still := by
  unfold useMap; (repeat' split) <;> simp

@[simp] theorem useMaps_still (w : Wheel) (j : Nat) (s : State) : (useMaps w j s).still = s.still := by simp [useMaps]

@[simp] theorem learnAbort_still (code : Nat) (s : State) : (learnAbort code s).still = s.still := by
  unfold learnAbort; split <;> simp

@[simp] theorem learnLost_still (i : Nat) (s : State) : (learnLost i s).still = s.still := by unfold learnLost; split <;> simp

@[simp] theorem learnTooth_still (w : Wheel) (i j : Nat) (t : Frac) (s : State) :
    (learnTooth w i j t s).still = s.still := by unfold learnTooth; split <;> simp

/-! ### Machine/Pair -/

@[simp] theorem onTie_still (f : Tie → Tie) (s : State) : (onTie f s).still = s.still := by simp [onTie]

@[simp] theorem outputsOff_still (s : State) : (outputsOff s).still = s.still := by simp [outputsOff]

@[simp] theorem isolate_still (s : State) : (isolate s).still = s.still := by simp [isolate]

@[simp] theorem auxConnect_still (n : Nat) (s : State) : (auxConnect n s).still = s.still := by simp [auxConnect]

@[simp] theorem connect_still (s : State) : (connect s).still = s.still := by simp [connect]

@[simp] theorem dropHandover_still (s : State) : (dropHandover s).still = s.still := by unfold dropHandover; split <;> simp

@[simp] theorem setRole_still (r : Nat) (s : State) : (setRole r s).still = s.still := by simp [setRole]

@[simp] theorem bmListen_still (s : State) : (bmListen s).still = s.still := by simp [bmListen]

@[simp] theorem stepDown_still (r : Nat) (s : State) : (stepDown r s).still = s.still := by simp [stepDown]

@[simp] theorem elect_still (r : Nat) (s : State) : (elect r s).still = s.still := by simp [elect]

@[simp] theorem takePairCfg_still (s : State) : (takePairCfg s).still = s.still := by simp [takePairCfg]

@[simp] theorem tieStart_still (s : State) : (tieStart s).still = s.still := by simp [tieStart]

@[simp] theorem trained_still (slot ver lat : Nat) (serialLow partnerDrives partnerHas : Bool) (s : State) :
    (trained slot ver lat serialLow partnerDrives partnerHas s).still = s.still := by
  simp only [trained]; (repeat' split) <;> simp

@[simp] theorem trainingLate_still (s : State) : (trainingLate s).still = s.still := by simp [trainingLate]

@[simp] theorem writePairCfg_still (x : Word) (s : State) : (writePairCfg x s).still = s.still := by simp [writePairCfg]

@[simp] theorem pullResign_still (s : State) : (pullResign s).still = s.still := by simp [pullResign]

@[simp] theorem resign_still (r : Nat) (lost : Bool) (s : State) : (resign r lost s).still = s.still := by simp [resign]

@[simp] theorem skipLane_still (c : Nat) (s : State) : (skipLane c s).still = s.still := by
  unfold skipLane; (try dsimp only)
  (refine (foldl_still _ (fun s a => ?_) _ _).trans ?_ <;> try dsimp only) <;> (repeat' split) <;> simp

@[simp] theorem decideChannel_still (c : Nat) (s : State) : (decideChannel c s).still = s.still := by
  simp only [decideChannel]; (repeat' split) <;> simp

@[simp] theorem trigger_still (cause : Nat) (s : State) : (trigger cause s).still = s.still := by unfold trigger; split <;> simp

@[simp] theorem silence_still (s : State) : (silence s).still = s.still := by simp [silence]

@[simp] theorem resignEdge_still (s : State) : (resignEdge s).still = s.still := by simp [resignEdge]

@[simp] theorem enterHold_still (c : Nat) (s : State) : (enterHold c s).still = s.still := by
  unfold enterHold; dsimp only; split
  · rfl
  · split
    · split <;> simp
    · split
      · simp
      · refine (foldl_still _ (fun s a => ?_) _ _).trans (by simp)
        split <;> simp

@[simp] theorem takeTrim_still (c : Nat) (s : State) : (takeTrim c s).still = s.still := by simp [takeTrim]

@[simp] theorem closeSwitches_still (sound : Bool) (s : State) : (closeSwitches sound s).still = s.still := by
  unfold closeSwitches; split <;> simp

@[simp] theorem compareChain_still (l : List Word) (s : State) : (compareChain l s).still = s.still := by simp [compareChain]

@[simp] theorem compareDigest_still (l : List Word) (s : State) : (compareDigest l s).still = s.still := by simp [compareDigest]

@[simp] theorem stateFrameIn_still (l : List Word) (s : State) : (stateFrameIn l s).still = s.still := by simp [stateFrameIn]

@[simp] theorem queueMaps_still (s : State) : (queueMaps s).still = s.still := by unfold queueMaps; split <;> simp

@[simp] theorem nextBlock_still (s : State) : (nextBlock s).2.still = s.still := by
  simp only [nextBlock]; (repeat' split) <;> simp

@[simp] theorem sendTie_still (s : State) : (sendTie s).still = s.still := by simp [sendTie]

@[simp] theorem mapReceived_still (head : List Word) (l : List (List Word)) (s : State) :
    (mapReceived head l s).still = s.still := by simp [mapReceived]

@[simp] theorem blockIn_still (b : List Word) (s : State) : (blockIn b s).still = s.still := by
  unfold blockIn; (repeat' split) <;> simp

@[simp] theorem leaveActions_still (s : State) : (leaveActions s).still = s.still := by simp [leaveActions]

/-! ### Machine/PairCmd -/

@[simp] theorem resignOver_still (s : State) : (resignOver s).still = s.still := by unfold resignOver; split <;> simp

@[simp] theorem resignStuck_still (s : State) : (resignStuck s).still = s.still := by simp [resignStuck]

@[simp] theorem resignRise_still (s : State) : (resignRise s).still = s.still := by simp [resignRise]

@[simp] theorem benchmarkEdge_still (s : State) : (benchmarkEdge s).still = s.still := by simp [benchmarkEdge]

@[simp] theorem pulseMissing_still (s : State) : (pulseMissing s).still = s.still := by simp [pulseMissing]

@[simp] theorem listenEnd_still (s : State) : (listenEnd s).still = s.still := by unfold listenEnd; split <;> simp

@[simp] theorem claimHeard_still (k : Nat) (s : State) : (claimHeard k s).still = s.still := by simp [claimHeard]

@[simp] theorem handOver_still (h : Handover) (s : State) : (handOver h s).still = s.still := by simp [handOver]

@[simp] theorem handoverPace_still (s : State) : (handoverPace s).still = s.still := by unfold handoverPace; split <;> simp

@[simp] theorem pairHandover_still (m : Msg) (s : State) : (pairHandover m s).still = s.still := by
  unfold pairHandover; split <;> simp

@[simp] theorem pairCfgWrite_still (x : Word) (s : State) : (pairCfgWrite x s).still = s.still := by simp [pairCfgWrite]

@[simp] theorem pairConfig_still (m : Msg) (s : State) : (pairConfig m s).still = s.still := by simp [pairConfig]

@[simp] theorem pairStatus_still (m : Msg) (s : State) : (pairStatus m s).still = s.still := by simp [pairStatus]

@[simp] theorem boostFailed_still (b cause : Nat) (s : State) : (boostFailed b cause s).still = s.still := by simp [boostFailed]

/-! ### Machine/FaultBook -/

@[simp] theorem bookPush_still (r : FbRec) (s : State) : (bookPush r s).still = s.still := by simp [bookPush]

@[simp] theorem bookRecord_still (kind code cls source action : Nat) (cyc : Nat) (detail : Word) (s : State) :
    (bookRecord kind code cls source action cyc detail s).still = s.still := by simp [bookRecord]

@[simp] theorem faultNotice_still (ws : List Word) (excess : Bool) (c : Nat) (s : State) :
    (faultNotice ws excess c s).still = s.still := by unfold faultNotice; (repeat' split) <;> simp

@[simp] theorem formRecord_still (e : FaultEv) (s : State) : (formRecord e s).still = s.still := by simp [formRecord]

@[simp] theorem bookCopyBad_still (b : Bool) (s : State) : (bookCopyBad b s).still = s.still := by simp [bookCopyBad]

@[simp] theorem bookDone_still (s : State) : (bookDone s).still = s.still := by simp [bookDone]

@[simp] theorem bookWriteB_still (r : FbRec) (ok : Bool) (s : State) : (bookWriteB r ok s).still = s.still := by simp [bookWriteB]

@[simp] theorem bookWriteA_still (r : FbRec) (ok : Bool) (s : State) : (bookWriteA r ok s).still = s.still := by simp [bookWriteA]

/-! ### Machine/FaultClear -/

@[simp] theorem clearLane_still (stuck o : Nat) (s : State) : (clearLane stuck o s).2.still = s.still := by
  unfold clearLane; (repeat' split) <;> simp

@[simp] theorem clearChannel_still (sc stuck c : Nat) (s : State) : (clearChannel sc stuck c s).2.still = s.still := by
  unfold clearChannel; (try dsimp only)
  split
  · refine (foldl_snd_still _ (fun a n => ?_) _ _).trans ?_
    · simp
    · (repeat' split) <;> (try refine (foldl_still _ (fun s a => ?_) _ _).trans ?_) <;> (repeat' split) <;> simp
  · (repeat' split) <;> (try refine (foldl_still _ (fun s a => ?_) _ _).trans ?_) <;> (repeat' split) <;> simp

@[simp] theorem clearAuxItem_still (sc stuck n : Nat) (s : State) : (clearAuxItem sc stuck n s).2.still = s.still := by
  unfold clearAuxItem; split <;> simp

@[simp] theorem clearOutput_still (m : Msg) (sc stuck o : Nat) (s : State) :
    (clearOutput m sc stuck o s).2.still = s.still := by unfold clearOutput; (repeat' split) <;> simp

@[simp] theorem clearEligible_still (m : Msg) (s : State) : (clearEligible m s).2.still = s.still := by
  unfold clearEligible; (repeat' split) <;> simp

@[simp] theorem clearMonitors_still (m : Msg) (s : State) : (clearMonitors m s).2.still = s.still := by
  unfold clearMonitors; split <;> simp

theorem firstRefusal_still (item : Nat) (a : Option (Nat × Nat) × State) (f : State → Nat × State)
    (h : ∀ s, (f s).2.still = s.still) : (firstRefusal item a f).2.still = a.2.still := by simp [firstRefusal, h]

@[simp] theorem clearAll_still (stuck : Nat) (m : Msg) (s : State) : (clearAll stuck m s).2.still = s.still := by
  have h : ∀ (l : List Nat) (a : Option (Nat × Nat) × State), (l.foldl (fun a o =>
      if clearNames m o then firstRefusal o a (clearOutput m (word m 2).toNat stuck o) else a) a).2.still = a.2.still := by
    intro l a
    refine foldl_snd_still _ (fun a o => ?_) _ _
    split
    · exact firstRefusal_still _ _ _ (by simp)
    · rfl
  unfold clearAll; (try dsimp only)
  (repeat' split) <;> simp [firstRefusal_still, h]

@[simp] theorem clearRecord_still (m : Msg) (s : State) : (clearRecord m s).still = s.still := by simp [clearRecord]

@[simp] theorem faultClear_still (stuck : Nat) (m : Msg) (s : State) : (faultClear stuck m s).still = s.still := by
  simp only [faultClear]; (repeat' split) <;> simp

/-! ### Machine/Dma -/

@[simp] theorem onDma_still (f : Dma → Dma) (s : State) : (onDma f s).still = s.still := by simp [onDma]

@[simp] theorem setXfer_still (ch : Nat) (x : Option DmaXfer) (s : State) : (setXfer ch x s).still = s.still := by simp [setXfer]

@[simp] theorem setDmaState_still (ch st : Nat) (s : State) : (setDmaState ch st s).still = s.still := by simp [setDmaState]

@[simp] theorem readKick_still (s : State) : (readKick s).still = s.still := by unfold readKick; (repeat' split) <;> simp

@[simp] theorem writeKick_still (s : State) : (writeKick s).still = s.still := by unfold writeKick; (repeat' split) <;> simp

@[simp] theorem dmaKick_still (s : State) : (dmaKick s).still = s.still := by simp [dmaKick]

@[simp] theorem dmaEnd_still (ch owner code residue runs : Nat) (s : State) :
    (dmaEnd ch owner code residue runs s).still = s.still := by simp [dmaEnd]

@[simp] theorem dmaWritten_still (ch : Nat) (x : DmaXfer) (s : State) : (dmaWritten ch x s).still = s.still := by
  simp [dmaWritten]

@[simp] theorem dmaLetGo_still (ch : Nat) (s : State) : (dmaLetGo ch s).still = s.still := by
  unfold dmaLetGo; (repeat' split) <;> simp

@[simp] theorem dmaFinish_still (ch code : Nat) (s : State) : (dmaFinish ch code s).still = s.still := by
  simp only [dmaFinish]; (repeat' split) <;> simp

@[simp] theorem dmaStart_still (ch : Nat) (s : State) : (dmaStart ch s).still = s.still := by
  simp only [dmaStart]; (repeat' split) <;> simp

@[simp] theorem dmaAbort_still (ch : Nat) (s : State) : (dmaAbort ch s).still = s.still := by
  unfold dmaAbort; (repeat' split) <;> simp

@[simp] theorem dmaCtrlWrite_still (fn ch : Nat) (x : Word) (s : State) : (dmaCtrlWrite fn ch x s).still = s.still := by
  simp [dmaCtrlWrite]

@[simp] theorem dmaError_still (ch : Nat) (write : Bool) (x : DmaXfer) (s : State) :
    (dmaError ch write x s).still = s.still := by simp [dmaError]

@[simp] theorem dmaAfter_still (ch : Nat) (s : State) : (dmaAfter ch s).still = s.still := by unfold dmaAfter; split <;> simp

@[simp] theorem dmaReadDone_still (ch : Nat) (good : Bool) (s : State) : (dmaReadDone ch good s).still = s.still := by
  simp only [dmaReadDone]; (repeat' split) <;> simp

@[simp] theorem dmaWriteDone_still (ch : Nat) (good : Bool) (s : State) : (dmaWriteDone ch good s).still = s.still := by
  simp only [dmaWriteDone]; (repeat' split) <;> simp

@[simp] theorem dmaLinkLost_still (ch : Nat) (s : State) : (dmaLinkLost ch s).still = s.still := by
  unfold dmaLinkLost; split <;> simp

@[simp] theorem dmaDrop_still (who : Nat → Bool) (reset : Bool) (s : State) : (dmaDrop who reset s).still = s.still := by
  unfold dmaDrop; (try dsimp only)
  (refine (foldl_still _ (fun s a => ?_) _ _).trans ?_ <;> try dsimp only) <;> (repeat' split) <;> simp

@[simp] theorem dmaGrantWrite_still (ch : Nat) (x : Word) (s : State) : (dmaGrantWrite ch x s).still = s.still := by
  simp [dmaGrantWrite]

/-! ### Machine/Domains -/

@[simp] theorem setDomain_still (d : Nat) (x : Domain) (s : State) : (setDomain d x s).still = s.still := by simp [setDomain]

@[simp] theorem isolateDomain_still (d : Nat) (s : State) : (isolateDomain d s).still = s.still := by simp [isolateDomain]

@[simp] theorem domainStep_still (v d : Nat) (s : State) : (domainStep v d s).still = s.still := by
  unfold domainStep; split <;> simp

@[simp] theorem powerUpdate_still (s : State) : (powerUpdate s).still = s.still := by simp [powerUpdate]

@[simp] theorem canReset_still (c : Nat) (s : State) : (canReset c s).still = s.still := by simp [canReset]

@[simp] theorem domainLost_still (d : Nat) (s : State) : (domainLost d s).still = s.still := by unfold domainLost; split <;> simp

@[simp] theorem setDomains_still (d : Nat) (x : Domain) (s : State) : (setDomains d x s).still = s.still := by simp [setDomains]

/-! ### Machine/HostLink -/

@[simp] theorem hostVector_still (c : Nat) (s : State) : (hostVector c s).still = s.still := by simp [hostVector]

@[simp] theorem ringErr_still (c : Nat) (s : State) : (ringErr c s).still = s.still := by simp [ringErr]

@[simp] theorem haltRing_still (c : Nat) (s : State) : (haltRing c s).still = s.still := by simp [haltRing]

@[simp] theorem moveHead_still (c n : Nat) (s : State) : (moveHead c n s).still = s.still := by simp [moveHead]

@[simp] theorem endSession_still (c : Nat) (ring : Bool) (s : State) : (endSession c ring s).still = s.still := by
  simp [endSession]

@[simp] theorem endPcieSessions_still (s : State) : (endPcieSessions s).still = s.still := by simp [endPcieSessions]

@[simp] theorem resetClient_still (c : Nat) (s : State) : (resetClient c s).still = s.still := by simp [resetClient]

@[simp] theorem forgetFn_still (fn : Nat) (s : State) : (forgetFn fn s).still = s.still := by simp [forgetFn]

@[simp] theorem dropFns_still (all : Bool) (s : State) : (dropFns all s).still = s.still := by simp [dropFns]

@[simp] theorem resetsAll_still (s : State) : (resetsAll s).still = s.still := by
  exact foldl_still _ (fun _ _ => resetsFn_still _ _) _ _

@[simp] theorem resetClients_still (s : State) : (resetClients s).still = s.still := by
  exact foldl_still _ (fun _ _ => resetClient_still _ _) _ _

@[simp] theorem unconfigure_still (s : State) : (unconfigure s).still = s.still := by simp [unconfigure]

@[simp] theorem configure_still (vf : Bool) (fns : List (Fin 256 × PcieFn)) (s : State) :
    (configure vf fns s).still = s.still := by simp [configure]

@[simp] theorem doorbell_still (fn : Nat) (x : Word) (s : State) : (doorbell fn x s).still = s.still := by simp [doorbell]

@[simp] theorem rspFlush_still (c : Nat) (l : List (Nat × Bool × ModMsg)) (s : State) : (rspFlush c l s).still = s.still := by
  induction l generalizing s with
  | nil => simp [rspFlush]
  | cons a l ih => unfold rspFlush; split <;> simp [ih]

@[simp] theorem rspHeadWrite_still (fn : Nat) (x : Word) (s : State) : (rspHeadWrite fn x s).still = s.still := by
  unfold rspHeadWrite; dsimp only; split <;> simp

@[simp] theorem startRings_still (c : Nat) (s : State) : (startRings c s).still = s.still := by simp [startRings]

@[simp] theorem ringCfgWrite_still (fn : Nat) (x : Word) (s : State) : (ringCfgWrite fn x s).still = s.still := by
  simp [ringCfgWrite]

@[simp] theorem resumeWrite_still (fn : Nat) (x : Word) (s : State) : (resumeWrite fn x s).still = s.still := by
  simp [resumeWrite]

@[simp] theorem keepAliveWrite_still (fn : Nat) (x : Word) (s : State) : (keepAliveWrite fn x s).still = s.still := by
  simp [keepAliveWrite]

@[simp] theorem voteWrite_still (fn : Nat) (x : Word) (s : State) : (voteWrite fn x s).still = s.still := by simp [voteWrite]

@[simp] theorem hlClientWrite_still (n : Nat) (x : Word) (s : State) : (hlClientWrite n x s).still = s.still := by
  simp [hlClientWrite]

@[simp] theorem hlOwnWrite_still (o : Nat) (x : Word) (s : State) : (hlOwnWrite o x s).still = s.still := by simp [hlOwnWrite]

@[simp] theorem refuseRead_still (c opcode seq status detail : Nat) (s : State) :
    (refuseRead c opcode seq status detail s).still = s.still := by simp [refuseRead]

@[simp] theorem hop1_still (c : Nat) (s : State) : (hop1 c s).still = s.still := by simp [hop1]

@[simp] theorem takeRequest_still (c opcode seq flags : Nat) (v : List Word) (s : State) :
    (takeRequest c opcode seq flags v s).still = s.still := by simp [takeRequest]

theorem checkRequest_still (c : Nat) (can : Bool) (ws : List Word) (consume : State → State) (s : State)
    (h : ∀ s, (consume s).still = s.still) : (checkRequest c can ws consume s).still = s.still := by
  unfold checkRequest; dsimp only; (repeat' split) <;> simp [h]

@[simp] theorem refuseHalt_still (c opcode seq status : Nat) (s : State) :
    (refuseHalt c opcode seq status s).still = s.still := by simp [refuseHalt]

@[simp] theorem readRing_still (c : Nat) (ws : List Word) (s : State) : (readRing c ws s).still = s.still := by
  unfold readRing; dsimp only
  (repeat' split) <;> first | (simp; done) | exact checkRequest_still _ _ _ _ _ (by simp)

@[simp] theorem setLevel_still (n : Nat) (s : State) : (setLevel n s).still = s.still := by simp [setLevel]

/-! ### Machine/Can -/

@[simp] theorem onCanB_still (k : Nat) (f : CanBinding → CanBinding) (s : State) : (onCanB k f s).still = s.still := by
  simp [onCanB]

@[simp] theorem canSend_still (k : Nat) (b : List Byte) (s : State) : (canSend k b s).still = s.still := by simp [canSend]

theorem canNext_still (k : Nat) (s : State) (x : ModMsg × State) (h : canNext k s = some x) : x.2.still = s.still := by
  unfold canNext at h; dsimp only at h
  (repeat' split at h) <;> simp at h <;> subst h <;> simp

@[simp] theorem canStart_still (k : Nat) (s : State) : (canStart k s).still = s.still := by
  unfold canStart
  split
  · rfl
  · next h => dsimp only; split <;> simp [canNext_still _ _ _ h]

@[simp] theorem canConsecutive_still (k : Nat) (t : CanTx) (s : State) : (canConsecutive k t s).still = s.still := by
  simp [canConsecutive]

@[simp] theorem tpCount_still (k : Nat) (s : State) : (tpCount k s).still = s.still := by simp [tpCount]

@[simp] theorem tpError_still (k : Nat) (s : State) : (tpError k s).still = s.still := by simp [tpError]

@[simp] theorem canMessage_still (k : Nat) (b : List Byte) (s : State) : (canMessage k b s).still = s.still := by
  unfold canMessage; dsimp only
  (repeat' split) <;> first | (simp; done) | exact checkRequest_still _ _ _ _ _ (by simp)

@[simp] theorem canFlow_still (k : Nat) (s : State) : (canFlow k s).still = s.still := by simp [canFlow]

@[simp] theorem canSingle_still (k : Nat) (b : List Byte) (s : State) : (canSingle k b s).still = s.still := by simp [canSingle]

@[simp] theorem canFirst_still (k : Nat) (b : List Byte) (s : State) : (canFirst k b s).still = s.still := by simp [canFirst]

@[simp] theorem canConsec_still (k : Nat) (b : List Byte) (s : State) : (canConsec k b s).still = s.still := by
  unfold canConsec; split <;> simp

@[simp] theorem canFlowIn_still (k : Nat) (b : List Byte) (s : State) : (canFlowIn k b s).still = s.still := by
  unfold canFlowIn; (repeat' split) <;> simp

@[simp] theorem canRestart_still (c : Nat) (s : State) : (canRestart c s).still = s.still := by simp [canRestart]

@[simp] theorem canBindWrite_still (k : Nat) (hi : Bool) (x : Word) (s : State) :
    (canBindWrite k hi x s).still = s.still := by simp [canBindWrite]

@[simp] theorem canTimingWrite_still (c off : Nat) (x : Word) (s : State) : (canTimingWrite c off x s).still = s.still := by
  simp [canTimingWrite]

@[simp] theorem shedCfgWrite_still (x : Word) (s : State) : (shedCfgWrite x s).still = s.still := by simp [shedCfgWrite]

/-! ### Machine/DriveCmd -/

@[simp] theorem profilePut_still (m : Msg) (s : State) : (profilePut m s).still = s.still := by unfold profilePut; split <;> simp

@[simp] theorem profileGet_still (m : Msg) (s : State) : (profileGet m s).still = s.still := by simp [profileGet]

@[simp] theorem channelConfig_still (m : Msg) (s : State) : (channelConfig m s).still = s.still := by
  unfold channelConfig; split <;> simp

@[simp] theorem drvChCfgWrite_still (c : Nat) (x : Word) (s : State) : (drvChCfgWrite c x s).still = s.still := by
  simp [drvChCfgWrite]

@[simp] theorem senseCal_still (m : Msg) (s : State) : (senseCal m s).still = s.still := by unfold senseCal; split <;> simp

@[simp] theorem drvPairWrite_still (x : Word) (s : State) : (drvPairWrite x s).still = s.still := by simp [drvPairWrite]

@[simp] theorem cutDisabled_still (s : State) : (cutDisabled s).still = s.still := by simp [cutDisabled]

@[simp] theorem enableWrite_still (hi : Bool) (x : Nat) (s : State) : (enableWrite hi x s).still = s.still := by
  simp [enableWrite]

/-! ### Machine/Intc -/

@[simp] theorem claim_still (k i : Nat) (s : State) : (claim k i s).still = s.still := by simp [claim]

@[simp] theorem enableSource_still (i : Nat) (b : Bool) (s : State) : (enableSource i b s).still = s.still := by
  simp [enableSource]

@[simp] theorem msixUnmask_still (c v : Nat) (s : State) : (msixUnmask c v s).still = s.still := by simp [msixUnmask]

/-! ### Machine/Sync -/

@[simp] theorem restartSearch_still (s : State) : (restartSearch s).still = s.still := by simp [restartSearch]

@[simp] theorem saveFiring_still (w : Wheel) (s : State) : (saveFiring w s).still = s.still := by simp [saveFiring]

@[simp] theorem lossOfSync_firm (w : Wheel) (cause : Nat) (keep seek : Option Nat) (s : State) (h :
    s.still.firm.memOk = true) : (lossOfSync w cause keep seek s).still.firm = s.still.firm := by simp [lossOfSync, h]

@[simp] theorem closeTest_still (w : Wheel) (s : State) : (closeTest w s).still = s.still := by simp [closeTest]

@[simp] theorem testEdge_still (w : Wheel) (h k : Nat) (rising : Bool) (s : State) :
    (testEdge w h k rising s).still = s.still := by simp [testEdge]

@[simp] theorem limpSteer_still (w : Wheel) (at_ a : Nat) (c0 : Int) (hold : Option Int) (s : State) :
    (limpSteer w at_ a c0 hold s).still = s.still := by simp [limpSteer]

@[simp] theorem fixFrozen_still (w : Wheel) (k a : Nat) (s : State) : (fixFrozen w k a s).still = s.still := by simp [fixFrozen]

@[simp] theorem limpEdge_still (w : Wheel) (k a : Nat) (s : State) : (limpEdge w k a s).still = s.still := by
  unfold limpEdge; split <;> simp

@[simp] theorem camMismatch_firm (w : Wheel) (k : Nat) (s : State) (h : s.still.firm.memOk = true) :
    (camMismatch w k s).still.firm = s.still.firm := by simp [camMismatch, h]

@[simp] theorem camReturn_still (w : Wheel) (k : Nat) (s : State) : (camReturn w k s).still = s.still := by simp [camReturn]

@[simp] theorem camMatch_still (w : Wheel) (k : Nat) (e : CamEdge) (s : State) : (camMatch w k e s).still = s.still := by
  simp [camMatch]

@[simp] theorem closeCheck_firm (w : Wheel) (s : State) (h : s.still.firm.memOk = true) : (closeCheck w s).still.firm = s.still.firm := by
  unfold closeCheck
  refine (foldl_firm _ (fun s a h => ?_) _ _ ?_).trans ?_
  · split <;> simp [h]
  · simpa using h
  · simp

@[simp] theorem closeWindows_firm (w : Wheel) (s : State) (h : s.still.firm.memOk = true) :
    (closeWindows w s).still.firm = s.still.firm := by simp [closeWindows, h]

@[simp] theorem camPattern_firm (w : Wheel) (k : Nat) (rising : Bool) (s : State) (h : s.still.firm.memOk = true) :
    (camPattern w k rising s).still.firm = s.still.firm := by simp only [camPattern]; (repeat' split) <;> simp [h]

@[simp] theorem takeCfg_still (s : State) : (takeCfg s).still = s.still := by simp [takeCfg]

@[simp] theorem toothDone_still (w : Wheel) (j : Nat) (coasted : Bool) (t : Frac) (s : State) :
    (toothDone w j coasted t s).still = s.still := by simp [toothDone]

@[simp] theorem runOn_still (w : Wheel) (j at_ : Nat) (c0 : Int) (hold : Option Int) (delta : Frac) (s : State) :
    (runOn w j at_ c0 hold delta s).still = s.still := by simp [runOn]

@[simp] theorem steerTooth_still (w : Wheel) (j : Nat) (s : State) : (steerTooth w j s).still = s.still := by simp [steerTooth]

@[simp] theorem steerCoast_still (w : Wheel) (j : Nat) (t : Frac) (s : State) : (steerCoast w j t s).still = s.still := by
  simp [steerCoast]

@[simp] theorem toothStakes_still (j : Nat) (coasted : Bool) (s : State) : (toothStakes j coasted s).still = s.still := by
  unfold toothStakes; (try dsimp only)
  (refine (foldl_still _ (fun s a => ?_) _ _).trans ?_ <;> try dsimp only) <;> (repeat' split) <;> simp

@[simp] theorem recomputeAll_still (s : State) : (recomputeAll s).still = s.still := by simp [recomputeAll]

@[simp] theorem trackersAgree_still (w : Wheel) (s : State) : (trackersAgree w s).still = s.still := by simp [trackersAgree]

@[simp] theorem benchmarkStake_still (w : Wheel) (j : Nat) (s : State) :
    (benchmarkStake w j s).still = s.still := by simp [benchmarkStake]

@[simp] theorem afterTooth_firm (w : Wheel) (j : Nat) (coasted : Bool) (t : Frac) (s : State) (h :
    s.still.firm.memOk = true) : (afterTooth w j coasted t s).still.firm = s.still.firm := by simp [afterTooth, h]

@[simp] theorem tooth_firm (w : Wheel) (j : Nat) (how : Arrival) (s : State) (h : s.still.firm.memOk = true) :
    (tooth w j how s).still.firm = s.still.firm := by simp only [tooth]; (repeat' split) <;> simp [h]

@[simp] theorem restartEdges_still (i : Nat) (s : State) : (restartEdges i s).still = s.still := by simp [restartEdges]

@[simp] theorem searchOn_still (w : Wheel) (i : Nat) (s : State) : (searchOn w i s).1.still = s.still := by
  simp only [searchOn]; (repeat' split) <;> simp

@[simp] theorem beginTracking_still (w : Wheel) (i : Nat) (s : State) : (beginTracking w i s).still = s.still := by
  simp [beginTracking]

@[simp] theorem lockOn_still (w : Wheel) (i : Nat) (s : State) : (lockOn w i s).still = s.still := by simp [lockOn]

@[simp] theorem lock_firm (w : Wheel) (i : Nat) (s : State) (h : s.still.firm.memOk = true) : (lock w i s).still.firm = s.still.firm := by
  unfold lock; dsimp only
  generalize e : decidePhase w (freshTest (setSync 2 (lockOn w i s))) = x
  have hx : x.still.firm = s.still.firm := by
    have a : (lockOn w i s).still.firm.memOk = true := by rw [lockOn_still]; exact h
    have b : (setSync 2 (lockOn w i s)).still.firm = s.still.firm :=
      (setSync_firm 2 _ a).trans (congrArg Still.firm (lockOn_still w i s))
    have c : (freshTest (setSync 2 (lockOn w i s))).still.firm = s.still.firm := (congrArg Still.firm (freshTest_still _)).trans b
    rw [← e, decidePhase_firm _ _ (by rw [c]; exact h), c]
  split
  · rw [lossOfSync_firm _ _ _ _ _ (by rw [hx]; exact h), hx]
  · exact hx

@[simp] theorem searchInUse_firm (w : Wheel) (i : Nat) (s : State) (h : s.still.firm.memOk = true) :
    (searchInUse w i s).still.firm = s.still.firm := by simp only [searchInUse]; (repeat' split) <;> simp [h]

@[simp] theorem setDirection_firm (w : Wheel) (rev : Bool) (s : State) (h : s.still.firm.memOk = true) :
    (setDirection w rev s).still.firm = s.still.firm := by simp [setDirection, h]

@[simp] theorem readDirection_still (w : Wheel) (rev : Bool) (s : State) : (readDirection w rev s).2.still = s.still := by
  simp only [readDirection]; (repeat' split) <;> simp

@[simp] theorem quadEdge_firm (w : Wheel) (s : State) (h : s.still.firm.memOk = true) : (quadEdge w s).still.firm = s.still.firm := by
  unfold quadEdge
  split
  · rfl
  · have e := readDirection_still w (levelBefore s 1 != w.quadFwd) s
    split
    · next g => rw [g] at e; rw [setDirection_firm _ _ _ (by rw [e]; exact h), e]
    · next g => rw [g] at e; rw [e]

@[simp] theorem widthEdge_firm (w : Wheel) (s : State) (h : s.still.firm.memOk = true) :
    (widthEdge w s).still.firm = s.still.firm := by unfold widthEdge; split <;> simp [h]

@[simp] theorem pulseEnds_still (i : Nat) (s : State) : (pulseEnds i s).still = s.still := by
  unfold pulseEnds; split
  · next w t _ _ =>
    dsimp only
    have e := fun b => readDirection_still w b (onSensor i (fun x => { x with pulse := none }) s)
    (repeat' split) <;> first
      | (simp; done)
      | (next g => have e' := congrArg (fun x => x.2.still) g; simp only [readDirection_still, onSensor_still] at e'; simp [← e'])
  · rfl

@[simp] theorem enterLimp_firm (w : Wheel) (i : Nat) (s : State) (h : s.still.firm.memOk = true) :
    (enterLimp w i s).still.firm = s.still.firm := by simp [enterLimp, h]

@[simp] theorem moveSearch_firm (i : Nat) (s : State) (h : s.still.firm.memOk = true) :
    (moveSearch i s).still.firm = s.still.firm := by simp [moveSearch, h]

@[simp] theorem takeOver_still (i : Nat) (s : State) : (takeOver i s).still = s.still := by simp [takeOver]

@[simp] theorem loseCrank_firm (w : Wheel) (i cause : Nat) (s : State) (h : s.still.firm.memOk = true) :
    (loseCrank w i cause s).still.firm = s.still.firm := by simp [loseCrank, h]

@[simp] theorem lossTest_firm (w : Wheel) (i : Nat) (s : State) (h : s.still.firm.memOk = true) :
    (lossTest w i s).still.firm = s.still.firm := by simp [lossTest, h]

@[simp] theorem leaveLimp_firm (w : Wheel) (i : Nat) (s : State) (h : s.still.firm.memOk = true) :
    (leaveLimp w i s).still.firm = s.still.firm := by simp only [leaveLimp]; (repeat' split) <;> simp [h]

@[simp] theorem background_firm (w : Wheel) (i : Nat) (s : State) (h : s.still.firm.memOk = true) :
    (background w i s).still.firm = s.still.firm := by simp [background, h]

@[simp] theorem returnTest_firm (w : Wheel) (prev : Option Nat) (s : State) (h : s.still.firm.memOk = true) :
    (returnTest w prev s).1.still.firm = s.still.firm := by simp only [returnTest]; (repeat' split) <;> simp [h]

/-! ### Machine/Wheel -/

@[simp] theorem acceptEdge_still (i peak : Nat) (s : State) : (acceptEdge i peak s).still = s.still := by simp [acceptEdge]

@[simp] theorem levelChange_still (i : Nat) (rising : Bool) (s : State) : (levelChange i rising s).still = s.still := by
  simp [levelChange]

@[simp] theorem rejectEdge_still (i : Nat) (s : State) : (rejectEdge i s).still = s.still := by simp [rejectEdge]

@[simp] theorem crankAccepted_firm (w : Wheel) (i peak : Nat) (s : State) (h : s.still.firm.memOk = true) : (crankAccepted w i peak s).still.firm = s.still.firm := by
  unfold crankAccepted; dsimp only
  generalize e : onCrank i _ _ = x
  have hx : x.still = s.still := by rw [← e]; simp
  have hm : x.still.firm.memOk = true := by rw [hx]; exact h
  generalize g : (if i = 0 then quadEdge w x else x) = y
  have hy : y.still.firm = s.still.firm := by rw [← g]; split <;> simp [hx, h]
  have hn : y.still.firm.memOk = true := by rw [hy]; exact h
  split <;> simp [hy, h]

@[simp] theorem crankReturns_firm (w : Wheel) (i : Nat) (prev : Option Nat) (s : State) (h : s.still.firm.memOk = true) :
    (crankReturns w i prev s).1.still.firm = s.still.firm := by unfold crankReturns; split <;> simp [h]

@[simp] theorem crankTracks_firm (w : Wheel) (i : Nat) (turned : Bool) (s : State) (h : s.still.firm.memOk = true) :
    (crankTracks w i turned s).still.firm = s.still.firm := by unfold crankTracks; (repeat' split) <;> simp [h]

@[simp] theorem acceptedCrank_firm (w : Wheel) (i peak : Nat) (s : State) (h : s.still.firm.memOk = true) : (acceptedCrank w i peak s).still.firm = s.still.firm := by
  unfold acceptedCrank; dsimp only
  have ht := crankAccepted_firm w i peak s h
  have hm : (crankAccepted w i peak s).still.firm.memOk = true := by rw [ht]; exact h
  have hr := crankReturns_firm w i (crankAt s i).pos _ hm
  have hn : (crankReturns w i (crankAt s i).pos (crankAccepted w i peak s)).1.still.firm.memOk = true := by rw [hr]; exact hm
  split
  · rw [background_firm _ _ _ hn, hr, ht]
  · split
    · rw [hr, ht]
    · rw [crankTracks_firm _ _ _ _ hn, hr, ht]

@[simp] theorem crankEdge_firm (i : Nat) (rising : Bool) (peak : Nat) (s : State) (h : s.still.firm.memOk = true) :
    (crankEdge i rising peak s).still.firm = s.still.firm := by simp only [crankEdge]; (repeat' split) <;> simp [h]

@[simp] theorem camEdge_firm (k : Nat) (rising : Bool) (peak : Nat) (s : State) (h : s.still.firm.memOk = true) :
    (camEdge k rising peak s).still.firm = s.still.firm := by simp only [camEdge]; (repeat' split) <;> simp [h]

@[simp] theorem vrTimeout_still (i : Nat) (s : State) : (vrTimeout i s).still = s.still := by unfold vrTimeout; split <;> simp

@[simp] theorem coastTooth_firm (w : Wheel) (s : State) (h : s.still.firm.memOk = true) :
    (coastTooth w s).still.firm = s.still.firm := by simp [coastTooth, h]

@[simp] theorem freeze_firm (w : Wheel) (i : Nat) (s : State) (h : s.still.firm.memOk = true) :
    (freeze w i s).still.firm = s.still.firm := by unfold freeze; split <;> simp [h]

@[simp] theorem whlInWrite_still (i : Nat) (x : Word) (s : State) : (whlInWrite i x s).still = s.still := by simp [whlInWrite]

@[simp] theorem whlDirWrite_still (x : Word) (s : State) : (whlDirWrite x s).still = s.still := by simp [whlDirWrite]

@[simp] theorem bandWrite_still (k : Nat) (x : Word) (s : State) : (bandWrite k x s).still = s.still := by simp [bandWrite]

/-! ### Machine/Admit -/

@[simp] theorem hop2_still (code i : Nat) (m : Msg) (s : State) : (hop2 code i m s).still = s.still := by simp [hop2]

@[simp] theorem admit_still (w : Wheel) (m : Msg) (i : Nat) (d : Desc) (s : State) : (admitDesc w m i d s).still = s.still := by
  simp [admitDesc]

@[simp] theorem admitDesc_still (w : Wheel) (m : Msg) (i : Nat) (d : Desc) (s : State) :
    (admitDesc w m i d s).still = s.still := by simp [admitDesc]

@[simp] theorem armEvent_still (sound : Bool) (m : Msg) (s : State) :
    (armEvent sound m s).still = s.still := by simp only [armEvent]; (repeat' split) <;> simp

theorem onOwnDesc_still (code : Nat) (masks : List Word) (m : Msg) (f : Nat → Desc → State → State) (s : State)
    (h : ∀ i d s, (f i d s).still = s.still) : (onOwnDesc code masks m f s).still = s.still := by
  unfold onOwnDesc; dsimp only; (repeat' split) <;> simp [h]

@[simp] theorem inhibitOutputs_still (l : List Nat) (s : State) : (inhibitOutputs l s).still = s.still := by simp [inhibitOutputs]

@[simp] theorem pulseCutAll_still (l : List Nat) (s : State) : (pulseCutAll l s).still = s.still := by
  exact foldl_still _ (fun _ _ => by simp) _ _

@[simp] theorem safetyCut_still (sound : Bool) (m : Msg) (s : State) :
    (safetyCut sound m s).still = s.still := by unfold safetyCut; (repeat' split) <;> simp

@[simp] theorem releaseInhibits_still (s : State) : (releaseInhibits s).still = s.still := by simp [releaseInhibits]

@[simp] theorem askRelease_still (l : List Nat) (s : State) : (askRelease l s).still = s.still := by simp [askRelease]

@[simp] theorem seqQuotaWrite_still (n : Nat) (x : Word) (s : State) : (seqQuotaWrite n x s).still = s.still := by
  simp [seqQuotaWrite]

/-! ### Machine/WheelCmd -/

@[simp] theorem loadMap_still (w : Wheel) (i : Nat) (s : State) : (loadMap w i s).still = s.still := by
  unfold loadMap; split <;> simp

@[simp] theorem loadFiring_still (w : Wheel) (s : State) : (loadFiring w s).still = s.still := by
  simp only [loadFiring]; (repeat' split) <;> simp

@[simp] theorem useWheel_firm (w : Wheel) (s : State) (h : s.still.firm.memOk = true) :
    (useWheel w s).still.firm = s.still.firm := by simp [useWheel, h]

@[simp] theorem loadWheel_firm (sound : Bool) (m : Msg) (s : State) (h : s.still.firm.memOk = true) :
    (loadWheel sound m s).still.firm = s.still.firm := by unfold loadWheel; (repeat' split) <;> simp [h]

@[simp] theorem resync_firm (m : Msg) (s : State) (h : s.still.firm.memOk = true) :
    (resync m s).still.firm = s.still.firm := by unfold resync; split <;> simp [h]

@[simp] theorem loadStations_still (sound : Bool) (m : Msg) (s : State) :
    (loadStations sound m s).still = s.still := by simp only [loadStations]; (repeat' split) <;> simp

@[simp] theorem learnClosure_still (m : Msg) (s : State) : (learnClosure m s).still = s.still := by
  unfold learnClosure; (repeat' split) <;> simp

@[simp] theorem learnEnd_still (s : State) : (learnEnd s).still = s.still := by unfold learnEnd; (repeat' split) <;> simp

@[simp] theorem learnWatch_still (s : State) : (learnWatch s).still = s.still := by unfold learnWatch; split <;> simp

@[simp] theorem mapGet_still (m : Msg) (s : State) : (mapGet m s).still = s.still := by unfold mapGet; (repeat' split) <;> simp

@[simp] theorem mapPut_still (m : Msg) (s : State) : (mapPut m s).still = s.still := by
  simp only [mapPut]; (repeat' split) <;> simp

@[simp] theorem switchBank_still (n c : Nat) (astern : Bool) (s : State) : (switchBank n c astern s).still = s.still := by
  unfold switchBank; split
  split
  · exact (nearToWheel_still _ _).trans ((wr_still _ _ _).trans (wrB_still _ _ _))
  · rfl

@[simp] theorem switchBanks_still (n : Nat) (s : State) : (switchBanks n s).still = s.still := by
  unfold switchBanks; generalize List.range 256 = l
  exact foldl_still _ (fun _ _ => (switchBank_still _ _ _ _).trans (switchBank_still _ _ _ _)) _ _

@[simp] theorem crossingSettings_still (s : State) : (crossingSettings s).still = s.still := rfl

@[simp] theorem benchmarkPulse_still (s : State) : (benchmarkPulse s).still = s.still := by simp [benchmarkPulse]

@[simp] theorem benchmark_still (s : State) : (benchmark s).still = s.still := by simp only [benchmark]; (repeat' split) <;> simp

/-! ### Machine/Boot -/

@[simp] theorem onBoot_still (f : Boot → Boot) (s : State) : (onBoot f s).still =
    ⟨s.acq.sample, s.slots, s.pending, (f s.boot).counter, (f s.boot).preferred, (f s.boot).running, (f s.boot).slotA,
      (f s.boot).slotB, (f s.boot).recA, (f s.boot).recB⟩ := rfl

@[simp] theorem bootFields_still (s : State) : (bootFields s).still = s.still := by simp [bootFields]

@[simp] theorem showVersion_still (i : Nat) (s : State) : (showVersion i s).still = s.still := by simp [showVersion]

@[simp] theorem applyStartRecord_still (s : State) : (applyStartRecord s).still = s.still := by
  unfold applyStartRecord; split <;> simp

@[simp] theorem noImage_still (s : State) : (noImage s).still = s.still := by simp [noImage]

@[simp] theorem readyFaults_still (fallback : Bool) (s : State) : (readyFaults fallback s).still = s.still := by
  simp [readyFaults]

theorem runImage_still (i t : Nat) (s : State) : (runImage i t s).still = { s.still with running := i } := by
  rw [runImage, wr_still, showVersion_still]; rfl

@[simp] theorem bootReady_still (s : State) : (bootReady s).still = s.still := by
  unfold bootReady; dsimp only; split <;> simp

@[simp] theorem addJob_still (j : FlashJob) (s : State) : (addJob j s).still = s.still := by simp [addJob]

@[simp] theorem swapOver_still (s : State) : (swapOver s).still = s.still := by simp [swapOver]

/-! ### Machine/Pulse -/

@[simp] theorem setIdle_still (p : Nat) (b : PBank) (s : State) : (setIdle p b s).still = s.still := by simp [setIdle]

@[simp] theorem loadPulseImage_still (m : Msg) (s : State) : (loadPulseImage m s).still = s.still := by simp [loadPulseImage]

theorem onOwnPair_still (code range : Nat) (mask : Word) (m : Msg) (f : Nat → State → State) (s : State)
    (h : ∀ p s, (f p s).still = s.still) : (onOwnPair code range mask m f s).still = s.still := by
  unfold onOwnPair; dsimp only; (repeat' split) <;> simp [h]

@[simp] theorem putParams_still (p a : Nat) (l : List Word) (s : State) : (putParams p a l s).still = s.still := by
  induction l generalizing a s with
  | nil => rfl
  | cons w l ih => rw [putParams, ih, setParam_still]

@[simp] theorem writeParams_still (p : Nat) (m : Msg) (s : State) : (writeParams p m s).still = s.still := by simp [writeParams]

@[simp] theorem paramPass_still (s : State) : (paramPass s).still = s.still := by simp [paramPass]

@[simp] theorem plsOwnerWrite_still (p : Nat) (x : Word) (s : State) : (plsOwnerWrite p x s).still = s.still := by
  simp [plsOwnerWrite]

/-! ### Machine/Pace -/

@[simp] theorem endMeasured_still (i : Nat) (a : NoteArgs) (s : State) : (endMeasured i a s).still = s.still := by
  unfold endMeasured; split <;> simp

@[simp] theorem endReported_still (o serial at_ : Nat) (f : State → Desc → NoteArgs) (s : State) :
    (endReported o serial at_ f s).still = s.still := by
  unfold endReported; dsimp only
  split
  · rfl
  · split
    · rfl
    · refine (foldl_still _ (fun s j => ?_) _ _).trans ?_
      · split <;> simp
      · split
        · rw [laneOff_still]; exact foldl_still _ (fun _ _ => unplace_still _ _) _ _
        · exact foldl_still _ (fun _ _ => unplace_still _ _) _ _

@[simp] theorem deliver_still (s : State) (r : Report) : (deliver s r).still = s.still := by
  unfold deliver
  (repeat' split) <;> simp

@[simp] theorem statusReturn_still (s : State) : (statusReturn s).still = s.still := by simp [statusReturn]

@[simp] theorem frameArrives_still (pass : Bool) (s : State) : (frameArrives pass s).still = s.still := by
  unfold frameArrives; (repeat' split) <;> simp

@[simp] theorem stakeMatch_still (p slot : Nat) (value compl : Bool) (s : State) :
    (stakeMatch p slot value compl s).still = s.still := by unfold stakeMatch; split <;> simp

@[simp] theorem laneFault_still (o : Nat) (s : State) : (laneFault o s).still = s.still := by simp [laneFault]

@[simp] theorem trackersDiffer_firm (diff : Nat) (states : Bool) (s : State) (h : s.still.firm.memOk = true) :
    (trackersDiffer diff states s).still.firm = s.still.firm := by simp only [trackersDiffer]; (repeat' split) <;> simp [h]

@[simp] theorem upset_still (s : State) (u : Upset) : (upset s u).still = s.still := by
  cases u <;> simp only [upset] <;> (repeat' split) <;> simp

@[simp] theorem padsIn_still (pads : Option PadLevels) (s : State) :
    (padsIn pads s).still = s.still := by unfold padsIn; (repeat' split) <;> simp

@[simp] theorem sample_still (vbat : Nat) (boost : List BoostRun) (drains : List (Fin 36 × BitVec 12)) (aux : List AuxRun) (pads : Option PadLevels) (s : State) :
    (sample vbat boost drains aux pads s).still = s.still := by simp [sample]

@[simp] theorem paceWork_still (upsets : List Upset) (s : State) : (paceWork upsets s).still = s.still := by simp [paceWork]

/-! ### Machine/Rtc -/

@[simp] theorem onRtc_still (f : Rtc → Rtc) (s : State) : (onRtc f s).still = s.still := by simp [onRtc]

@[simp] theorem rtcTimeRead_still (s : State) : (rtcTimeRead s).2.still = s.still := by simp [rtcTimeRead]

@[simp] theorem rtcTimeWrite_still (x : Word) (s : State) : (rtcTimeWrite x s).still = s.still := by simp [rtcTimeWrite]

@[simp] theorem rtcDateWrite_still (x : Word) (s : State) : (rtcDateWrite x s).still = s.still := by simp [rtcDateWrite]

/-! ### Machine/Power -/

@[simp] theorem onPower_still (f : Power → Power) (s : State) : (onPower f s).still = s.still := by simp [onPower]

@[simp] theorem setPhase_still (p : PwrPhase) (s : State) : (setPhase p s).still = s.still := by simp [setPhase]

@[simp] theorem powerEnter_still (t : Nat) (s : State) : (powerEnter t s).still = s.still := by simp [powerEnter]

@[simp] theorem pwrCtrlWrite_still (x : Word) (s : State) : (pwrCtrlWrite x s).still = s.still := by
  simp only [pwrCtrlWrite]; (repeat' split) <;> simp

@[simp] theorem powerRequest_still (m : Msg) (s : State) : (powerRequest m s).still = s.still := by
  simp only [powerRequest]; (repeat' split) <;> simp

@[simp] theorem powerStatus_still (m : Msg) (s : State) : (powerStatus m s).still = s.still := by simp [powerStatus]

@[simp] theorem powerVote_still (m : Msg) (s : State) : (powerVote m s).still = s.still := by unfold powerVote; split <;> simp

@[simp] theorem retentionSave_still (s : State) : (retentionSave s).still = s.still := by simp [retentionSave]

@[simp] theorem bookFlush_still (n : Nat) (s : State) : (bookFlush n s).still = s.still := by
  induction n generalizing s with
  | zero => rfl
  | succ n ih => unfold bookFlush; split <;> simp [ih]

@[simp] theorem quietSessions_still (s : State) : (quietSessions s).still = s.still := by simp [quietSessions]

@[simp] theorem cancelEntry_still (s : State) : (cancelEntry s).still = s.still := by
  unfold cancelEntry; dsimp only; rw [powerUpdate_still]; split <;> simp

@[simp] theorem boostsOff_still (s : State) : (boostsOff s).still = s.still := by
  unfold boostsOff
  split
  · split
    · rfl
    · split
      · simp
      · simp only [setPhase_still, retentionSave_still, onTie_still, wrB_still, stepDown_still, bookFlush_still, quietSessions_still]
  · rfl

@[simp] theorem domainsAll_still (x : Domain) (s : State) : (domainsAll x s).still = s.still := by
  unfold domainsAll; generalize List.range 143 = l
  exact foldl_still _ (fun _ _ => setDomain_still _ _ _) _ _

@[simp] theorem pmbusRequest_still (on : Bool) (s : State) : (pmbusRequest on s).still = s.still := by simp [pmbusRequest]

@[simp] theorem wakeCause_still (k : Nat) (s : State) : (wakeCause k s).still = s.still := by simp [wakeCause]

@[simp] theorem marginDraws_still (s : State) : (marginDraws s).still = s.still := by simp [marginDraws]

@[simp] theorem restoreRegs_still (s : State) : (restoreRegs s).still = s.still := by simp [restoreRegs]

@[simp] theorem restore_firm (s : State) (h : s.still.firm.memOk = true) : (restore s).still.firm = s.still.firm := by
  simp only [restore]; (repeat' split) <;> simp [h]

@[simp] theorem exitBoosts_still (s : State) : (exitBoosts s).still = s.still := by simp [exitBoosts]

@[simp] theorem exitPower_still (s : State) : (exitPower s).still = s.still := by simp [exitPower]

/-! ### Machine/Access -/

@[simp] theorem pairedApply_still (off : Nat) (x : Word) (s : State) : (pairedApply off x s).still = s.still := by
  simp [pairedApply]

@[simp] theorem showPend_still (s : State) : (showPend s).still = s.still := by simp [showPend]

@[simp] theorem canCtrlWrite_still (c : Nat) (x : Word) (s : State) : (canCtrlWrite c x s).still = s.still := by
  simp [canCtrlWrite]

@[simp] theorem writeSystem_still (off : Nat) (x : Word) (s : State) : (writeSystem off x s).still = s.still := by
  simp [writeSystem]

@[simp] theorem writePeriph_still (off : Nat) (x : Word) (s : State) : (writePeriph off x s).still = s.still := by
  simp [writePeriph]

@[simp] theorem writeDrive_still (off : Nat) (x : Word) (s : State) : (writeDrive off x s).still = s.still := by simp [writeDrive]

@[simp] theorem plainWrite_still (off : Nat) (x : Word) (s : State) : (plainWrite off x s).still = s.still := by simp [plainWrite]

@[simp] theorem dmaWrite_still (fn ch off : Nat) (x : Word) (s : State) : (dmaWrite fn ch off x s).still = s.still := by
  simp [dmaWrite]

@[simp] theorem clientWrite_still (fn off : Nat) (x : Word) (s : State) : (clientWrite fn off x s).still = s.still := by
  simp [clientWrite]

@[simp] theorem atStart_still (s : State) : (atStart s).still = s.still := by simp [atStart]

@[simp] theorem deepIndex_still (l : List Nat) (s : State) : (deepIndex l s).2.still = s.still := by
  unfold deepIndex; split <;> simp

theorem readSpecial_still (off : Nat) (s : State) (r : Word × State) (h : readSpecial off s = some r) : r.2.still = s.still := by
  revert r
  have key : ∀ {c : Prop} [Decidable c] {a : Word × State} {b : Option (Word × State)}, a.2.still = s.still →
      (∀ r, b = some r → r.2.still = s.still) → ∀ r, (if c then some a else b) = some r → r.2.still = s.still := by
    intro c _ a b ha hb r h
    split at h
    · cases h; exact ha
    · exact hb r h
  unfold readSpecial; dsimp only
  repeat' refine key ?_ ?_
  all_goals simp

@[simp] theorem globalRead_still (off : Nat) (s : State) : (globalRead off s).2.still = s.still := by
  unfold globalRead
  split
  · rfl
  · split
    · rfl
    · split
      · next h => exact readSpecial_still _ _ _ h
      · exact foldl_still _ (fun _ _ => by simp) _ _

@[simp] theorem clientRead_still (fn off : Nat) (s : State) : (clientRead fn off s).2.still = s.still := by
  unfold clientRead; (repeat' split) <;> simp

@[simp] theorem accessRead_still (fn : Nat) (glob : Bool) (off : Nat) (be : BitVec 4) (s : State) :
    (accessRead fn glob off be s).still = s.still := by simp only [accessRead]; (repeat' split) <;> simp

/-! ### Machine/PeriphEvents -/

@[simp] theorem padEdge_still (src : Nat) (rising : Bool) (s : State) :
    (padEdge src rising s).still = s.still := by simp [padEdge]

end Sys2Proof.Machine
end

