-- ==== Sys2Proof/Laws/StillEvents.lean ====
section
/-! SUPPORT. The wrappers of the meanings keep what the action inside them keeps, and the operations that do change a kept part say
what becomes of it. -/
namespace Sys2Proof.Machine
variable {s t : State}

/-- An event keeps what its action keeps. -/
theorem event_still {dt : Nat} {f : State → State} (h : event dt f s = .next t) (hf : ∀ s : State, (f s).still = s.still) :
    t.still = s.still := by
  rcases event_cases dt f s with e | e <;> rw [e] at h <;> cases h
  · rfl
  · rw [hf, passTime_still]

/-- An event keeps what its action keeps. -/
theorem event_firm {dt : Nat} {f : State → State} (h : event dt f s = .next t) (hs : s.still.firm.memOk = true)
    (hf : ∀ s : State, s.still.firm.memOk = true → (f s).still.firm = s.still.firm) : t.still.firm = s.still.firm := by
  rcases event_cases dt f s with e | e <;> rw [e] at h <;> cases h
  · rfl
  · rw [hf _ (by simpa using hs), passTime_still]

/-- An event of the island keeps what its action keeps. -/
theorem islandEvent_still {dt : Nat} {f : State → State} (h : islandEvent dt f s = .next t)
    (hf : ∀ s : State, (f s).still = s.still) : t.still = s.still := by
  by_cases a : awake s = true
  · rw [islandEvent_awake a] at h; cases h
    rw [hf, passTime_still]
  · rw [islandEvent_asleep (by simpa using a)] at h; cases h
    exact hf _

/-- A command keeps what its effect keeps. -/
theorem command_still {code : Nat} {m : Msg} {f : State → State} (h : command code m f s = .next t)
    (hf : ∀ s : State, (f s).still = s.still) : t.still = s.still := by
  unfold command at h; cases h
  split
  · split
    · simp
    · exact hf _
  · rfl

/-- A command keeps what its effect keeps. -/
theorem command_firm {code : Nat} {m : Msg} {f : State → State} (h : command code m f s = .next t)
    (hs : s.still.firm.memOk = true) (hf : ∀ s : State, s.still.firm.memOk = true → (f s).still.firm = s.still.firm) :
    t.still.firm = s.still.firm := by
  unfold command at h; cases h
  split
  · split
    · simp
    · exact hf _ hs
  · rfl

/-- A full reset empties the sample memory and the paired-write slots and keeps flash (start-up R430). -/
theorem fullReset_still (cause : Nat) (s : State) : (fullReset cause s).still =
    ⟨[], [], s.pending, s.boot.counter, s.boot.preferred, (State.reset).boot.running, s.boot.slotA, s.boot.slotB, s.boot.recA,
      s.boot.recB⟩ := by
  unfold fullReset; dsimp only
  rw [wr_still, bootFields_still, foldl_still _ (fun _ _ => wr_still _ _ _)]
  rfl

@[simp] theorem clearSlots_still (s : State) : (clearSlots s).still = { s.still with slots := [] } := by
  rw [clearSlots, wrB_still]; rfl

/-- The exit of STANDBY empties the paired-write slots and keeps flash; the sample memory is empty (power R454, R457). -/
theorem standbyExit_firm (good : Bool) (s : State) : (standbyExit good s).still.firm =
    ⟨true, [], s.pending, s.boot.counter, s.boot.preferred, s.boot.running, s.boot.slotA, s.boot.slotB, s.boot.recA, s.boot.recB⟩ := by
  have key : ∀ r : State, r.still = ⟨[], [], s.pending, s.boot.counter, s.boot.preferred, s.boot.running, s.boot.slotA, s.boot.slotB, s.boot.recA, s.boot.recB⟩ →
      (if good then restore (bootFields r) else flag PWR_STATUS_RET_LOST (bootFields r)).still.firm = r.still.firm := by
    intro r h
    split
    · rw [restore_firm _ (by rw [bootFields_still, h]; rfl), bootFields_still]
    · rw [flag_still, bootFields_still]
  unfold standbyExit; dsimp only
  generalize hr : (exitFields.foldl (fun (r : State) f => wr f (rd s f) r) _) = r
  have e : r.still = ⟨[], [], s.pending, s.boot.counter, s.boot.preferred, s.boot.running, s.boot.slotA, s.boot.slotB, s.boot.recA, s.boot.recB⟩ := by
    rw [← hr, foldl_still _ (fun _ _ => wr_still _ _ _)]; rfl
  have k := key r e
  generalize (if good then restore (bootFields r) else flag PWR_STATUS_RET_LOST (bootFields r)) = q at k ⊢
  rw [exitPower_still, exitBoosts_still, k, e]; rfl

end Sys2Proof.Machine
end

