-- ==== Sys2Proof/Laws/StillExec.lean ====
section
/-! SUPPORT. The meanings that leave the parts of `Still` as they are: the lemma of each, for the whole-machine statements. -/
namespace Sys2Proof.Machine

/-- An instruction command keeps the parts of `Still`. -/
theorem instruction_still {dt : Nat} {n : Fin 64} {op : POp} {s u : State} (h : instruction dt n op s = .next u) :
    u.still = s.still :=
  event_still h (fun s => by split <;> simp)

theorem execPace_still (dt : Nat) (vbat : BitVec 12) (boost : List BoostRun) (drains : List (Fin 36 × BitVec 12)) (aux : List AuxRun) (pads : Option PadLevels)
    (upsets : List Upset) (s : State) {u : State}
    (h : execPace dt vbat boost drains aux pads upsets s = .next u) : u.still = s.still :=
  event_still h (fun s => by simp)

theorem execStakeFire_still (dt : Nat) (p : Fin 4) (slot : Fin 32) (value compl : Bool) (s : State) {u : State}
    (h : execStakeFire dt p slot value compl s = .next u) : u.still = s.still :=
  event_still h (fun s => by simp)

theorem execProfileFrame_still (dt : Nat) (pass : Bool) (s : State) {u : State}
    (h : execProfileFrame dt pass s = .next u) : u.still = s.still :=
  event_still h (fun s => by simp)

theorem execStatusReturnFrame_still (dt : Nat) (s : State) {u : State}
    (h : execStatusReturnFrame dt s = .next u) : u.still = s.still :=
  event_still h (fun s => by simp)

theorem execLaneFault_still (dt : Nat) (o : Fin 52) (s : State) {u : State}
    (h : execLaneFault dt o s = .next u) : u.still = s.still :=
  event_still h (fun s => by simp)

theorem execTrackerDisagree_firm (dt : Nat) (diff : Nat) (states : Bool) (s : State) {u : State}
    (h : execTrackerDisagree dt diff states s = .next u) (hs : s.still.firm.memOk = true) : u.still.firm = s.still.firm :=
  event_firm h hs (fun s hs => by simp [hs])

theorem execCrankEdge_firm (dt : Nat) (b rising : Bool) (peak : BitVec 16) (s : State) {u : State}
    (h : execCrankEdge dt b rising peak s = .next u) (hs : s.still.firm.memOk = true) : u.still.firm = s.still.firm :=
  event_firm h hs (fun s hs => by simp [hs])

theorem execCamEdge_firm (dt : Nat) (b rising : Bool) (peak : BitVec 16) (s : State) {u : State}
    (h : execCamEdge dt b rising peak s = .next u) (hs : s.still.firm.memOk = true) : u.still.firm = s.still.firm :=
  event_firm h hs (fun s hs => by simp [hs])

theorem execCamWindowExpiry_firm (dt : Nat) (s : State) {u : State}
    (h : execCamWindowExpiry dt s = .next u) (hs : s.still.firm.memOk = true) : u.still.firm = s.still.firm :=
  event_firm h hs (fun s hs => by split <;> simp [hs])

theorem execVrArmTimeout_still (dt : Nat) (input : Fin 4) (s : State) {u : State}
    (h : execVrArmTimeout dt input s = .next u) : u.still = s.still :=
  event_still h (fun s => by simp)

theorem execCoast_firm (dt : Nat) (s : State) {u : State}
    (h : execCoast dt s = .next u) (hs : s.still.firm.memOk = true) : u.still.firm = s.still.firm :=
  event_firm h hs (fun s hs => by split <;> simp [hs])

theorem execFrozenInput_firm (dt : Nat) (input : Fin 4) (s : State) {u : State}
    (h : execFrozenInput dt input s = .next u) (hs : s.still.firm.memOk = true) : u.still.firm = s.still.firm :=
  event_firm h hs (fun s hs => by split <;> simp [hs])

theorem execChainWait_still (dt : Nat) (s : State) {u : State} (h : execChainWait dt s = .next u) : u.still = s.still :=
  event_still h (fun s => by simp)

theorem execBenchmarkCrossing_still (dt : Nat) (s : State) {u : State}
    (h : execBenchmarkCrossing dt s = .next u) : u.still = s.still :=
  event_still h (fun s => by simp)

theorem execClosureLearnEnd_still (dt : Nat) (s : State) {u : State}
    (h : execClosureLearnEnd dt s = .next u) : u.still = s.still :=
  event_still h (fun s => by simp)

theorem execAdd_still (dt : Nat) (n : Fin 64) (cd ca : Fin 16) (b : PArg) (s : State) {u : State}
    (h : execAdd dt n cd ca b s = .next u) : u.still = s.still := instruction_still h

theorem execSub_still (dt : Nat) (n : Fin 64) (cd ca : Fin 16) (b : PArg) (s : State) {u : State}
    (h : execSub dt n cd ca b s = .next u) : u.still = s.still := instruction_still h

theorem execAnd_still (dt : Nat) (n : Fin 64) (cd ca : Fin 16) (b : PArg) (s : State) {u : State}
    (h : execAnd dt n cd ca b s = .next u) : u.still = s.still := instruction_still h

theorem execOr_still (dt : Nat) (n : Fin 64) (cd ca : Fin 16) (b : PArg) (s : State) {u : State}
    (h : execOr dt n cd ca b s = .next u) : u.still = s.still := instruction_still h

theorem execXor_still (dt : Nat) (n : Fin 64) (cd ca : Fin 16) (b : PArg) (s : State) {u : State}
    (h : execXor dt n cd ca b s = .next u) : u.still = s.still := instruction_still h

theorem execShl_still (dt : Nat) (n : Fin 64) (cd ca : Fin 16) (b : PArg) (s : State) {u : State}
    (h : execShl dt n cd ca b s = .next u) : u.still = s.still := instruction_still h

theorem execShr_still (dt : Nat) (n : Fin 64) (cd ca : Fin 16) (b : PArg) (s : State) {u : State}
    (h : execShr dt n cd ca b s = .next u) : u.still = s.still := instruction_still h

theorem execMul16_still (dt : Nat) (n : Fin 64) (cd ca : Fin 16) (b : PArg) (s : State) {u : State}
    (h : execMul16 dt n cd ca b s = .next u) : u.still = s.still := instruction_still h

theorem execLdp_still (dt : Nat) (n : Fin 64) (cd ca : Fin 16) (off : BitVec 11) (s : State) {u : State}
    (h : execLdp dt n cd ca off s = .next u) : u.still = s.still := instruction_still h

theorem execStp_still (dt : Nat) (n : Fin 64) (cd ca : Fin 16) (off : BitVec 11) (s : State) {u : State}
    (h : execStp dt n cd ca off s = .next u) : u.still = s.still := instruction_still h

theorem execWaita_still (dt : Nat) (n : Fin 64) (cd ca : Fin 16) (limit : Option (Fin 16)) (s : State) {u : State}
    (h : execWaita dt n cd ca limit s = .next u) : u.still = s.still := instruction_still h

theorem execWaitt_still (dt : Nat) (n : Fin 64) (cd ca : Fin 16) (rel : Bool) (s : State) {u : State}
    (h : execWaitt dt n cd ca rel s = .next u) : u.still = s.still := instruction_still h

theorem execWaite_still (dt : Nat) (n : Fin 64) (cd : Fin 16) (limit : Option (Fin 16)) (det : Bool) (kind : BitVec 2) (source : BitVec 5) (s : State) {u : State}
    (h : execWaite dt n cd limit det kind source s = .next u) : u.still = s.still := instruction_still h

theorem execStk_still (dt : Nat) (n : Fin 64) (cd ca : Fin 16) (slot : Fin 4) (action : BitVec 2) (s : State) {u : State}
    (h : execStk dt n cd ca slot action s = .next u) : u.still = s.still := instruction_still h

theorem execCapt_still (dt : Nat) (n : Fin 64) (cd ca : Fin 16) (source : BitVec 6) (s : State) {u : State}
    (h : execCapt dt n cd ca source s = .next u) : u.still = s.still := instruction_still h

theorem execAdct_still (dt : Nat) (n : Fin 64) (cd ca : Fin 16) (line : Fin 16) (s : State) {u : State}
    (h : execAdct dt n cd ca line s = .next u) : u.still = s.still := instruction_still h

theorem execQin_still (dt : Nat) (n : Fin 64) (cd : Fin 16) (q : BitVec 4) (s : State) {u : State}
    (h : execQin dt n cd q s = .next u) : u.still = s.still := instruction_still h

theorem execQout_still (dt : Nat) (n : Fin 64) (ca : Fin 16) (q : BitVec 4) (s : State) {u : State}
    (h : execQout dt n ca q s = .next u) : u.still = s.still := instruction_still h

theorem execBr_still (dt : Nat) (n : Fin 64) (t : BitVec 12) (s : State) {u : State}
    (h : execBr dt n t s = .next u) : u.still = s.still := instruction_still h

theorem execBrz_still (dt : Nat) (n : Fin 64) (ca : Fin 16) (t : BitVec 12) (s : State) {u : State}
    (h : execBrz dt n ca t s = .next u) : u.still = s.still := instruction_still h

theorem execBrn_still (dt : Nat) (n : Fin 64) (ca : Fin 16) (t : BitVec 12) (s : State) {u : State}
    (h : execBrn dt n ca t s = .next u) : u.still = s.still := instruction_still h

theorem execBrc_still (dt : Nat) (n : Fin 64) (c : Fin 16) (t : BitVec 12) (s : State) {u : State}
    (h : execBrc dt n c t s = .next u) : u.still = s.still := instruction_still h

theorem execYield_still (dt : Nat) (n : Fin 64) (s : State) {u : State} (h : execYield dt n s = .next u) : u.still = s.still := instruction_still h

theorem execHalt_still (dt : Nat) (n : Fin 64) (s : State) {u : State} (h : execHalt dt n s = .next u) : u.still = s.still := instruction_still h

theorem execPulseWake_still (dt : Nat) (n : Fin 64) (s : State) {u : State}
    (h : execPulseWake dt n s = .next u) : u.still = s.still :=
  event_still h (fun s => by simp)

theorem execWaitLimitExpiry_still (dt : Nat) (n : Fin 64) (s : State) {u : State}
    (h : execWaitLimitExpiry dt n s = .next u) : u.still = s.still :=
  event_still h (fun s => by simp)

theorem execPulseStakeFire_firm (dt : Nat) (p : Fin 4) (slot : Fin 32) (value compl : Bool) (s : State) {u : State}
    (h : execPulseStakeFire dt p slot value compl s = .next u) (hs : s.still.firm.memOk = true) : u.still.firm = s.still.firm :=
  event_firm h hs (fun s hs => by split <;> simp [hs])

theorem execPulseBankExchange_still (dt : Nat) (p : Fin 4) (s : State) {u : State}
    (h : execPulseBankExchange dt p s = .next u) : u.still = s.still :=
  event_still h (fun s => by split <;> simp)

theorem execPhaseExitTime_still (dt : Nat) (c : Fin 36) (s : State) {u : State}
    (h : execPhaseExitTime dt c s = .next u) : u.still = s.still :=
  event_still h (fun s => by simp)

theorem execWindowComparatorCrossing_still (dt : Nat) (c : Fin 36) (high up : Bool) (s : State) {u : State}
    (h : execWindowComparatorCrossing dt c high up s = .next u) : u.still = s.still :=
  event_still h (fun s => by simp)

theorem execRegulationMinTime_still (dt : Nat) (c : Fin 36) (s : State) {u : State}
    (h : execRegulationMinTime dt c s = .next u) : u.still = s.still :=
  event_still h (fun s => by simp)

theorem execTimeOnlyToggle_still (dt : Nat) (c : Fin 36) (s : State) {u : State}
    (h : execTimeOnlyToggle dt c s = .next u) : u.still = s.still :=
  event_still h (fun s => by simp)

theorem execDecayEnd_still (dt : Nat) (c : Fin 36) (drawn : List Nat) (s : State) {u : State}
    (h : execDecayEnd dt c drawn s = .next u) : u.still = s.still :=
  event_still h (fun s => by simp)

theorem execDutyLimitReached_still (dt : Nat) (c : Fin 36) (s : State) {u : State}
    (h : execDutyLimitReached dt c s = .next u) : u.still = s.still :=
  event_still h (fun s => by simp)

theorem execPlausTimeout_still (dt : Nat) (c : Fin 36) (s : State) {u : State}
    (h : execPlausTimeout dt c s = .next u) : u.still = s.still :=
  event_still h (fun s => by simp)

theorem execProfileStoreDone_still (dt : Nat) (s : State) {u : State}
    (h : execProfileStoreDone dt s = .next u) : u.still = s.still :=
  event_still h (fun s => by simp)

theorem execSenseCalRun_still (dt : Nat) (c : Fin 36) (s : State) {u : State}
    (h : execSenseCalRun dt c s = .next u) : u.still = s.still :=
  event_still h (fun s => by simp)

theorem execSenseCalDone_still (dt : Nat) (c : Fin 36) (mA : Int) (s : State) {u : State}
    (h : execSenseCalDone dt c mA s = .next u) : u.still = s.still :=
  event_still h (fun s => by simp)

theorem execSenseCalTimeout_still (dt : Nat) (c : Fin 36) (s : State) {u : State}
    (h : execSenseCalTimeout dt c s = .next u) : u.still = s.still :=
  event_still h (fun s => by simp)

theorem execBoostReadyChange_still (dt : Nat) (b : Fin 2) (v : BitVec 12) (s : State) {u : State}
    (h : execBoostReadyChange dt b v s = .next u) : u.still = s.still :=
  event_still h (fun s => by simp)

theorem execBoostPrechargeTimeout_still (dt : Nat) (b : Fin 2) (s : State) {u : State}
    (h : execBoostPrechargeTimeout dt b s = .next u) : u.still = s.still :=
  event_still h (fun s => by simp)

theorem execBoostFail_still (dt : Nat) (b : Fin 2) (cause : Fin 4) (boost : List BoostRun) (s : State) {u : State}
    (h : execBoostFail dt b cause boost s = .next u) : u.still = s.still :=
  event_still h (fun s => by simp)

theorem execBoostDischargeEnd_still (dt : Nat) (b : Fin 2) (v : BitVec 12) (s : State) {u : State}
    (h : execBoostDischargeEnd dt b v s = .next u) : u.still = s.still :=
  event_still h (fun s => by simp)

theorem execClampEngage_still (dt : Nat) (b : Fin 2) (v : BitVec 12) (s : State) {u : State}
    (h : execClampEngage dt b v s = .next u) : u.still = s.still :=
  event_still h (fun s => by simp)

theorem execClampRelease_still (dt : Nat) (b : Fin 2) (v : BitVec 12) (s : State) {u : State}
    (h : execClampRelease dt b v s = .next u) : u.still = s.still :=
  event_still h (fun s => by simp)

theorem execBoostWaitExpiry_still (dt : Nat) (c : Fin 36) (s : State) {u : State}
    (h : execBoostWaitExpiry dt c s = .next u) : u.still = s.still :=
  event_still h (fun s => by simp)

theorem execRampViolation_still (dt : Nat) (c : Fin 36) (high : Bool) (t : Nat) (v0 vds slope : BitVec 12) (s : State) {u : State}
    (h : execRampViolation dt c high t v0 vds slope s = .next u) : u.still = s.still :=
  event_still h (fun s => by simp)

theorem execDesaturation_still (dt : Nat) (c : Fin 36) (high : Bool) (vds : BitVec 12) (held : Nat) (s : State) {u : State}
    (h : execDesaturation dt c high vds held s = .next u) : u.still = s.still :=
  event_still h (fun s => by simp)

theorem execOffStateTest_still (dt : Nat) (c : Fin 36) (s : State) {u : State}
    (h : execOffStateTest dt c s = .next u) : u.still = s.still :=
  event_still h (fun s => by simp)

theorem execOffStateTestResult_still (dt : Nat) (c : Fin 36) (drain high : BitVec 12) (s : State) {u : State}
    (h : execOffStateTestResult dt c drain high s = .next u) : u.still = s.still :=
  event_still h (fun s => by simp)

theorem execOpenLoadCheck_still (dt : Nat) (c : Fin 36) (amps drain : BitVec 12) (s : State) {u : State}
    (h : execOpenLoadCheck dt c amps drain s = .next u) : u.still = s.still :=
  event_still h (fun s => by simp)

theorem execChannelThermal_still (dt : Nat) (c : Fin 36) (t : BitVec 8) (s : State) {u : State}
    (h : execChannelThermal dt c t s = .next u) : u.still = s.still :=
  event_still h (fun s => by simp)

theorem execSubstrateThermal_still (dt : Nat) (zone : Fin 2) (t : BitVec 8) (s : State) {u : State}
    (h : execSubstrateThermal dt zone t s = .next u) : u.still = s.still :=
  event_still h (fun s => by simp)

theorem execRetryRelease_still (dt : Nat) (o : Fin 52) (s : State) {u : State}
    (h : execRetryRelease dt o s = .next u) : u.still = s.still :=
  event_still h (fun s => by simp)

theorem execClosingKink_still (dt : Nat) (k : Fin 8) (v : List (BitVec 12)) (below : Nat) (s : State) {u : State}
    (h : execClosingKink dt k v below s = .next u) : u.still = s.still :=
  event_still h (fun s => by simp)

theorem execClosingWindowEnd_still (dt : Nat) (k : Fin 8) (s : State) {u : State}
    (h : execClosingWindowEnd dt k s = .next u) : u.still = s.still :=
  event_still h (fun s => by simp)

theorem execInrushEnd_still (dt : Nat) (n : Fin 16) (aux : List AuxRun) (s : State) {u : State}
    (h : execInrushEnd dt n aux s = .next u) : u.still = s.still :=
  event_still h (fun s => by simp)

theorem execAuxShort_still (dt : Nat) (n : Fin 16) (aux : List AuxRun) (s : State) {u : State}
    (h : execAuxShort dt n aux s = .next u) : u.still = s.still :=
  event_still h (fun s => by simp)

theorem execAuxOpenLoad_still (dt : Nat) (n : Fin 16) (aux : List AuxRun) (s : State) {u : State}
    (h : execAuxOpenLoad dt n aux s = .next u) : u.still = s.still :=
  event_still h (fun s => by simp)

theorem execAuxBackfeed_still (dt : Nat) (n : Fin 16) (aux : List AuxRun) (s : State) {u : State}
    (h : execAuxBackfeed dt n aux s = .next u) : u.still = s.still :=
  event_still h (fun s => by simp)

theorem execAuxThermal_still (dt : Nat) (n : Fin 16) (t : BitVec 8) (s : State) {u : State}
    (h : execAuxThermal dt n t s = .next u) : u.still = s.still :=
  event_still h (fun s => by simp)

theorem execTieTrainingDone_still (dt : Nat) (slot : Fin 16) (ver : Fin 4) (lat : BitVec 16) (serialLow partnerDrives partnerHas : Bool) (s : State) {u : State}
    (h : execTieTrainingDone dt slot ver lat serialLow partnerDrives partnerHas s = .next u) : u.still = s.still :=
  event_still h (fun s => by simp)

theorem execTieTrainingTimeout_still (dt : Nat) (s : State) {u : State}
    (h : execTieTrainingTimeout dt s = .next u) : u.still = s.still :=
  event_still h (fun s => by simp)

theorem execTieStateFrame_still (dt : Nat) (w0 w1 w2 w3 w4 w5 w6 w7 : Word) (s : State) {u : State}
    (h : execTieStateFrame dt w0 w1 w2 w3 w4 w5 w6 w7 s = .next u) : u.still = s.still :=
  event_still h (fun s => by simp)

theorem execBackgroundBlock_still (dt : Nat) (x0 x1 x2 x3 : Word) (s : State) {u : State}
    (h : execBackgroundBlock dt x0 x1 x2 x3 s = .next u) : u.still = s.still :=
  event_still h (fun s => by simp)

theorem execTieSilence_still (dt : Nat) (s : State) {u : State} (h : execTieSilence dt s = .next u) : u.still = s.still :=
  event_still h (fun s => by simp)

theorem execResignEdge_still (dt : Nat) (s : State) {u : State} (h : execResignEdge dt s = .next u) : u.still = s.still :=
  event_still h (fun s => by simp)

theorem execResignRelease_still (dt : Nat) (s : State) {u : State} (h : execResignRelease dt s = .next u) : u.still = s.still :=
  event_still h (fun s => by simp)

theorem execResignStuck_still (dt : Nat) (s : State) {u : State} (h : execResignStuck dt s = .next u) : u.still = s.still :=
  event_still h (fun s => by simp)

theorem execIsolationClose_still (dt : Nat) (sound : Bool) (s : State) {u : State}
    (h : execIsolationClose dt sound s = .next u) : u.still = s.still :=
  event_still h (fun s => by simp)

theorem execBenchmarkEdge_still (dt : Nat) (s : State) {u : State} (h : execBenchmarkEdge dt s = .next u) : u.still = s.still :=
  event_still h (fun s => by simp)

theorem execBenchmarkPulseMissing_still (dt : Nat) (s : State) {u : State}
    (h : execBenchmarkPulseMissing dt s = .next u) : u.still = s.still :=
  event_still h (fun s => by simp)

theorem execBenchmarkListenEnd_still (dt : Nat) (s : State) {u : State}
    (h : execBenchmarkListenEnd dt s = .next u) : u.still = s.still :=
  event_still h (fun s => by simp)

theorem execBenchmarkClaim_still (dt : Nat) (k : Fin 16) (s : State) {u : State}
    (h : execBenchmarkClaim dt k s = .next u) : u.still = s.still :=
  event_still h (fun s => by simp)

theorem execQuietHandoverResign_still (dt : Nat) (s : State) {u : State}
    (h : execQuietHandoverResign dt s = .next u) : u.still = s.still :=
  event_still h (fun s => by split <;> simp)

theorem execHandoverTimeout_still (dt : Nat) (s : State) {u : State}
    (h : execHandoverTimeout dt s = .next u) : u.still = s.still :=
  event_still h (fun s => by split <;> simp)

theorem execAcqAngleTrigger_firm (dt : Nat) (l : Fin 32) (s : State) {u : State}
    (h : execAcqAngleTrigger dt l s = .next u) (hs : s.still.firm.memOk = true) : u.still.firm = s.still.firm :=
  event_firm h hs (fun s hs => by simp [hs])

theorem execAcqTimeTrigger_firm (dt : Nat) (l : Fin 32) (s : State) {u : State}
    (h : execAcqTimeTrigger dt l s = .next u) (hs : s.still.firm.memOk = true) : u.still.firm = s.still.firm :=
  event_firm h hs (fun s hs => by simp [hs])

theorem execConversionDone_firm (dt : Nat) (k : Fin 4) (vin vref : Nat) (s : State) {u : State}
    (h : execConversionDone dt k vin vref s = .next u) (hs : s.still.firm.memOk = true) : u.still.firm = s.still.firm :=
  event_firm h hs (fun s hs => by simp [hs])

theorem execKnockWindowOpen_firm (dt : Nat) (l : Fin 32) (s : State) {u : State}
    (h : execKnockWindowOpen dt l s = .next u) (hs : s.still.firm.memOk = true) : u.still.firm = s.still.firm :=
  event_firm h hs (fun s hs => by simp [hs])

theorem execKnockTrigger_firm (dt : Nat) (l : Fin 32) (s : State) {u : State}
    (h : execKnockTrigger dt l s = .next u) (hs : s.still.firm.memOk = true) : u.still.firm = s.still.firm :=
  event_firm h hs (fun s hs => by split <;> simp [hs])

theorem execKnockWindowClose_firm (dt : Nat) (l : Fin 32) (s : State) {u : State}
    (h : execKnockWindowClose dt l s = .next u) (hs : s.still.firm.memOk = true) : u.still.firm = s.still.firm :=
  event_firm h hs (fun s hs => by split <;> simp [hs])

theorem execReferenceSettled_still (dt : Nat) (s : State) {u : State}
    (h : execReferenceSettled dt s = .next u) : u.still = s.still :=
  event_still h (fun s => by simp)

theorem execExtRefRange_still (dt : Nat) (within : Bool) (s : State) {u : State}
    (h : execExtRefRange dt within s = .next u) : u.still = s.still :=
  event_still h (fun s => by simp)

theorem execMonitorViolation_still (dt : Nat) (i : Fin 16) (high : Bool) (s : State) {u : State}
    (h : execMonitorViolation dt i high s = .next u) : u.still = s.still :=
  event_still h (fun s => by simp)

theorem execMonitorRecover_still (dt : Nat) (i : Fin 16) (q : BitVec 10) (s : State) {u : State}
    (h : execMonitorRecover dt i q s = .next u) : u.still = s.still :=
  event_still h (fun s => by simp)

theorem execMonitorAutoTest_still (dt : Nat) (i : Fin 16) (s : State) {u : State}
    (h : execMonitorAutoTest dt i s = .next u) : u.still = s.still :=
  event_still h (fun s => by simp)

theorem execMonitorTestStep_still (dt : Nat) (i : Fin 52) (aboveLow aboveHigh : Bool) (s : State) {u : State}
    (h : execMonitorTestStep dt i aboveLow aboveHigh s = .next u) : u.still = s.still :=
  event_still h (fun s => by simp)

theorem execTimerMatch_still (dt : Nat) (t : Fin 32) (s : State) {u : State}
    (h : execTimerMatch dt t s = .next u) : u.still = s.still :=
  event_still h (fun s => by simp)

theorem execTimerCapture_still (dt : Nat) (t : Fin 32) (rising : Bool) (s : State) {u : State}
    (h : execTimerCapture dt t rising s = .next u) : u.still = s.still :=
  event_still h (fun s => by simp)

theorem execPinEngineTick_still (dt : Nat) (n : Fin 8) (pins : BitVec 4) (s : State) {u : State}
    (h : execPinEngineTick dt n pins s = .next u) : u.still = s.still :=
  event_still h (fun s => by simp)

theorem execPositionInputChange_still (dt : Nat) (i : Fin 6) (a b z : Bool) (s : State) {u : State}
    (h : execPositionInputChange dt i a b z s = .next u) : u.still = s.still :=
  event_still h (fun s => by simp)

theorem execPositionIndex_still (dt : Nat) (i : Fin 6) (s : State) {u : State}
    (h : execPositionIndex dt i s = .next u) : u.still = s.still :=
  event_still h (fun s => by simp)

theorem execSentFrame_still (dt : Nat) (i : Fin 6) (pulses : List Nat) (s : State) {u : State}
    (h : execSentFrame dt i pulses s = .next u) : u.still = s.still :=
  event_still h (fun s => by simp)

theorem execSsiFrameStart_still (dt : Nat) (i : Fin 6) (idle : Bool) (s : State) {u : State}
    (h : execSsiFrameStart dt i idle s = .next u) : u.still = s.still :=
  event_still h (fun s => by simp)

theorem execSsiFrameDone_still (dt : Nat) (i : Fin 6) (data : List (Nat × Bool)) (s : State) {u : State}
    (h : execSsiFrameDone dt i data s = .next u) : u.still = s.still :=
  event_still h (fun s => by simp)

theorem execPositionSourceLost_still (dt : Nat) (i : Fin 6) (s : State) {u : State}
    (h : execPositionSourceLost dt i s = .next u) : u.still = s.still :=
  event_still h (fun s => by simp)

theorem execDoorbell_still (dt : Nat) (fn : Fin 256) (x : Word) (s : State) {u : State}
    (h : execDoorbell dt fn x s = .next u) : u.still = s.still :=
  event_still h (fun s => writes_still _ _ _ _ (by simp))

theorem execRequestRead_still (dt : Nat) (c : Fin 256) (ws : Option (List Word)) (s : State) {u : State}
    (h : execRequestRead dt c ws s = .next u) : u.still = s.still :=
  event_still h (fun s => by (repeat' split) <;> simp)

theorem execIndirectFetchDone_still (dt : Nat) (c : Fin 256) (seq : BitVec 16) (ws : Option (List Word)) (s : State) {u : State}
    (h : execIndirectFetchDone dt c seq ws s = .next u) : u.still = s.still :=
  event_still h (fun s => by (repeat' split) <;> simp)

theorem execHeldNoticeWrite_still (dt : Nat) (c : Fin 256) (s : State) {u : State}
    (h : execHeldNoticeWrite dt c s = .next u) : u.still = s.still :=
  event_still h (fun s => by dsimp only; (repeat' split) <;> simp)

theorem execFaultRecord_still (dt : Nat) (s : State) {u : State} (h : execFaultRecord dt s = .next u) : u.still = s.still :=
  event_still h (fun s => by (repeat' split) <;> simp)

theorem execLeaseExpiry_still (dt : Nat) (c : Fin 256) (s : State) {u : State}
    (h : execLeaseExpiry dt c s = .next u) : u.still = s.still :=
  event_still h (fun s => by simp)

theorem execDataLinkDown_still (dt : Nat) (s : State) {u : State} (h : execDataLinkDown dt s = .next u) : u.still = s.still :=
  event_still h (fun s => by simp)

theorem execVfEnableClear_still (dt : Nat) (s : State) {u : State} (h : execVfEnableClear dt s = .next u) : u.still = s.still :=
  event_still h (fun s => by simp)

theorem execLoadWindow_still (dt : Nat) (load : Nat) (s : State) {u : State}
    (h : execLoadWindow dt load s = .next u) : u.still = s.still :=
  event_still h (fun s => by simp)

theorem execShedTimeout_still (dt : Nat) (c : Fin 256) (opcode seq : BitVec 16) (s : State) {u : State}
    (h : execShedTimeout dt c opcode seq s = .next u) : u.still = s.still :=
  event_still h (fun s => by split <;> simp)

theorem execWatchdogExpiry_still (dt : Nat) (k : Fin 4) (running : Option (Fin 256 × BitVec 16 × BitVec 16)) (s : State) {u : State}
    (h : execWatchdogExpiry dt k running s = .next u) : u.still = s.still :=
  event_still h (fun s => by simp)

theorem execCoreRestartDone_still (dt : Nat) (k : Fin 4) (s : State) {u : State}
    (h : execCoreRestartDone dt k s = .next u) : u.still = s.still :=
  event_still h (fun s => by split <;> simp)

theorem execCanFrameReceived_still (dt : Nat) (c : Fin 4) (ext : Bool) (ident : BitVec 29) (fd : Bool) (b : List Byte) (s : State) {u : State}
    (h : execCanFrameReceived dt c ext ident fd b s = .next u) : u.still = s.still :=
  event_still h (fun s => by (repeat' split) <;> simp)

theorem execCanTpTimeout_still (dt : Nat) (k : Fin 16) (s : State) {u : State}
    (h : execCanTpTimeout dt k s = .next u) : u.still = s.still :=
  event_still h (fun s => by dsimp only; (repeat' split) <;> simp)

theorem execCanBusOff_still (dt : Nat) (c : Fin 4) (s : State) {u : State}
    (h : execCanBusOff dt c s = .next u) : u.still = s.still :=
  event_still h (fun s => by simp)

theorem execCanRejoin_still (dt : Nat) (c : Fin 4) (s : State) {u : State}
    (h : execCanRejoin dt c s = .next u) : u.still = s.still :=
  event_still h (fun s => by simp)

theorem execDmaBurstDone_still (dt : Nat) (write good : Bool) (s : State) {u : State}
    (h : execDmaBurstDone dt write good s = .next u) : u.still = s.still :=
  event_still h (fun s => by (repeat' split) <;> simp)

theorem execDmaRetry_still (dt : Nat) (ch : Fin 12) (s : State) {u : State}
    (h : execDmaRetry dt ch s = .next u) : u.still = s.still :=
  event_still h (fun s => by (repeat' split) <;> simp)

theorem execIntcRequest_still (dt : Nat) (i : Fin 511) (up : Bool) (s : State) {u : State}
    (h : execIntcRequest dt i up s = .next u) : u.still = s.still :=
  event_still h (fun s => by simp)

theorem execIntcAccept_still (dt : Nat) (k : Fin 4) (s : State) {u : State}
    (h : execIntcAccept dt k s = .next u) : u.still = s.still :=
  event_still h (fun s => by (repeat' split) <;> simp)

theorem execIntcGroupOpen_still (dt : Nat) (g : Fin 32) (s : State) {u : State}
    (h : execIntcGroupOpen dt g s = .next u) : u.still = s.still :=
  event_still h (fun s => by dsimp only; split <;> simp)

theorem execMsixCoalRelease_still (dt : Nat) (c : Fin 256) (v : Fin 8) (s : State) {u : State}
    (h : execMsixCoalRelease dt c v s = .next u) : u.still = s.still :=
  event_still h (fun s => by dsimp only; split <;> simp)

theorem execMsixUnmask_still (dt : Nat) (c : Fin 256) (v : Fin 8) (s : State) {u : State}
    (h : execMsixUnmask dt c v s = .next u) : u.still = s.still :=
  event_still h (fun s => by simp)

theorem execResetRelease_still (slot : Fin 16) (s : State) {u : State}
    (h : execResetRelease slot s = .next u) : u.still = s.still := by
  unfold execResetRelease at h; cases h
  (repeat' split) <;> simp

theorem execSwapQuiesceEnd_still (dt : Nat) (s : State) {u : State}
    (h : execSwapQuiesceEnd dt s = .next u) : u.still = s.still :=
  event_still h (fun s => by split <;> simp)

theorem execSwapTimeout_still (dt : Nat) (s : State) {u : State} (h : execSwapTimeout dt s = .next u) : u.still = s.still :=
  event_still h (fun s => by split <;> simp)

theorem execStandbyBoostsOff_still (dt : Nat) (s : State) {u : State}
    (h : execStandbyBoostsOff dt s = .next u) : u.still = s.still :=
  event_still h (fun s => by simp)

theorem execEntryWindowOpen_still (dt : Nat) (s : State) {u : State}
    (h : execEntryWindowOpen dt s = .next u) : u.still = s.still :=
  event_still h (fun s => by split <;> simp)

theorem execDomainSwitchOpen_still (dt : Nat) (d : Fin 143) (s : State) {u : State}
    (h : execDomainSwitchOpen dt d s = .next u) : u.still = s.still :=
  event_still h (fun s => by split <;> simp)

theorem execDomainRailGood_still (dt : Nat) (d : Fin 143) (s : State) {u : State}
    (h : execDomainRailGood dt d s = .next u) : u.still = s.still :=
  event_still h (fun s => by split <;> simp)

theorem execRtcSecond_still (dt : Nat) (s : State) {u : State} (h : execRtcSecond dt s = .next u) : u.still = s.still :=
  islandEvent_still h (fun s => by simp)

theorem execRtcApply_still (dt : Nat) (s : State) {u : State} (h : execRtcApply dt s = .next u) : u.still = s.still :=
  islandEvent_still h (fun s => by simp)

theorem execIslandBrownOut_still (dt : Nat) (s : State) {u : State}
    (h : execIslandBrownOut dt s = .next u) : u.still = s.still :=
  islandEvent_still h (fun s => by simp)

theorem execFieldBookWrite_still (dt : Nat) (ok : Bool) (s : State) {u : State}
    (h : execFieldBookWrite dt ok s = .next u) : u.still = s.still :=
  event_still h (fun s => by (repeat' split) <;> simp)

theorem execFieldBookScanDone_still (dt : Nat) (s : State) {u : State}
    (h : execFieldBookScanDone dt s = .next u) : u.still = s.still :=
  event_still h (fun s => by dsimp only; (repeat' split) <;> simp)

theorem execSeatedOpen_still (dt : Nat) (s : State) {u : State} (h : execSeatedOpen dt s = .next u) : u.still = s.still :=
  event_still h (fun s => by simp)

theorem execLeaveOpen_still (dt : Nat) (s : State) {u : State} (h : execLeaveOpen dt s = .next u) : u.still = s.still :=
  event_still h (fun s => by simp)

theorem execLeaveClosed_still (dt : Nat) (s : State) {u : State} (h : execLeaveClosed dt s = .next u) : u.still = s.still :=
  event_still h (fun s => by simp)

theorem execReadClearRead_still (dt : Nat) (fn : Fin 256) (glob : Bool) (reg : BitVec 14) (be : BitVec 4) (s : State) {u : State}
    (h : execReadClearRead dt fn glob reg be s = .next u) : u.still = s.still :=
  event_still h (fun s => by simp)

theorem execWhlInCfgWrite_still (dt : Nat) (i : Fin 4) (x : Word) (s : State) {u : State}
    (h : execWhlInCfgWrite dt i x s = .next u) : u.still = s.still :=
  event_still h (fun s => writes_still _ _ _ _ (by simp))

theorem execWhlDirCfgWrite_still (dt : Nat) (x : Word) (s : State) {u : State}
    (h : execWhlDirCfgWrite dt x s = .next u) : u.still = s.still :=
  event_still h (fun s => writes_still _ _ _ _ (by simp))

theorem execAngBandWrite_still (dt : Nat) (k : Fin 4) (x : Word) (s : State) {u : State}
    (h : execAngBandWrite dt k x s = .next u) : u.still = s.still :=
  event_still h (fun s => writes_still _ _ _ _ (by simp))

theorem execSeqQuotaWrite_still (dt : Nat) (n : Fin 256) (x : Word) (s : State) {u : State}
    (h : execSeqQuotaWrite dt n x s = .next u) : u.still = s.still :=
  event_still h (fun s => writes_still _ _ _ _ (by simp))

theorem execPlsOwnerWrite_still (dt : Nat) (p : Fin 4) (x : Word) (s : State) {u : State}
    (h : execPlsOwnerWrite dt p x s = .next u) : u.still = s.still :=
  event_still h (fun s => writes_still _ _ _ _ (by simp))

theorem execDrvPairWrite_still (dt : Nat) (x : Word) (s : State) {u : State}
    (h : execDrvPairWrite dt x s = .next u) : u.still = s.still :=
  event_still h (fun s => writes_still _ _ _ _ (by simp))

theorem execDrvChCfgWrite_still (dt : Nat) (c : Fin 36) (x : Word) (s : State) {u : State}
    (h : execDrvChCfgWrite dt c x s = .next u) : u.still = s.still :=
  event_still h (fun s => writes_still _ _ _ _ (by simp))

theorem execBstCfgWrite_still (dt : Nat) (b : Fin 2) (cap : Bool) (x : Word) (s : State) {u : State}
    (h : execBstCfgWrite dt b cap x s = .next u) : u.still = s.still :=
  event_still h (fun s => writes_still _ _ _ _ (by simp))

theorem execPrtLatchWrite_still (dt : Nat) (c : Fin 36) (x : Word) (s : State) {u : State}
    (h : execPrtLatchWrite dt c x s = .next u) : u.still = s.still :=
  event_still h (fun s => writes_still _ _ _ _ (by simp))

theorem execAuxLatchWrite_still (dt : Nat) (n : Fin 16) (x : Word) (s : State) {u : State}
    (h : execAuxLatchWrite dt n x s = .next u) : u.still = s.still :=
  event_still h (fun s => writes_still _ _ _ _ (by simp))

theorem execPairCfgWrite_still (dt : Nat) (x : Word) (s : State) {u : State}
    (h : execPairCfgWrite dt x s = .next u) : u.still = s.still :=
  event_still h (fun s => writes_still _ _ _ _ (by simp))

theorem execAcqRefWrite_still (dt : Nat) (x : Word) (s : State) {u : State}
    (h : execAcqRefWrite dt x s = .next u) : u.still = s.still :=
  event_still h (fun s => writes_still _ _ _ _ (by simp))

theorem execAcqUrgGoWrite_still (dt : Nat) (k : Fin 4) (x : Word) (s : State) {u : State}
    (h : execAcqUrgGoWrite dt k x s = .next u) : u.still = s.still :=
  event_still h (fun s => writes_still _ _ _ _ (by simp))

theorem execTmrStartWrite_still (dt : Nat) (x : Word) (s : State) {u : State}
    (h : execTmrStartWrite dt x s = .next u) : u.still = s.still :=
  event_still h (fun s => writes_still _ _ _ _ (by simp))

theorem execTmrStopWrite_still (dt : Nat) (x : Word) (s : State) {u : State}
    (h : execTmrStopWrite dt x s = .next u) : u.still = s.still :=
  event_still h (fun s => writes_still _ _ _ _ (by simp))

theorem execPeRunWrite_still (dt : Nat) (n : Fin 8) (x : Word) (s : State) {u : State}
    (h : execPeRunWrite dt n x s = .next u) : u.still = s.still :=
  event_still h (fun s => writes_still _ _ _ _ (by simp))

theorem execPeTxWrite_still (dt : Nat) (n : Fin 8) (x : Word) (s : State) {u : State}
    (h : execPeTxWrite dt n x s = .next u) : u.still = s.still :=
  event_still h (fun s => writes_still _ _ _ _ (by simp))

theorem execPeRxRead_still (dt : Nat) (n : Fin 8) (s : State) {u : State}
    (h : execPeRxRead dt n s = .next u) : u.still = s.still :=
  event_still h (fun s => by simp)

theorem execPosCountWrite_still (dt : Nat) (i : Fin 6) (x : Word) (s : State) {u : State}
    (h : execPosCountWrite dt i x s = .next u) : u.still = s.still :=
  event_still h (fun s => writes_still _ _ _ _ (by simp))

theorem execCliReqResumeWrite_still (dt : Nat) (fn : Fin 256) (x : Word) (s : State) {u : State}
    (h : execCliReqResumeWrite dt fn x s = .next u) : u.still = s.still :=
  event_still h (fun s => writes_still _ _ _ _ (by simp))

theorem execCliRspHeadWrite_still (dt : Nat) (fn : Fin 256) (x : Word) (s : State) {u : State}
    (h : execCliRspHeadWrite dt fn x s = .next u) : u.still = s.still :=
  event_still h (fun s => writes_still _ _ _ _ (by simp))

theorem execCliFltHeadWrite_still (dt : Nat) (fn : Fin 256) (x : Word) (s : State) {u : State}
    (h : execCliFltHeadWrite dt fn x s = .next u) : u.still = s.still :=
  event_still h (fun s => writes_still _ _ _ _ (by simp))

theorem execCliRingCfgWrite_still (dt : Nat) (fn : Fin 256) (x : Word) (s : State) {u : State}
    (h : execCliRingCfgWrite dt fn x s = .next u) : u.still = s.still :=
  event_still h (fun s => writes_still _ _ _ _ (by simp))

theorem execCliKeepaliveWrite_still (dt : Nat) (fn : Fin 256) (x : Word) (s : State) {u : State}
    (h : execCliKeepaliveWrite dt fn x s = .next u) : u.still = s.still :=
  event_still h (fun s => writes_still _ _ _ _ (by simp))

theorem execCliPwrVoteWrite_still (dt : Nat) (fn : Fin 256) (x : Word) (s : State) {u : State}
    (h : execCliPwrVoteWrite dt fn x s = .next u) : u.still = s.still :=
  event_still h (fun s => writes_still _ _ _ _ (by simp))

theorem execHlClientWrite_still (dt : Nat) (n : Fin 256) (x : Word) (s : State) {u : State}
    (h : execHlClientWrite dt n x s = .next u) : u.still = s.still :=
  event_still h (fun s => writes_still _ _ _ _ (by simp))

theorem execHlOwnWrite_still (dt : Nat) (o : Fin 52) (x : Word) (s : State) {u : State}
    (h : execHlOwnWrite dt o x s = .next u) : u.still = s.still :=
  event_still h (fun s => writes_still _ _ _ _ (by simp))

theorem execCanBindWrite_still (dt : Nat) (k : Fin 16) (hi : Bool) (x : Word) (s : State) {u : State}
    (h : execCanBindWrite dt k hi x s = .next u) : u.still = s.still :=
  event_still h (fun s => writes_still _ _ _ _ (by simp))

theorem execCanRestartWrite_still (dt : Nat) (c : Fin 4) (s : State) {u : State}
    (h : execCanRestartWrite dt c s = .next u) : u.still = s.still :=
  event_still h (fun s => writes_still _ _ _ _ (by simp))

theorem execDmaStartWrite_still (dt : Nat) (fn : Fin 256) (ch : Fin 12) (x : Word) (s : State) {u : State}
    (h : execDmaStartWrite dt fn ch x s = .next u) : u.still = s.still :=
  event_still h (fun s => writes_still _ _ _ _ (by simp))

theorem execDmaAbortWrite_still (dt : Nat) (fn : Fin 256) (ch : Fin 12) (x : Word) (s : State) {u : State}
    (h : execDmaAbortWrite dt fn ch x s = .next u) : u.still = s.still :=
  event_still h (fun s => writes_still _ _ _ _ (by simp))

theorem execDmaGrantWrite_still (dt : Nat) (ch : Fin 12) (x : Word) (s : State) {u : State}
    (h : execDmaGrantWrite dt ch x s = .next u) : u.still = s.still :=
  event_still h (fun s => writes_still _ _ _ _ (by simp))

theorem execIntcClaimRead_still (dt : Nat) (k : Fin 4) (s : State) {u : State}
    (h : execIntcClaimRead dt k s = .next u) : u.still = s.still :=
  event_still h (fun s => by dsimp only; split <;> simp)

theorem execIntcCompleteWrite_still (dt : Nat) (k : Fin 4) (i : BitVec 9) (s : State) {u : State}
    (h : execIntcCompleteWrite dt k i s = .next u) : u.still = s.still :=
  event_still h (fun s => by simp)

theorem execIntcHoldSetWrite_still (dt : Nat) (x : BitVec 5) (s : State) {u : State}
    (h : execIntcHoldSetWrite dt x s = .next u) : u.still = s.still :=
  event_still h (fun s => by simp)

theorem execIntcHoldClrWrite_still (dt : Nat) (x : BitVec 5) (s : State) {u : State}
    (h : execIntcHoldClrWrite dt x s = .next u) : u.still = s.still :=
  event_still h (fun s => by simp)

theorem execIntcEnSetWrite_still (dt : Nat) (i : BitVec 9) (s : State) {u : State}
    (h : execIntcEnSetWrite dt i s = .next u) : u.still = s.still :=
  event_still h (fun s => by simp)

theorem execIntcEnClrWrite_still (dt : Nat) (i : BitVec 9) (s : State) {u : State}
    (h : execIntcEnClrWrite dt i s = .next u) : u.still = s.still :=
  event_still h (fun s => by simp)

theorem execPwrCtrlGoWrite_still (dt : Nat) (x : Word) (s : State) {u : State}
    (h : execPwrCtrlGoWrite dt x s = .next u) : u.still = s.still :=
  event_still h (fun s => writes_still _ _ _ _ (by simp))

theorem execRtcTimeRead_still (dt : Nat) (s : State) {u : State} (h : execRtcTimeRead dt s = .next u) : u.still = s.still :=
  event_still h (fun s => by simp)

theorem execRtcTimeWrite_still (dt : Nat) (x : Word) (s : State) {u : State}
    (h : execRtcTimeWrite dt x s = .next u) : u.still = s.still :=
  event_still h (fun s => writes_still _ _ _ _ (by simp))

theorem execRtcDateWrite_still (dt : Nat) (x : Word) (s : State) {u : State}
    (h : execRtcDateWrite dt x s = .next u) : u.still = s.still :=
  event_still h (fun s => writes_still _ _ _ _ (by simp))

theorem execHello_still (m : Msg) (s : State) {u : State} (h : execHello m s = .next u) : u.still = s.still :=
  command_still h (fun s => by dsimp only; (repeat' split) <;> simp)

theorem execGoodbye_still (m : Msg) (s : State) {u : State} (h : execGoodbye m s = .next u) : u.still = s.still :=
  command_still h (fun s => by simp)

theorem execEcho_still (m : Msg) (s : State) {u : State} (h : execEcho m s = .next u) : u.still = s.still :=
  command_still h (fun s => by simp)

theorem execLoadWheel_firm (m : Msg) (sound : Bool) (s : State) {u : State}
    (h : execLoadWheel m sound s = .next u) (hs : s.still.firm.memOk = true) : u.still.firm = s.still.firm :=
  command_firm h hs (fun s hs => by simp [hs])

theorem execResync_firm (m : Msg) (s : State) {u : State}
    (h : execResync m s = .next u) (hs : s.still.firm.memOk = true) : u.still.firm = s.still.firm :=
  command_firm h hs (fun s hs => by simp [hs])

theorem execLoadStations_still (m : Msg) (sound : Bool) (s : State) {u : State}
    (h : execLoadStations m sound s = .next u) : u.still = s.still :=
  command_still h (fun s => by simp)

theorem execLearnClosure_still (m : Msg) (s : State) {u : State} (h : execLearnClosure m s = .next u) : u.still = s.still :=
  command_still h (fun s => by simp)

theorem execClosureMapGet_still (m : Msg) (s : State) {u : State} (h : execClosureMapGet m s = .next u) : u.still = s.still :=
  command_still h (fun s => by simp)

theorem execClosureMapPut_still (m : Msg) (s : State) {u : State} (h : execClosureMapPut m s = .next u) : u.still = s.still :=
  command_still h (fun s => by simp)

theorem execFiringTableClear_still (m : Msg) (s : State) {u : State}
    (h : execFiringTableClear m s = .next u) : u.still = s.still :=
  command_still h (fun s => by simp)

theorem execLoadPulseImage_still (m : Msg) (s : State) {u : State} (h : execLoadPulseImage m s = .next u) : u.still = s.still :=
  command_still h (fun s => by simp)

theorem execPulseSwitch_still (m : Msg) (s : State) {u : State} (h : execPulseSwitch m s = .next u) : u.still = s.still :=
  command_still h (fun s => onOwnPair_still _ _ _ _ _ _ (by simp))

theorem execPulseStart_still (m : Msg) (s : State) {u : State} (h : execPulseStart m s = .next u) : u.still = s.still :=
  command_still h (fun s => onOwnPair_still _ _ _ _ _ _ (by simp))

theorem execPulseStop_still (m : Msg) (s : State) {u : State} (h : execPulseStop m s = .next u) : u.still = s.still :=
  command_still h (fun s => onOwnPair_still _ _ _ _ _ _ (by simp))

theorem execPulseParamPut_still (m : Msg) (s : State) {u : State} (h : execPulseParamPut m s = .next u) : u.still = s.still := by
  refine command_still h (fun s => ?_)
  split
  · simp
  · refine onOwnPair_still _ _ _ _ _ _ (fun _ _ => ?_)
    split <;> simp

theorem execPulseParamGet_still (m : Msg) (s : State) {u : State} (h : execPulseParamGet m s = .next u) : u.still = s.still :=
  command_still h (fun s => by simp)

theorem execPulseQueuePut_still (m : Msg) (s : State) {u : State} (h : execPulseQueuePut m s = .next u) : u.still = s.still := by
  refine command_still h (fun s => ?_)
  split
  · simp
  · refine onOwnPair_still _ _ _ _ _ _ (fun _ _ => ?_)
    dsimp only; split <;> simp

theorem execPulseQueueGet_still (m : Msg) (s : State) {u : State} (h : execPulseQueueGet m s = .next u) : u.still = s.still :=
  command_still h (fun s => by simp)

theorem execProfilePut_still (m : Msg) (s : State) {u : State} (h : execProfilePut m s = .next u) : u.still = s.still :=
  command_still h (fun s => by simp)

theorem execProfileGet_still (m : Msg) (s : State) {u : State} (h : execProfileGet m s = .next u) : u.still = s.still :=
  command_still h (fun s => by simp)

theorem execChannelConfig_still (m : Msg) (s : State) {u : State} (h : execChannelConfig m s = .next u) : u.still = s.still :=
  command_still h (fun s => by simp)

theorem execSenseCal_still (m : Msg) (s : State) {u : State} (h : execSenseCal m s = .next u) : u.still = s.still :=
  command_still h (fun s => by simp)

theorem execBoostConfig_still (m : Msg) (s : State) {u : State} (h : execBoostConfig m s = .next u) : u.still = s.still :=
  command_still h (fun s => by simp)

theorem execProtectConfig_still (m : Msg) (s : State) {u : State} (h : execProtectConfig m s = .next u) : u.still = s.still :=
  command_still h (fun s => by simp)

theorem execProtectClear_still (m : Msg) (s : State) {u : State} (h : execProtectClear m s = .next u) : u.still = s.still :=
  command_still h (fun s => by simp)

theorem execBoostStatus_still (m : Msg) (s : State) {u : State} (h : execBoostStatus m s = .next u) : u.still = s.still :=
  command_still h (fun s => by simp)

theorem execClosingConfig_still (m : Msg) (s : State) {u : State} (h : execClosingConfig m s = .next u) : u.still = s.still :=
  command_still h (fun s => by simp)

theorem execTrimReset_still (m : Msg) (s : State) {u : State} (h : execTrimReset m s = .next u) : u.still = s.still :=
  command_still h (fun s => by simp)

theorem execClosingStatus_still (m : Msg) (s : State) {u : State} (h : execClosingStatus m s = .next u) : u.still = s.still :=
  command_still h (fun s => by simp)

theorem execAuxConfig_still (m : Msg) (s : State) {u : State} (h : execAuxConfig m s = .next u) : u.still = s.still :=
  command_still h (fun s => by simp)

theorem execAuxClear_still (m : Msg) (s : State) {u : State} (h : execAuxClear m s = .next u) : u.still = s.still :=
  command_still h (fun s => by simp)

theorem execAuxQuery_still (m : Msg) (s : State) {u : State} (h : execAuxQuery m s = .next u) : u.still = s.still :=
  command_still h (fun s => by simp)

theorem execPairConfig_still (m : Msg) (s : State) {u : State} (h : execPairConfig m s = .next u) : u.still = s.still :=
  command_still h (fun s => by simp)

theorem execPairStatus_still (m : Msg) (s : State) {u : State} (h : execPairStatus m s = .next u) : u.still = s.still :=
  command_still h (fun s => by simp)

theorem execPairHandover_still (m : Msg) (s : State) {u : State} (h : execPairHandover m s = .next u) : u.still = s.still :=
  command_still h (fun s => by simp)

theorem execAcqListPut_still (m : Msg) (s : State) {u : State} (h : execAcqListPut m s = .next u) : u.still = s.still :=
  command_still h (fun s => by simp)

theorem execAcqListCtrl_still (m : Msg) (s : State) {u : State} (h : execAcqListCtrl m s = .next u) : u.still = s.still :=
  command_still h (fun s => by simp)

theorem execAcqUrgent_still (m : Msg) (s : State) {u : State} (h : execAcqUrgent m s = .next u) : u.still = s.still :=
  command_still h (fun s => by simp)

theorem execAcqRefSet_still (m : Msg) (s : State) {u : State} (h : execAcqRefSet m s = .next u) : u.still = s.still :=
  command_still h (fun s => by simp)

theorem execMonConfig_still (m : Msg) (s : State) {u : State} (h : execMonConfig m s = .next u) : u.still = s.still :=
  command_still h (fun s => by simp)

theorem execMonSelftest_still (m : Msg) (s : State) {u : State} (h : execMonSelftest m s = .next u) : u.still = s.still :=
  command_still h (fun s => by simp)

theorem execAcqStatus_still (m : Msg) (s : State) {u : State} (h : execAcqStatus m s = .next u) : u.still = s.still :=
  command_still h (fun s => by simp)

theorem execArmEvent_still (m : Msg) (sound : Bool) (s : State) {u : State}
    (h : execArmEvent m sound s = .next u) : u.still = s.still :=
  command_still h (fun s => by simp)

theorem execCancelEvent_still (m : Msg) (sound : Bool) (s : State) {u : State}
    (h : execCancelEvent m sound s = .next u) : u.still = s.still :=
  command_still h (fun s => onOwnDesc_still _ _ _ _ _ (by simp))

theorem execUpdateEvent_still (m : Msg) (sound : Bool) (s : State) {u : State}
    (h : execUpdateEvent m sound s = .next u) : u.still = s.still :=
  command_still h (fun s => onOwnDesc_still _ _ _ _ _ (fun _ _ _ => by (repeat' split) <;> simp))

theorem execBankSwitch_still (m : Msg) (sound : Bool) (s : State) {u : State}
    (h : execBankSwitch m sound s = .next u) : u.still = s.still :=
  command_still h (fun s => by split <;> simp)

theorem execBankClear_still (m : Msg) (sound : Bool) (s : State) {u : State}
    (h : execBankClear m sound s = .next u) : u.still = s.still :=
  command_still h (fun s => by split <;> simp)

theorem execSafetyCut_still (m : Msg) (sound : Bool) (s : State) {u : State}
    (h : execSafetyCut m sound s = .next u) : u.still = s.still :=
  command_still h (fun s => by simp)

theorem execSafetyRelease_still (m : Msg) (sound : Bool) (s : State) {u : State}
    (h : execSafetyRelease m sound s = .next u) : u.still = s.still :=
  command_still h (fun s => by split <;> simp)

theorem execEventQuery_still (m : Msg) (sound : Bool) (s : State) {u : State}
    (h : execEventQuery m sound s = .next u) : u.still = s.still := by
  refine command_still h (fun s => ?_)
  (repeat' split) <;> first | exact respond_still _ _ _ _ _ _ | exact refuse_still _ _ _ _

theorem execFieldBookRead_still (m : Msg) (s : State) {u : State} (h : execFieldBookRead m s = .next u) : u.still = s.still :=
  command_still h (fun s => by split <;> simp)

theorem execFaultClear_still (stuck : BitVec 52) (m : Msg) (s : State) {u : State}
    (h : execFaultClear stuck m s = .next u) : u.still = s.still :=
  command_still h (fun s => by simp)

theorem execPowerRequest_still (m : Msg) (s : State) {u : State} (h : execPowerRequest m s = .next u) : u.still = s.still :=
  command_still h (fun s => by simp)

theorem execPowerStatus_still (m : Msg) (s : State) {u : State} (h : execPowerStatus m s = .next u) : u.still = s.still :=
  command_still h (fun s => by simp)

theorem execPowerVote_still (m : Msg) (s : State) {u : State} (h : execPowerVote m s = .next u) : u.still = s.still :=
  command_still h (fun s => by simp)

theorem execRtcSet_still (m : Msg) (s : State) {u : State} (h : execRtcSet m s = .next u) : u.still = s.still :=
  command_still h (fun s => by split <;> simp)

theorem execRtcGet_still (m : Msg) (s : State) {u : State} (h : execRtcGet m s = .next u) : u.still = s.still :=
  command_still h (fun s => by simp)

theorem execFwSwap_still (m : Msg) (s : State) {u : State} (h : execFwSwap m s = .next u) : u.still = s.still :=
  command_still h (fun s => by simp)

theorem execFwCommit_still (m : Msg) (s : State) {u : State} (h : execFwCommit m s = .next u) : u.still = s.still :=
  command_still h (fun s => by simp)

theorem execFwStatus_still (m : Msg) (s : State) {u : State} (h : execFwStatus m s = .next u) : u.still = s.still :=
  command_still h (fun s => by simp)

theorem execStartupPut_still (m : Msg) (s : State) {u : State} (h : execStartupPut m s = .next u) : u.still = s.still :=
  command_still h (fun s => by split <;> simp)

theorem execCanFrameSent_still (dt : Nat) (k : Fin 16) (s : State) {u : State}
    (h : execCanFrameSent dt k s = .next u) : u.still = s.still :=
  event_still h (fun s => by (repeat' split) <;> simp)

theorem execResignLineRise_still (dt : Nat) (s : State) {u : State}
    (h : execResignLineRise dt s = .next u) : u.still = s.still :=
  event_still h (fun s => by simp)

theorem execBenchmarkLineRelease_still (dt : Nat) (s : State) {u : State}
    (h : execBenchmarkLineRelease dt s = .next u) : u.still = s.still :=
  event_still h (fun s => by split <;> simp)

theorem execIslandSourceChange_still (dt : Nat) (vcell : Bool) (s : State) {u : State}
    (h : execIslandSourceChange dt vcell s = .next u) : u.still = s.still :=
  islandEvent_still h (fun s => by simp)

theorem execMonitorThresholdCrossing_still (dt : Nat) (i : Fin 16) (q : BitVec 10) (s : State) {u : State}
    (h : execMonitorThresholdCrossing dt i q s = .next u) : u.still = s.still :=
  event_still h (fun s => by simp)

theorem execPcieConfigReady_still (dt : Nat) (vf : Bool) (fns : List (Fin 256 × PcieFn)) (s : State) {u : State}
    (h : execPcieConfigReady dt vf fns s = .next u) : u.still = s.still :=
  event_still h (fun s => by simp)

end Sys2Proof.Machine
end

