-- ==== Sys2Proof/Laws/Keeps.lean ====
section
/-! SUPPORT. The commands that do change a part of `Still`: each keeps a sound memory and sound slots sound, never lowers the
anti-rollback counter and leaves the queue. -/
namespace Sys2Proof.Machine

/-- What every command keeps of two kept parts: a sound memory and sound slots stay sound, the counter never falls, and the
queue is left alone. -/
structure Keeps (a b : Still) : Prop where
  sound : a.firm.memOk = true → slotsOk a.slots = true → b.firm.memOk = true ∧ slotsOk b.slots = true
  counter : a.counter ≤ b.counter
  pending : b.pending = a.pending

theorem Keeps.of_eq {a b : Still} (h : b = a) : Keeps a b := by subst h; exact ⟨fun x y => ⟨x, y⟩, Nat.le_refl _, rfl⟩

theorem Keeps.of_firm {a b : Still} (h : b.firm = a.firm) : Keeps a b := by
  simp only [Still.firm, Firm.mk.injEq] at h
  obtain ⟨h1, h2, h4, h3, -⟩ := h
  refine ⟨fun x y => ⟨h1.trans x, ?_⟩, Nat.le_of_eq h3.symm, h4⟩
  rw [h2]; exact y

theorem Keeps.trans {a b c : Still} (h : Keeps a b) (k : Keeps b c) : Keeps a c :=
  ⟨fun x y => k.sound (h.sound x y).1 (h.sound x y).2, Nat.le_trans h.counter k.counter,
    k.pending.trans h.pending⟩

theorem Keeps.drop (a : Still) : Keeps a { a with slots := [] } := ⟨fun x _ => ⟨x, rfl⟩, Nat.le_refl _, rfl⟩

theorem event_keeps {dt : Nat} {f : State → State} {s t : State} (h : event dt f s = .next t)
    (hf : ∀ s : State, Keeps s.still (f s).still) : Keeps s.still t.still := by
  rcases event_cases dt f s with e | e <;> rw [e] at h <;> cases h
  · exact .of_eq rfl
  · have := hf (passTime dt s)
    rwa [passTime_still] at this

theorem fullReset_keeps (c : Nat) (s : State) : Keeps s.still (fullReset c s).still := by
  rw [fullReset_still]; exact ⟨fun _ _ => ⟨rfl, rfl⟩, Nat.le_refl _, rfl⟩

theorem dropAll_keeps (s : State) : Keeps s.still (dropAll s).still := by
  rw [dropAll, dmaDrop_still, clearSlots_still, endPcieSessions_still]; exact Keeps.drop _

theorem execPerst_keeps (dt : Nat) (b : Bool) (s u : State) (h : execPerst dt b s = .next u) : Keeps s.still u.still := by
  refine event_keeps h (fun s => ?_)
  unfold perst; dsimp only
  split
  · rw [dropFns_still, resetClients_still, unconfigure_still]
    exact (Keeps.of_eq (by rw [resetsAll_still]; rfl)).trans (dropAll_keeps _)
  · exact .of_eq rfl

theorem execHotReset_keeps (dt : Nat) (s u : State) (h : execHotReset dt s = .next u) : Keeps s.still u.still := by
  refine event_keeps h (fun s => ?_)
  rw [dropFns_still, resetClients_still, resetsAll_still]
  exact dropAll_keeps _

theorem functionReset_keeps (fn : Nat) (s : State) : Keeps s.still (functionReset fn s).still := by
  unfold functionReset; dsimp only
  rw [resetsFn_still, resetFields_still, resetClient_still, dmaDrop_still, forgetFn_still]
  split
  · rw [dropFns_still, clearSlots_still, endPcieSessions_still]; exact Keeps.drop _
  · split
    · exact .of_eq (endSession_still _ _ _)
    · exact .of_eq rfl

theorem execFunctionLevelReset_keeps (dt : Nat) (fn : Fin 256) (s u : State) (h : execFunctionLevelReset dt fn s = .next u) :
    Keeps s.still u.still :=
  event_keeps h (fun _ => functionReset_keeps _ _)

theorem execSupplyFault_keeps (dt : Nat) (b : Bool) (s u : State) (h : execSupplyFault dt b s = .next u) :
    Keeps s.still u.still := by
  cases h
  split
  · refine (Keeps.of_eq (passTime_still dt s)).trans (fullReset_keeps _ _)
  · split
    · exact fullReset_keeps _ _
    · split
      · exact fullReset_keeps _ _
      · exact .of_eq rfl

theorem execFirmwareReady_keeps (dt : Nat) (s u : State) (h : execFirmwareReady dt s = .next u) : Keeps s.still u.still := by
  refine event_keeps h (fun s => ?_)
  split
  · exact .of_eq rfl
  · split
    · exact .of_eq rfl
    · rw [tieStart_still, readyFaults_still, bootReady_still, runImage_still]
      exact ⟨fun x y => ⟨x, y⟩, Nat.le_refl _, rfl⟩

theorem execSwapImageReady_keeps (dt : Nat) (s u : State) (h : execSwapImageReady dt s = .next u) : Keeps s.still u.still := by
  refine event_keeps h (fun s => ?_)
  split
  · exact .of_eq rfl
  · split
    · exact .of_eq rfl
    · rw [ok_still, readyFaults_still, swapOver_still, runImage_still]
      exact ⟨fun x y => ⟨x, y⟩, Nat.le_refl _, rfl⟩

theorem wakeUp_keeps (k t : Nat) (s : State) : Keeps s.still (wakeUp k t s).still := by
  unfold wakeUp; dsimp only
  split
  · exact (Keeps.of_eq (wakeCause_still k s)).trans (fullReset_keeps _ _)
  · exact .of_eq (by simp)

theorem execEntryWindowEnd_keeps (b : Bool) (s u : State) (h : execEntryWindowEnd b s = .next u) : Keeps s.still u.still := by
  cases h; unfold windowEnd
  split
  · dsimp only
    split
    · refine Keeps.trans (.of_eq ?_) (wakeUp_keeps _ _ _)
      simp only [count_still, wrB_still, wr_still, setPhase_still, pmbusRequest_still, domainsAll_still]
    · refine .of_eq ?_
      simp only [wrB_still, wr_still, setPhase_still, pmbusRequest_still, domainsAll_still]
  · exact .of_eq rfl

theorem wakeEvent_keeps (k : Nat) (s : State) : Keeps s.still (wakeEvent k s).still := by
  unfold wakeEvent; split
  · exact .of_eq rfl
  · split
    · exact .of_eq rfl
    · exact .of_eq ((onPower_still _ _).trans (wakeCause_still _ _))
    · exact .of_eq ((cancelEntry_still _).trans (wakeCause_still _ _))
    · split
      · exact .of_eq rfl
      · exact .of_eq (count_still _ _ _)
    · exact wakeUp_keeps _ _ _
    · exact wakeUp_keeps _ _ _
    · exact .of_eq rfl

theorem execWakeEvent_keeps (dt : Nat) (k : Fin 5) (s u : State) (h : execWakeEvent dt k s = .next u) :
    Keeps s.still u.still := by
  have e : ∀ s : State, Keeps s.still (if (k : Nat) = 0 then s else wakeEvent k s).still := fun s => by
    split
    · exact .of_eq rfl
    · exact wakeEvent_keeps _ _
  unfold execWakeEvent at h
  by_cases a : awake s = true
  · rw [islandEvent_awake a] at h; cases h
    have := e (passTime dt s); rwa [passTime_still] at this
  · rw [islandEvent_asleep (by simpa using a)] at h; cases h
    exact e s

theorem standbyExit_keeps (g : Bool) (s : State) : Keeps s.still (standbyExit g s).still := by
  have h := standbyExit_firm g s
  simp only [Still.firm, Firm.mk.injEq] at h
  obtain ⟨h1, h2, h4, h3, -⟩ := h
  refine ⟨fun _ _ => ⟨h1, ?_⟩, Nat.le_of_eq h3.symm, h4⟩
  rw [h2]; rfl

theorem execPmbusAck_keeps (g : Bool) (s u : State) (h : execPmbusAck g s = .next u) : Keeps s.still u.still := by
  cases h; (repeat' split) <;> first
    | exact .of_eq (by simp)
    | exact standbyExit_keeps _ _

theorem execPmbusTimeout_keeps (s u : State) (h : execPmbusTimeout s = .next u) : Keeps s.still u.still := by
  cases h; unfold pmbusLate; (repeat' split) <;> first
    | exact (Keeps.of_eq (by simp)).trans (fullReset_keeps _ _)
    | exact .of_eq (by simp)

theorem slotsOk_insert {x : Tbl PwSlot} (k : Nat) (v : PwSlot) (hk : isPaired k = true) (h : slotsOk x = true) : slotsOk (Tbl.insert x k v) = true := by
  simp only [slotsOk, Bool.and_eq_true, List.all_eq_true] at h ⊢
  refine ⟨Tbl.sorted_insert k v h.1, fun p hp => ?_⟩
  rcases Tbl.mem_insert hp with e | e
  · rw [e]; exact hk
  · exact h.2 p e

theorem slotsOk_erase {x : Tbl PwSlot} (k : Nat) (h : slotsOk x = true) : slotsOk (Tbl.erase x k) = true := by
  simp only [slotsOk, Bool.and_eq_true, List.all_eq_true] at h ⊢
  exact ⟨Tbl.sorted_erase k h.1, fun p hp => h.2 p (Tbl.mem_erase hp)⟩

theorem pairedOff_ok (k : Fin 19) : isPaired (pairedOff k) = true := by revert k; decide

theorem valueWrite_keeps (off : Nat) (x : Word) (s : State) (h : isPaired off = true) :
    Keeps s.still (valueWrite off x s).still := by
  unfold valueWrite; rw [showPend_still]
  exact ⟨fun a b => ⟨a, slotsOk_insert _ _ h b⟩, Nat.le_refl _, rfl⟩

theorem erase_keeps (off : Nat) (s : State) : Keeps s.still (showPend { s with slots := Tbl.erase s.slots off }).still := by
  rw [showPend_still]
  exact ⟨fun a b => ⟨a, slotsOk_erase _ b⟩, Nat.le_refl _, rfl⟩

theorem pairedReject_keeps (off c : Nat) (s : State) : Keeps s.still (pairedReject off c s).still := by
  unfold pairedReject; simp only [flag_still, count_still, wr_still]
  exact erase_keeps off s

theorem inNextCycle_still (f : State → State) (s : State) (h : ∀ s : State, (f s).still = s.still) : (inNextCycle f s).still = s.still := by
  show (f _).still = _
  exact h _

theorem complementWrite_keeps (off : Nat) (x : Word) (s : State) : Keeps s.still (complementWrite off x s).still := by
  unfold complementWrite
  split
  · exact pairedReject_keeps _ _ _
  · split
    · exact pairedReject_keeps _ _ _
    · split
      · exact pairedReject_keeps _ _ _
      · dsimp only
        split
        · exact erase_keeps off s
        · rw [inNextCycle_still _ _ (by simp)]; exact erase_keeps off s

theorem pairedHalf_keeps (f : State → State) (s : State) (h : ∀ s : State, Keeps s.still (f s).still) :
    Keeps s.still (pairedHalf f s).still := by
  unfold pairedHalf; split
  · exact .of_eq rfl
  · exact h s

theorem execPairedWriteValue_keeps (dt : Nat) (k : Fin 19) (x : Word) (s u : State) (h : execPairedWriteValue dt k x s = .next u) :
    Keeps s.still u.still :=
  event_keeps h (fun _ => pairedHalf_keeps _ _ (fun _ => valueWrite_keeps _ _ _ (pairedOff_ok k)))

theorem execPairedWriteComplement_keeps (dt : Nat) (k : Fin 19) (x : Word) (s u : State) (h : execPairedWriteComplement dt k x s = .next u) :
    Keeps s.still u.still :=
  event_keeps h (fun _ => pairedHalf_keeps _ _ (fun _ => complementWrite_keeps _ _ _))

theorem above_map (f : Nat × PwSlot → PwSlot) (b : Nat) (x : Tbl PwSlot) (h : Tbl.above b x = true) : Tbl.above b (x.map (fun p => (p.1, f p))) = true := by
  induction x generalizing b with
  | nil => rfl
  | cons p l ih => simp only [List.map_cons, Tbl.above, Bool.and_eq_true] at h ⊢; exact ⟨h.1, ih _ h.2⟩

theorem sorted_map (f : Nat × PwSlot → PwSlot) (x : Tbl PwSlot) (h : Tbl.sorted x = true) : Tbl.sorted (x.map (fun p => (p.1, f p))) = true := by
  induction x with
  | nil => rfl
  | cons p l ih =>
    simp only [List.map_cons, Tbl.sorted, Bool.and_eq_true] at h ⊢
    exact ⟨above_map f _ _ h.1, ih h.2⟩

theorem slotsOk_map (f : Nat × PwSlot → PwSlot) {x : Tbl PwSlot} (h : slotsOk x = true) : slotsOk (x.map (fun p => (p.1, f p))) = true := by
  simp only [slotsOk, Bool.and_eq_true, List.all_eq_true] at h ⊢
  refine ⟨sorted_map f x h.1, fun p hp => ?_⟩
  obtain ⟨q, hq, rfl⟩ := List.mem_map.mp hp
  exact h.2 q hq

theorem execPairedWriteExpiry_keeps (dt : Nat) (s u : State) (h : execPairedWriteExpiry dt s = .next u) :
    Keeps s.still u.still := by
  refine event_keeps h (fun s => ?_)
  rw [showPend_still]
  exact ⟨fun a b => ⟨a, slotsOk_map _ b⟩, Nat.le_refl _, rfl⟩

theorem writes_keeps (fn off : Nat) (f : State → State) (s : State) (h : ∀ s : State, Keeps s.still (f s).still) :
    Keeps s.still (writes fn off f s).still := by
  unfold writes; (repeat' split) <;> first | exact h _ | exact .of_eq (by simp)

theorem globalWrite_keeps (off : Nat) (x : Word) (s : State) : Keeps s.still (globalWrite off x s).still := by
  unfold globalWrite
  split
  · next h => exact valueWrite_keeps _ _ _ h
  · exact .of_eq (plainWrite_still _ _ _)

theorem execRegisterWrite_keeps (dt : Nat) (fn : Fin 256) (g : Bool) (r : BitVec 14) (be : BitVec 4) (x : Word) (s u : State) (h : execRegisterWrite dt fn g r be x s = .next u) :
    Keeps s.still u.still := by
  refine event_keeps h (fun s => ?_)
  unfold accessWrite
  split
  · exact .of_eq rfl
  · split
    · exact .of_eq rfl
    · split
      · refine .of_eq ?_; rw [flag_still]; split <;> simp
      · split
        · exact .of_eq (by simp)
        · split
          · split
            · exact complementWrite_keeps _ _ _
            · exact writes_keeps _ _ _ _ (fun _ => globalWrite_keeps _ _ _)
          · exact .of_eq (writes_still _ _ _ _ (by simp))

theorem onImage_keeps (i : Nat) (f : Image → Image) (s : State) : Keeps s.still (onImage i f s).still := by
  unfold onImage; rw [onBoot_still]; split <;> exact ⟨fun a b => ⟨a, b⟩, Nat.le_refl _, rfl⟩

theorem command_keeps {code : Nat} {m : Msg} {f : State → State} {s t : State} (h : command code m f s = .next t)
    (hf : ∀ s : State, Keeps s.still (f s).still) : Keeps s.still t.still := by
  unfold command at h; cases h
  split
  · split
    · exact .of_eq (by simp)
    · exact hf _
  · exact .of_eq rfl

theorem invalidate_keeps (i : Nat) (s : State) : Keeps s.still (invalidate i s).still := by
  unfold invalidate; rw [bootFields_still]; exact onImage_keeps _ _ _

theorem acceptImage_keeps (i : Nat) (h : ImageHeader) (s : State) : Keeps s.still (acceptImage i h s).still := by
  unfold acceptImage; rw [bootFields_still]; exact onImage_keeps _ _ _

theorem execFwLoad_keeps (m : Msg) (s u : State) (h : execFwLoad m s = .next u) : Keeps s.still u.still := by
  refine command_keeps h (fun s => ?_)
  dsimp only
  (repeat' split) <;> first
    | (rw [refuse_still]; exact .of_eq rfl)
    | (rw [addJob_still]; exact invalidate_keeps _ _)

theorem chunkDone_keeps (m : Msg) (slot : Nat) (final : Bool) (image : Option ImageHeader) (s : State) :
    Keeps s.still (chunkDone m slot final image s).still := by
  unfold chunkDone; dsimp only
  generalize putWords _ _ = f
  refine (onImage_keeps slot (fun x => { x with words := f x.words }) s).trans ?_
  generalize onImage slot (fun x => { x with words := f x.words }) s = q
  split
  · exact .of_eq (ok_still _ _ _)
  · split
    · exact .of_eq (refuse_still _ _ _ _)
    · split
      · exact .of_eq (refuse_still _ _ _ _)
      · rw [ok_still]; exact acceptImage_keeps _ _ _

theorem jobDone_keeps (j : FlashJob) (image : Option ImageHeader) (s : State) : Keeps s.still (jobDone j image s).still := by
  cases j
  · exact chunkDone_keeps _ _ _ _ _
  · unfold jobDone; dsimp only
    rw [ok_still, bootFields_still, onBoot_still]
    exact ⟨fun a b => ⟨a, b⟩, Nat.le_max_left _ _, rfl⟩
  · unfold jobDone; dsimp only; split
    · rw [onBoot_still]; exact ⟨fun a b => ⟨a, b⟩, Nat.le_refl _, rfl⟩
    · rw [ok_still, onBoot_still]; exact ⟨fun a b => ⟨a, b⟩, Nat.le_refl _, rfl⟩
  · exact .of_eq (by simp [jobDone])

theorem execFlashWriteDone_keeps (dt : Nat) (im) (s u : State) (h : execFlashWriteDone dt im s = .next u) :
    Keeps s.still u.still := by
  refine event_keeps h (fun s => ?_)
  split
  · exact .of_eq rfl
  · exact (Keeps.of_eq (by simp)).trans (jobDone_keeps _ _ _)

end Sys2Proof.Machine
end

