-- ==== Sys2Proof/Laws/Pulse.lean ====
section
/-! SUPPORT. Laws of contexts, parameter memory and queues, and of the instruction commands. -/
namespace Sys2Proof.Machine
variable {s : State}

@[simp] theorem ctxAt_onCtx_self (n : Nat) (f : PCtx → PCtx) (s : State) : ctxAt (onCtx n f s) n = f (ctxAt s n) := by
  simp [ctxAt, onCtx]

theorem ctxAt_onCtx_ne {n k : Nat} (f : PCtx → PCtx) (s : State) (h : k ≠ n) : ctxAt (onCtx n f s) k = ctxAt s k := by
  simp [ctxAt, onCtx, Tbl.get_set_ne _ _ _ _ h]

@[simp] theorem plsAt_onCtx (n p : Nat) (f : PCtx → PCtx) (s : State) : plsAt (onCtx n f s) p = plsAt s p := rfl

@[simp] theorem ctxAt_onPls (p n : Nat) (f : PPair → PPair) (s : State) : ctxAt (onPls p f s) n = ctxAt s n := rfl

@[simp] theorem plsAt_onPls_self (p : Nat) (f : PPair → PPair) (s : State) : plsAt (onPls p f s) p = f (plsAt s p) := by
  simp [plsAt, onPls]

theorem plsAt_onPls_ne {p q : Nat} (f : PPair → PPair) (s : State) (h : q ≠ p) : plsAt (onPls p f s) q = plsAt s q := by
  simp [plsAt, onPls, Tbl.get_set_ne _ _ _ _ h]

@[simp] theorem cyc_onCtx (n : Nat) (f : PCtx → PCtx) (s : State) : (onCtx n f s).cyc = s.cyc := rfl
@[simp] theorem cyc_onPls (p : Nat) (f : PPair → PPair) (s : State) : (onPls p f s).cyc = s.cyc := rfl
@[simp] theorem seq_onCtx (n : Nat) (f : PCtx → PCtx) (s : State) : (onCtx n f s).seq = s.seq := rfl
@[simp] theorem faults_onCtx (n : Nat) (f : PCtx → PCtx) (s : State) : (onCtx n f s).faults = s.faults := rfl

@[simp] theorem PCtx.reg_setReg_self (x : PCtx) (c v : Nat) : (x.setReg c v).reg c = v % 2 ^ 32 := by simp [PCtx.reg, PCtx.setReg]

theorem PCtx.reg_setReg_ne {c k : Nat} (x : PCtx) (v : Nat) (h : k ≠ c) : (x.setReg c v).reg k = x.reg k := by
  simp [PCtx.reg, PCtx.setReg, Tbl.get_set_ne _ _ _ _ h]

@[simp] theorem PCtx.setReg_pc (x : PCtx) (c v : Nat) : (x.setReg c v).pc = x.pc := rfl
@[simp] theorem PCtx.setReg_run (x : PCtx) (c v : Nat) : (x.setReg c v).run = x.run := rfl
@[simp] theorem PCtx.setReg_steps (x : PCtx) (c v : Nat) : (x.setReg c v).steps = x.steps := rfl

@[simp] theorem ctxAt_tick (dt n : Nat) (s : State) : ctxAt (tick dt s) n = ctxAt s n := by simp [ctxAt]
@[simp] theorem plsAt_tick (dt p : Nat) (s : State) : plsAt (tick dt s) p = plsAt s p := by simp [plsAt]
@[simp] theorem paramAt_tick (dt p a : Nat) (s : State) : paramAt (tick dt s) p a = paramAt s p a := by simp [paramAt]
@[simp] theorem queueAt_tick (dt p q : Nat) (s : State) : queueAt (tick dt s) p q = queueAt s p q := by simp [queueAt]
@[simp] theorem paramAt_onCtx (n p a : Nat) (f : PCtx → PCtx) (s : State) : paramAt (onCtx n f s) p a = paramAt s p a := rfl
@[simp] theorem queueAt_onCtx (n p q : Nat) (f : PCtx → PCtx) (s : State) : queueAt (onCtx n f s) p q = queueAt s p q := rfl

@[simp] theorem paramAt_setParam_self (p a v : Nat) (s : State) :
    paramAt (setParam p a v s) p a = (v % 2 ^ 32, 2 ^ 32 - 1 - v % 2 ^ 32) := by simp [paramAt, setParam]

theorem paramAt_setParam_ne {p a q b : Nat} (v : Nat) (s : State) (h : (q, b) ≠ (p, a)) :
    paramAt (setParam p a v s) q b = paramAt s q b := by
  by_cases e : q = p
  · subst e
    have : b ≠ a := fun x => h (by rw [x])
    simp [paramAt, setParam, Tbl.get_set_ne _ _ _ _ this]
  · simp [paramAt, setParam, plsAt_onPls_ne _ _ e]

@[simp] theorem ctxAt_setParam (p a v n : Nat) (s : State) : ctxAt (setParam p a v s) n = ctxAt s n := rfl

@[simp] theorem queueAt_setQueue_self (p q : Nat) (l : List Nat) (s : State) : queueAt (setQueue p q l s) p q = l := by
  simp [queueAt, setQueue]

theorem queueAt_setQueue_ne {p q r k : Nat} (l : List Nat) (s : State) (h : (r, k) ≠ (p, q)) :
    queueAt (setQueue p q l s) r k = queueAt s r k := by
  by_cases e : r = p
  · subst e
    have : k ≠ q := fun x => h (by rw [x])
    simp [queueAt, setQueue, Tbl.get_set_ne _ _ _ _ this]
  · simp [queueAt, setQueue, plsAt_onPls_ne _ _ e]

@[simp] theorem ctxAt_setQueue (p q n : Nat) (l : List Nat) (s : State) : ctxAt (setQueue p q l s) n = ctxAt s n := rfl

theorem canExecute_runs {n : Nat} (h : canExecute s n = true) : (ctxAt s n).runs = true := by
  unfold canExecute at h
  unfold PCtx.runs
  split at h
  · next e => rw [e]; rfl
  · simp at h

/-- A context that goes on after an instruction ends neither its step nor itself. -/
theorem pulseSettle_on {n now : Nat} {s : State} (h1 : (ctxAt s n).runs = true) (h2 : (ctxAt s n).pc ≤ 4095)
    (h3 : (ctxAt s n).steps < 24) : pulseSettle n now s = (s, true) := by
  unfold pulseSettle
  simp [h1, Nat.not_lt.mpr h2, Nat.not_le.mpr h3]

/-- The instruction command of a legal instruction on a context that is able to execute. -/
theorem instruction_runs {dt : Nat} {n : Fin 64} {op : POp} (ha : steady dt s = true) (hc : canExecute s n = true)
    (hl : op.legal = true) : instruction dt n op s =
      .next ((pulseStep n (some op) (s.cyc + dt) (tick dt s)).1) := by
  have : canExecute (tick dt s) n = true := by
    unfold canExecute at hc ⊢
    simpa [pairAt] using hc
  rw [instruction, event_steady ha]
  simp [this, hl]

/-- An instruction whose context goes on has the effect of its own operation and no other. -/
theorem pulseStep_on {n now : Nat} {op : POp} {s t : State}
    (he : pulseExec n op now (onCtx n (fun x => { x with steps := x.steps + 1 }) s) = (t, true)) (h1 : (ctxAt t n).runs = true)
    (h2 : (ctxAt t n).pc ≤ 4095) (h3 : (ctxAt t n).steps < 24) : (pulseStep n (some op) now s).1 = t := by
  simp only [pulseStep, he, if_true]
  rw [pulseSettle_on h1 h2 h3]

end Sys2Proof.Machine
end

