-- ==== Sys2Proof/Tests/Slice0.lean ====
section
/-! SUPPORT. Tests: terms that well-formedness refuses, effects worked out by hand from the spec's tables, and for every statement a state
and operands that meet its hypotheses, clause by clause. -/
namespace Sys2Proof.Tests
open Sys2Proof Sys2Proof.Machine

set_option Elab.async false

/-! ### Small states -/

/-- The state `s` with the listed fields written. -/
def regs (l : List (Fld × Nat)) (s : State) : State := l.foldl (fun s p => wr p.1 p.2 s) s

/-- A state a while after reset, in the cycle 1,000. -/
def s0 : State := { cyc := 1000 }

/-- A message of client 3 with the given value words. -/
def msg (l : List Nat) : Msg := ⟨3, 5, false, l.map (BitVec.ofNat 32), 0, 0⟩

/-- The same of client 0, the SAFETY client. -/
def safe (l : List Nat) : Msg := { msg l with client := 0 }

/-- Clients 0 and 3 have sessions at version 3.1, client 3 in class CONTROL; firmware runs. -/
def sC : State :=
  regs [(CLI_HL_STATUS_SESSION 0, 1), (CLI_HL_STATUS_SESSION 3, 1), (CLI_HL_STATUS_VERSION 0, 0x31), (CLI_HL_STATUS_VERSION 3, 0x31), (HL_CLIENT_CLASS 3, 1), (HL_CLIENT_CLASS 0, 0),
    (GLB_BOOT_FW_READY, 1)] s0

/-- A four-stroke wheel of 60 positions, two of them missing, one crank input, a cam with one pattern edge. -/
def w60 : Wheel :=
  { stroke := 4, positions := 60, missing := 2, tooth0 := 0, bRole := 0, bOffset := 0, gapRatio := 32, noise := 4, dirSrc := 0
    quadFwd := false, dirConfirm := 2, reversible := false, camA := [], camB := [], camTol := 1000, phaseConfirm := 1
    camFault := 3, limpEvents := true, crankReturn := true }

/-- Pulse contexts 0 and 63 run, contexts 1 to 31 are halted; their pairs hold parameters, queues and bindings. -/
def sPulse : State :=
  let c : PCtx := { pc := 5, run := .ready 4 1 5 none, regs := [(0, 7), (1, 2 ^ 32 - 1), (3, 2047), (5, 150), (6, 1), (7, 5 * 10 ^ 8), (8, 1000), (9, 1150), (14, 1250), (15, 1001)] }
  let bind : PBind := { enable := true, slots := [⟨0x80, 0, false⟩, ⟨0, 1, false⟩, ⟨0x81, 0, false⟩, ⟨0xFF, 0, false⟩], lines := 0x8001 }
  let p : PPair :=
    { params := [(5, (9, 2 ^ 32 - 10)), (2047, (4, 3))], queues := [(0, [3, 4]), (5, List.replicate 32 1), (11, [8])], bank0 := { binds := [bind] } }
  { s0 with pulse := { ctxs := (0, c) :: (List.range 31).map (fun i => (i + 1, { run := .halted })) ++ [(63, { c with pc := 4094 })]
                       pairs := [(0, p), (3, p)] } }

/-- `sPulse` with every stake of pair 0 in use. -/
def sPulseFull : State :=
  onPls 0 (fun p => { p with stakes := (List.range 32).map (fun k => (k, ⟨0, 0x80, 1, 2000⟩)) }) sPulse

/-- Context 0 waits with a limit for an edge, context 31 for one that its second detector has matched, contexts 32 and 47 for their queues,
which have come; stakes of pair 0 fire in cycle 1,160. -/
def sPulseWaits : State :=
  let wait : PCtx := { run := .waiting, wait := some (.edge false 1), limit := some 11, issued := 5 }
  { s0 with cyc := 1159, pulse := { ctxs := [(0, wait), (31, { wait with wait := some (.edge true 3), det1 := { hit := some 1158 } }),
                                      (32, { wait with wait := some (.qin 0 5), issued := 10 }), (47, { wait with wait := some (.qout 7 9) })]
                                    pairs := [(0, { stakes := [(0, ⟨0, 0x80, 0, 1160⟩), (5, ⟨0, 271, 3, 1160⟩), (31, ⟨0, 0x97, 1, 1160⟩)] }),
                                      (2, { queues := [(0, [3])] })] } }

/-- The exchange of the banks of pair 3, whose contexts are halted, is due when the next pace begins. -/
def sExchange : State :=
  { s0 with cyc := 1199, pulse := { ctxs := (List.range 16).map (fun i => (i + 48, { run := .halted })), pairs := [(3, { switch := some (msg [1], 1100) })] } }

/-- A frame for solenoid channel 35, and one for auxiliary output 15, wait on the profile link of pairs 0 and 3. -/
def sLink : State :=
  { s0 with
    seq := { pairs := [(0, { link := [{ output := 35, serial := 7 }] }), (3, { link := [{ output := 51, serial := 8 }] })] }
    drive := { profiles := [(0, ⟨[], [], 0⟩)] } }

/-- A descriptor for channel 0 of client 3, armed. -/
def d0 : Desc :=
  { channel := 0, profile := 0, astern := false, bank := 0, flags := 0, lateLim := 2, endAngle := 0, cls := 1, duration := 1000, armLead := 4
    sequence := 9, client := 3, tooth := 0, stage := .armed, serial := 7, te := 5000, place := .stake }

/-- The start stake of descriptor 4 stands for cycle 1,001 in slot 31 of pair 0. -/
def sStake : State := { s0 with seq := { descs := [(4, d0)], pairs := [(0, { stakes := [(31, ⟨4, true, 1001, 1001⟩)] })] } }

/-- The end stake of descriptor 4, which alone holds its lane ON. -/
def sEnd : State :=
  { s0 with seq := { descs := [(4, { d0 with stage := .running, onAt := some 900 })], pairs := [(0, { stakes := [(31, ⟨4, false, 1001, 1001⟩)] })]
                     lanes := [(0, { on := true, since := 900, holders := [4] })] } }

/-- The boost has let the running event of descriptor 4 go on, and the report is on its way. -/
def sReport : State :=
  { sC with seq := { descs := [(4, { d0 with stage := .running, onAt := some 900 })], reports := [.boost 0 7 1 40 990 false] } }

/-- The last cycle of a pace; outputs 0 and 51 are inhibited and output 51 is to be released. -/
def sPace : State := { s0 with cyc := 1099, seq := { inhibit := 2 ^ 51 + 1, release := 2 ^ 51 } }

/-- Every sensor input is enabled, with rising timing edges. -/
def inputs : List (Fld × Nat) :=
  [0, 1, 2, 3].flatMap (fun i => [(WHL_IN_CFG_ENABLE i, 1), (WHL_IN_CFG_EDGE i, 1)])

/-- Crank A with edges at 1,000, 900 and 800 and no wheel. -/
def sCrank : State := regs inputs { s0 with angle := { sensors := [(0, { edges := [1000, 900, 800] }), (1, { edges := [1000, 900] })] } }

/-- The same with the wheel of 60 positions, in SEEK; four edges make the period from 600 to 900 a gap. -/
def sSeek : State := regs ((WHL_STATUS_CRANK_SRC, 0) :: inputs) { s0 with angle := { wheel := some w60, sensors := [(0, { edges := [900, 600, 500] })] } }

/-- LOCKED on crank A in the middle of a revolution: the predicted period is 100 cycles, the last tooth was at 1,000. -/
def sLocked : State :=
  regs ([(WHL_STATUS_STATE, 2), (WHL_STATUS_CRANK_SRC, 0), (WHL_STATUS_TOOTH_POS, 10)] ++ inputs)
    { s0 with angle := { wheel := some w60, sensors := [(0, { edges := [1000, 900, 800] })], cranks := [(0, { search := 2, pos := some 10 })]
                         predicted := Frac.int 100, toothAt := Frac.int 1000, mean := Frac.int 100 } }

/-- `w60` with one pattern edge on each cam, a rising one at 100,000 and at 200,000 links. -/
def w60c : Wheel := { w60 with camA := [⟨100000, true⟩], camB := [⟨200000, true⟩] }

/-- LOCKED with the cam wheel; the chain has gone twice round since the phase test began, and no cam edge has come. -/
def sCams : State :=
  regs [(WHL_STATUS_STATE, 2)] (regs inputs
    { s0 with angle := { wheel := some w60c, courses := [{ at_ := 900, start := 2 * turn * unit, step := 100 }] } })

/-- In cam limp, with both cams in service; cam A has not changed for 900 cycles, and its reference time is 10. -/
def sFrozen : State :=
  regs ([(WHL_STATUS_STATE, 3), (WHL_STATUS_LIMP, 1)] ++ inputs)
    { s0 with angle := { wheel := some w60c, cams := [(0, { frozenRef := some (Frac.int 10) })], sensors := [(2, { changed := 100 })] } }

/-- PHASED at cycle 1,000 in the middle of the second cycle; the chain reaches its stake in cycle 1,000. -/
def sTurned : State :=
  regs [(WHL_STATUS_STATE, 3), (DRV_BANK_SLIP_BANK0, 7), (ANG_FP_CYCLES0_BAND0, 4)]
    { s0 with angle := { wheel := some w60, courses := [{ at_ := 900, start := turn * unit, step := 2 ^ 20, stake := some (turn * unit + 100 * 2 ^ 20) }],
                         clearTable := true, firing := [(3, 9)] } }

/-- The wheel `w60` with twelve positions. -/
def wTwelve : Wheel := { w60 with positions := 12 }

/-- A learning command over one revolution that has its measurement, and ends with `code`. -/
def learning (code : Nat) : Learn :=
  let t : LearnTrack := { periods := (List.range 30).map (fun i => (i % 10, Frac.int (if i % 10 = 0 then 300 else 100))), means := List.replicate 3 (Frac.int 100) }
  { cmd := msg [0x108], force := true, revs := 1, inputs := [0], tracks := [(0, t)], outcome := some code }

/-- Closure learning of one revolution on crank A of a wheel of 12 positions is over; every period was regular. -/
def sLearn (code : Nat) : State :=
  regs [(ANG_STATUS_CL_LEARNING, 1)] { sC with angle := { wheel := some wTwelve, learn := some (learning code) } }

/-- A profile of two phases from the battery: 5,000 cycles up to 10 A, then a hold at 4 A until lane OFF. The bits `h` join its H0. -/
def prof (h : Word) (t0 a1 t1 : Nat) : List Word :=
  [0x24001014#32 ||| h, 400, 0, 0, 0x413E8320, wd t0, wd a1, wd t1] ++ List.replicate 20 0

/-- The slot that stores the profile `p` under the generation `g`. -/
def stored (p : List Word) (g : Nat) : Profile := ⟨p, p.map (~~~ ·), g⟩

/-- The hold phase of `prof`, from the battery at 3 A to 4 A. -/
def hold : Nat := 0x4119012C

/-- A running channel with the profile `p`, whose phase began in cycle 900 and whose source went off in cycle 500. -/
def running (p : List Word) : Chan := { mode := .run, lane := true, onAt := 900, serial := 7, words := p, phaseAt := 900, changedAt := 500, sourceAt := 100 }

/-- Channels 0, 1 and 35 run: channel 0 in its first phase, channel 1 with its source on, channel 35 in its last phase, which ends on
time; channels 2 and 3 run without comparators; channel 4 waits for a change, channel 5 decays, channel 8 after a restart, and channel 6 waits for the boost. Slot 5, of which channel 10
runs, has a word that differs from its complement. -/
def sDrive : State :=
  regs ([0, 1, 2, 3, 4, 10, 35].flatMap (fun c => [(DRV_CH_STAT_ENERGISED c, 1), (DRV_CH_STAT_PHASE c, 0)]) ++ [(DRV_CH_STAT_PHASE 35, 1), (DRV_CH_STAT_FAILS 1, 2), (PAIR_STATUS_ROLE, 2)])
    { s0 with cyc := 6000, drive :=
      { vbat := 140
        profiles := [(0, stored (prof 0 5000 hold (2 ^ 32 - 1)) 4), (5, { stored (prof 0 5000 hold (2 ^ 32 - 1)) 4 with compl := [] })]
        chans := [(0, running (prof 0 5000 hold (2 ^ 32 - 1))), (1, { running (prof 0 5000 hold (2 ^ 32 - 1)) with source := true }),
          (2, { running (prof 0x800000 100000 0x41014064 (2 ^ 32 - 1)) with duty := [(0, 900)], dutyWin := 0, dutyFrac := 1 }),
          (3, { running (prof 0x800000 100000 0x41014064 (2 ^ 32 - 1)) with source := true, changedAt := 5990 }),
          (4, { running (prof 0 5000 hold (2 ^ 32 - 1)) with want := some true }), (5, { mode := .decay 1, boosted := true, slot := 63 }),
          (6, { running (prof 0 5000 hold (2 ^ 32 - 1)) with mode := .boostWait 5000 }),
          (7, { mode := .decay 3 }), (8, { mode := .decay 2, boosted := true, slot := 63, drawn := [1] }), (10, { running (prof 0 5000 hold (2 ^ 32 - 1)) with slot := 5 }), (35, running (prof 0 5000 hold 600))] } }

/-- The same with a rise on channels 0 and 1 that is overdue; profile slot 63 is being stored, slot 0 is valid and owned outputs are
those of client 3. -/
def sStored : State :=
  regs ([0, 1, 35].flatMap (fun c => [(HL_OWN_VALID c, 1), (HL_OWN_OWNER c, 3)]) ++ [(DRV_CH_STAT_ENERGISED 1, 1), (DRV_CH_STAT_FAILS 1, 2),
      (DRV_CH_STAT_ENERGISED 0, 1), (DRV_CH_STAT_PHASE 0, 0), (DRV_CH_STAT_PHASE 1, 0)])
    { sC with cyc := 10 ^ 8, drive :=
      { vbat := 140
        storing := [(63, msg [], prof 0 5000 hold (2 ^ 32 - 1))], profiles := [(0, stored (prof 0 5000 hold (2 ^ 32 - 1)) 4)]
        chans := [(0, { running (prof 0 5000 hold (2 ^ 32 - 1)) with source := true, rise := some ⟨1000, 100, 140⟩ }),
          (1, { running (prof 0 5000 hold (2 ^ 32 - 1)) with source := true, rise := some ⟨1000, 100, 140⟩ })] } }

/-- An offset calibration is asked for on channel 35 and runs on channel `c`. -/
def sCal (c : Nat) (k : Calib) : State :=
  regs ([0, c].flatMap (fun c => [(HL_OWN_VALID c, 1), (HL_OWN_OWNER c, 3)]))
    { sC with cyc := 10 ^ 8, drive := { chans := [(c, { cal := k, restSince := some (10 ^ 8 - 4000) })], cals := [(msg [0, 0], [c], [(c, 0)])] } }

/-- Boost controller 0 is in state `x` since cycle 0, and controller 1 is OFF. -/
def sBoost (x : Nat) : State := regs [(BST_STATUS_STATE 0, x), (PAIR_STATUS_ROLE, 2)] { sC with cyc := 2 * 10 ^ 8 }

/-- The READY bank of controller 1 has stood too low for 20 ms, and that of controller 0 too high for 10 µs and over its limit in 16 cycles. -/
def sBoostBad : State :=
  regs [(BST_STATUS_STATE 0, 3), (BST_STATUS_STATE 1, 3), (PAIR_STATUS_ROLE, 2)]
    { sC with cyc := 2 * 10 ^ 8, drive := { boosts := [(0, { highSince := some (2 * 10 ^ 8 - 3999), overs := 16 }), (1, { lowSince := some (2 * 10 ^ 8 - 7999999) })] } }

/-- Channel 0 regulates its hold phase with the source on for a while, channel 1 is latched, off, under test; channel 35 is idle; all
of client 3; auxiliary output 15 conducts in its inrush window, output 0 is latched and output 1 is off. -/
def sTrip : State :=
  regs ([0, 1, 35, 36, 51].flatMap (fun c => [(HL_OWN_VALID c, 1), (HL_OWN_OWNER c, 3)]) ++
      [(PAIR_STATUS_ROLE, 1), (DRV_CH_STAT_ENERGISED 0, 1), (DRV_CH_STAT_PHASE 0, 1), (PRT_STAT_LATCH 1, 1), (PRT_STAT_LATCH 35, 1), (AUX_STAT_ON 15, 1), (AUX_STAT_LATCH 0, 1), (PRT_SUB_TRIP_A, 1),
        (AUX_STAT_ON 14, 1), (AUX_STAT_INRUSH 15, 1), (AUX_COUNT_I2T_ENDS 15, 255)])
    { sC with cyc := 10 ^ 8, drive :=
      { vbat := 140
        chans := [(0, { running (prof 0 5000 hold (2 ^ 32 - 1)) with source := true, cd := none }),
          (1, { test := some 5, latchedAt := some 1000 }), (35, { latchedAt := some 1000 })]
        aux := [(0, { latchedAt := some 1000, backSince := some (10 ^ 8 - 399999) }), (1, { offAt := some 7 }),
          (12, { lane := true, inrush := some (10 ^ 8) }), (13, { lane := true, inrush := some 10 }),
          (14, { lane := true, thermal := 8, limitSince := some (10 ^ 8 - 3999), idleSince := some (10 ^ 8 - 799999) }),
          (15, { lane := true, inrush := some 10, heat := 10 ^ 16, lowSince := some (10 ^ 8 - 3999) })] } }

/-- The switches of channels 0 and 35, which hold 4 A, turned on 1,000 cycles ago. -/
def sSwitched : State :=
  let x : Chan := { running (prof 0 5000 hold (2 ^ 32 - 1)) with source := true, sourceAt := 10 ^ 8 - 1000, lowAt := 10 ^ 8 - 1000, cd := none }
  regs ([0, 35].flatMap (fun c => [(DRV_CH_STAT_ENERGISED c, 1), (DRV_CH_STAT_PHASE c, 1)]))
    { sC with cyc := 10 ^ 8, drive := { vbat := 140, profiles := [(0, stored (prof 0 5000 hold (2 ^ 32 - 1)) 4)], chans := [(0, x), (35, x)] } }

/-- Converter 7 serves a closing window of channel 35; the measurement counts, and after `n` misses in a row. -/
def sClose (n : Nat) : State :=
  regs [(PAIR_STATUS_ROLE, 1), (CD_CFG_HALF_W 35, 0), (CD_DET_SETTLE 35, 0), (CD_DET_THRESH 35, 1), (CD_PLAUS_PL_MIN 35, 9), (CD_PLAUS_PL_MAX 35, 9), (CD_TRIM_MISS_RUN 35, n), (CD_TRIM_STATE 35, 0)]
    { s0 with drive := { windows := [(7, some ⟨35, 7, true, 200, 400⟩)], trims := [(35, { eligible := true })] } }

/-- Samples whose slope changes at the tenth. -/
def kinked : List (BitVec 12) := (List.range 20).map (fun i => BitVec.ofNat 12 (if i < 10 then 100 else 100 * (i - 8)))

/-- The module in slot 2, in role `r`, with client 0 open; its tie link is trained at version 3 when `up`. -/
def sTie (r : Nat) (up : Bool) : State :=
  regs [(PAIR_STATUS_ROLE, r), (GLB_BOOT_FW_READY, 1), (CLI_HL_STATUS_SESSION 0, 1), (CLI_HL_STATUS_VERSION 0, 0x31), (HL_CLIENT_CLASS 0, 0),
      (PAIR_STATUS_VERSION, if up then 3 else 0)]
    { s0 with regs := [(PAIR_STATUS_SLOT.key, 2)], boot := { leaveSettled := true }
              tie := { trained := up, ever := up, frameAt := 800, closed := r == 1, frame := if up then [0xAC040000, 0, 0, 0, 0, 0, 0, 0] else [] } }

/-- Training has lasted 5 ms. -/
def sTieLate : State := { sTie 3 false with cyc := 2000000, tie := { since := some 1 } }

/-- A valid frame of version 3. -/
def frame : List Word := [0xAC040000, 0, 0xFFFFFFFF, 0, 0, 0, 0, 0x907C2366]

/-- A takeover for `cause` waits for its switches with the resign line low since cycle 900. -/
def sTakeover (cause : Nat) : State :=
  regs [(PAIR_STATUS_RESIGN_IN, 1)] { sTie 2 true with tie := { (sTie 2 true).tie with takeover := some (cause, 900), lowAt := 941, frame := [] } }

/-- A DUTY that holds the resign line low until cycle 1,001. -/
def sResigns : State := { sTie 1 true with tie := { (sTie 1 true).tie with resign := some 1001 } }

/-- The resign line has been low for longer than 10 µs. -/
def sStuck : State := regs [(PAIR_STATUS_RESIGN_IN, 1)] { sTie 1 true with cyc := 5000 }

/-- PHASED 8 cycles after the chain stood at `a` links; the benchmark line is checked, and one pulse was missed when `n` is 1. -/
def sLine (a : Int) (n : Nat) : State :=
  regs [(WHL_STATUS_STATE, 3), (PAIR_CFG_BM_ENABLE, 1)]
    { sTie 1 false with angle := { wheel := some w60, courses := [{ at_ := 0, start := a * unit, step := 1 }] }
                        tie := { listen := some 0, bmLow := some 1001, missing := n } }

/-- A handover of client 0 waits since cycle 5. -/
def sHandover : State := { sTie 1 true with tie := { (sTie 1 true).tie with handover := some ⟨safe [1], true, 5, 0⟩ } }

/-- An acquisition list of kind `k` with two entries of converter 0 in a buffer of 1 KiB at KiB `b`. -/
def list (k b : Nat) : AcqList := { owner := some 3, kind := k, entries := [0, 5], base := b, length := 1 }

/-- PHASED with the chain at 5,000 links; ANGLE list 0, TIME list 31, and KNOCK lists 1 before, 2 in and 3 at the end of its window run;
converter 0 converts an entry of list 5, converter 3 an urgent request from its register. -/
def sAcq : State :=
  regs [(ACQ_REF_SETTLED, 1), (ACQ_RUN_RUNNING, 0x8000000F), (WHL_STATUS_STATE, 3), (ACQ_WP_WP 31, 1020), (ACQ_RP_RP 31, 512), (SEQ_CYCLE_CYCLE, 77)]
    { sC with
      angle := { wheel := some w60, courses := [{ at_ := 0, start := 5000 * unit, step := 1 }], stations := [0] }
      acq := { convs := [(0, some ⟨some ⟨5, 3, 990, some 1023⟩, 990⟩), (3, some ⟨none, 990⟩)], urgent := [(3, some ⟨23, none⟩)]
               lists := [(0, { list 0 0 with target := some 4001, step := 128000, steps := 4, idx := 1 }),
                 (1, { list 3 1 with target := some 5000, entries := [5], width := 100, kper := 2 }),
                 (2, { list 3 2 with knock := some { addr := some 8, sum := 2 ^ 40 + 5, samples := 70000, cycle := 76, lost := true, next := 1000, close := 5001 }, entries := [5] }),
                 (3, { list 3 3 with knock := some { addr := some 1016, sum := 2 ^ 40 + 5, samples := 70000, cycle := 76, lost := true, next := 900, close := 5000 }
                                     target := some 4000, entries := [5] }),
                 (5, list 2 4), (6, list 1 6), (31, { list 1 5 with next := 1000, period := 200 })] } }

/-- The same with the reference of code `r` not settled, no list running and no urgent request. -/
def sRef (r : Nat) : State :=
  regs [(ACQ_REF_SETTLED, 0), (ACQ_REF_SEL, r), (ACQ_RUN_RUNNING, 0)] { sAcq with cyc := 10 ^ 6, acq := { sAcq.acq with urgent := [], convs := [] } }

/-- Monitor 15 watches with a window from 100 to 900; its filter runs on the low side of `low`, and its self-test is at step `k`; channel 27
is in step `c` of the test of its comparators. -/
def sMon (low : Option Nat) (k c : Nat) : State :=
  regs [(MON_CTL_ENABLE 15, 1), (MON_CTL_AUTO 15, 1), (MON_THR_LOW 15, 100), (MON_THR_HIGH 15, 900), (MON_CTL_FILTER 15, 2), (MON_STAT_TESTING 15, 1)]
    { sC with cyc := 10 ^ 6
              drive := { chans := [(27, { selfTest := true })] }
              acq := { mons := [(15, { low, test := if k < 8 then some (k, 1000, false) else none })], chanTests := [(27, (c, 5))] } }

/-- Timers 0, 4 and 31 run since cycle 900; timer 31 matches in cycle 1,001 and sets pin 7, timer 27 is stopped. -/
def sTimers : State :=
  regs [(TMR_CMP_CMP 31, 106), (TMR_COUNT_COUNT 31, 5), (TMR_CFG_OUT_PIN 31, 7), (TMR_CFG_OUT_ACT 31, 1), (TMR_CFG_AUTO_ADD 31, 1), (TMR_INTERVAL_INTERVAL 31, 2 ^ 32 - 1),
      (TMR_PIN_DIR, 0x80), (TMR_CFG_CAP_EDGE 4, 3), (TMR_CFG_CAP_PRE 4, 1), (TMR_CFG_CAP_EDGE 0, 1), (TMR_CFG_CAP_PRE 0, 255), (TMR_START_START, 0x80000011), (TMR_STOP_STOP, 0x80000011)]
    { s0 with periph := { timers := [(0, { start := some 900, edges := 254 }), (4, { start := some 900, edges := 1 }), (31, { start := some 900 })] } }

/-- Pin engine 0 runs with the program word `w` and the FIFOs `tx` and `rx`; engine 7 is stopped with a full transmit FIFO. -/
def sEngine (w : Nat) (tx rx : List Word) : State :=
  regs [(PE_CTRL_RUN 0, 1), (PE_PROG_WORD 31, w), (PE_STAT_PC 0, 31), (PE_SR_SR 0, 2 ^ 31)]
    { s0 with periph := { engines := [(0, { tx, rx }), (7, { tx := List.replicate 8 1 })] } }

/-- Position interface 0 in mode `m` at count `r`; interface 5 off. -/
def sPos (m r : Nat) : State :=
  regs [(POS_CFG_MODE 0, m), (POS_CFG_HYST 0, 0), (POS_RAW_R 0, r), (POS_COUNT_C 0, r), (PAIR_STATUS_ROLE, 0)]
    { s0 with cyc := 10 ^ 6, periph := { positions := [(0, { prev := some 5, frame := if m = 4 then some 500000 else none })] } }

/-- A SENT frame of 3 µs ticks: its calibration pulse, status 1, the nibbles 0, 0 and 9 and their CRC, and the next calibration pulse. -/
def sent : List Nat := [56 * 1200, 13 * 1200, 12 * 1200, 12 * 1200, 21 * 1200, 17 * 1200, 56 * 1200]

/-- Rings of client 3 with 16 entries each; one request entry is there; a request of client 3 waits for its buffer, and a notice is held. -/
def sRing (held : List ModMsg) (lost : Nat) : State :=
  regs [(CLI_RING_CFG_ENABLE 3, 1), (CLI_RING_CFG_REQ_LOG2 3, 4), (CLI_RING_CFG_RSP_LOG2 3, 4), (CLI_RING_CFG_FLT_LOG2 3, 4), (CLI_REQ_HEAD_HEAD 3, 15),
      (CLI_REQ_TAIL_TAIL 3, 0), (CLI_RSP_TAIL_TAIL 3, 15), (CLI_RSP_HEAD_HEAD 3, 15), (CLI_RSP_TAIL_PHASE 3, 1), (CAN_BIND_REQ_ID 0, 5), (PWR_BASE_BASE, 0x1FFFF)]
    { sC with host := { perst := false, vfEnable := true, clients := [(3, { held, lost, requests := [⟨0x0300, false, ⟨3, 9, false, [], 0, 0⟩, 5, false, false, false⟩] })] } }

/-- An `ECHO` of one value word, as its ring entry. -/
def echoEntry : List Word := [0x03000008, 0x03000700, 0, 0xFCFFFFF7, 5, 0xFFFFFFFA] ++ List.replicate 10 0

/-- Client 3 is halted in its ring, with entries up to 5. -/
def sHalted : State :=
  regs [(CLI_RING_CFG_ENABLE 3, 1), (CLI_RING_CFG_REQ_LOG2 3, 4), (CLI_HL_STATUS_REQ_HALT 3, 1), (CLI_REQ_HEAD_HEAD 3, 15), (CLI_REQ_TAIL_TAIL 3, 5), (PWR_BASE_BASE, 0x1FFFF)] { s0 with host := { vfEnable := true } }

/-- The module before any session, with PF0's votes for every domain. -/
def sIdle : State := regs [(PWR_BASE_BASE, 0x1FFFF), (GLB_BOOT_FW_READY, 1), (HL_CLIENT_CLASS 0, 0), (HL_CLIENT_CLASS 3, 1), (HL_CLIENT_CLASS 255, 2), (HL_CLIENT_LOSS 3, 0), (HL_CLIENT_LOSS 255, 0)] s0

/-- The same with the session of client 3 open at version 3.1, whose lease of 10 ms has run out. -/
def sLease : State := regs [(CLI_HL_STATUS_SESSION 3, 1), (CLI_HL_STATUS_VERSION 3, 0x31), (HL_CLIENT_LEASE 3, 1)] { sIdle with cyc := 10 ^ 9, host := { perst := false, vfEnable := true } }

/-- The load level is `l`, two windows above and two below have come; client 255 has a shed request, and core 0 restarts. -/
def sLoad (l : Nat) : State :=
  regs [(HL_STATUS_LEVEL, l), (GLB_BOOT_FW_READY, 1), (HL_CLIENT_CLASS 255, 2)]
    { s0 with cyc := 10 ^ 9
              host := { hiRun := 2, loRun := 2, clients := [(255, { requests := [⟨0x0140, false, ⟨255, 9, false, [], 0, 0⟩, 5, true, true, false⟩] })]
                        restarting := [(0, [⟨0x0140, false, ⟨3, 5, false, [], 0, 0⟩, 5, true, true, false⟩])] } }

/-- Bindings 0 and 15 of controllers 0 and 3: a message is being received on 0, one sent on 15. -/
def sCan : State :=
  regs [(CAN_CTRL_ENABLE 0, 1), (CAN_CTRL_ENABLE 2, 1), (CAN_CTRL_ENABLE 3, 1), (CAN_BIND_EN 2, 1), (CAN_BIND_REQ_ID 2, 0x700), (CAN_BINDR_IDE 2, 1), (CAN_BIND_EN 0, 1), (CAN_BIND_REQ_ID 0, 0x700), (CAN_BIND_EN 15, 1), (CAN_BIND_CTRL 15, 3), (CAN_BIND_REQ_ID 15, 0x701),
      (CAN_BIND_EN 1, 1), (CAN_BIND_CTRL 1, 2), (CAN_BIND_REQ_ID 1, 0x702), (PWR_BASE_BASE, 0x1FFFF), (CAN_STAT_BUS_OFF 1, 1), (CAN_CTRL_AUTO_REC 1, 1)]
    { s0 with can := { bindings := [(0, { rx := some { bytes := [1], len := 100, next := 1, left := 0, since := 5 } }), (1, { responses := [⟨241, 5, 9, 0, 0, false, [7]⟩] }),
                         (15, { tx := some { bytes := List.replicate 64 5, next := 15, waitFc := false, left := none, since := 5 } })] } }

/-- A transfer of client 3 whose next burst is being read. -/
def reads : DmaXfer := { owner := 3, slots := 1 }

/-- A transfer of client 3 that writes its last burst. -/
def writes : DmaXfer := { owner := 3, read := 512, buf := List.replicate 512 1, slots := 1, wlen := 512 }

/-- A transfer of client 3 that waits to retry. -/
def retries : DmaXfer := { owner := 3, retryAt := some 1001 }

/-- Channels of DMA, all but 4 of client 3 with 512 bytes: 0 reads its last burst, 1 writes it, 2 may start, 3 may not, 5 waits for a retry; 6 is
in RETRY_WAIT without a burst. -/
def sDma : State :=
  regs ([0, 1, 2, 3, 5, 6].flatMap (fun c => [(DMA_GRANT_VALID c, 1), (DMA_GRANT_OWNER c, 3)]) ++ [0, 1, 2, 5, 6, 11].map (fun c => (DMA_LEN_LEN c, 512)) ++
      [(DMA_STATUS_STATE 0, 1), (DMA_STATUS_STATE 1, 1), (DMA_STATUS_STATE 5, 2), (DMA_STATUS_STATE 6, 2), (DMA_CTRL_RETRY_N 0, 0)])
    { s0 with host := { vfEnable := true }, dma := { xfers := [(0, some reads), (1, some writes),
                         (5, some retries), (6, some { owner := 3, retryAt := some 9001 })], reading := some 0, writing := some 1 } }

/-- Source 5 is offered to core 0 by its level, source 388 is active on core 3, and a group and a vector coalesce. -/
def sIntc (raw : Nat) : State :=
  regs [(INTC_HOLD_HOLD, 0), (INTC_CTRL_RAW, raw), (INTC_SRC_PRIO 5, 15), (INTC_SRC_TARGETS 5, 1), (INTC_SRC_ONESHOT 5, 1), (INTC_SRC_TYPE 388, 1), (CLI_MSIX_CTRL_MASK 3 7, 1), (CLI_MSIX_PBA_PEND 3, 0x80)]
    { s0 with cyc := 10 ^ 6, intc := { src := [(5, { req := true, en := true, pend := true }), (7, { en := true }), (388, { en := true, act := some 3 })], grp := [(0, { isOpen := true }), (31, { start := some 5 })] }
              host := { msix := [(0, { start := some 5 }), (31, { start := some 5 })], pcie := [(0, { msix := true })] } }

/-- Held in reset. -/
def sHeld : State := { s0 with boot := { held := true } }

/-- Image B is sound, stored for firmware 3.3.0 with index 5; the module runs image A; client 0 is SAFETY. -/
def sImages : State := { sC with boot := { sC.boot with slotB := { valid := true, accepted := true, header := ⟨3, 3, 0, 5⟩, words := [] } } }

/-- A swap to image B is in progress, its cores reset when `r`. -/
def sSwap (r : Bool) : State :=
  regs [(GLB_BOOT_SWAP_PEND, 1)] { sImages with boot := { sImages.boot with swap := some ⟨900, r, safe []⟩ } }

/-- Image B runs and its commit is being written. -/
def sCommit : State := { sImages with boot := { sImages.boot with running := 1, jobs := [.commit (safe []) 1 5] } }

/-- A STANDBY, which is leaving when `b`. -/
def sLeaves (b : Nat) : State := { regs [(PAIR_STATUS_ROLE, 2), (MOD_STATUS_LEAVING, b)] s0 with tie := { since := some 5 } }

/-- The entry of power state `g` is in the phase `p`; the island watches source 4 and is powered by its supply. -/
def sSleep (p : PwrPhase) : State := regs [(PWR_WAKE_CFG_EN, 0xF), (RTC_STATUS_SRC, 0), (PWR_BASE_BASE, 0x1FFFF)] { s0 with power := { phase := p } }

/-- Domain `d` is at `x`, PF0 votes for the other groups when `b`. -/
def sDomain (d : Nat) (x : Domain) (b : Bool) : State :=
  regs [(PWR_BASE_BASE, if b then 0x1FFFF else 0x1FFFF - 2 ^ groupOf d), (BST_CFG_ENABLE 1, 1)] { s0 with power := { domains := [(d, x)] } }

/-- The last second of a day, a staged time and a waiting command. -/
def sClock (c : Cal) (good : Bool) : State :=
  regs [(RTC_STATUS_STAGED, 1)]
    { sC with rtc := { cal := c, time := some (if good then 23 else 24, 59, 59), ready := true, cmds := [safe [0, 0]] } }

/-- A record of the Field Book. -/
def record : FbRec := ⟨7, 0x0840, 1, 2, 0xD1, 0, false, 5, {}, 0, 3⟩

/-- A fault was detected and waits for its record; the Field Book is ready and writes `half`; no session is open. -/
def sBook (half : Option FbRec) : State :=
  { s0 with regs := [(GLB_BOOT_FW_READY.key, 1), (FB_STATUS_READY.key, 1)], faults := [⟨0x0501, 0x20, 9, 0, 990, false⟩]
            book := { queue := [record], half, nextSeq := 8 } }

/-- Both copies of the Field Book hold the record 7, and it is scanned. -/
def sScan (ready : Nat) : State :=
  let x : FbSlot := { value := record.words, compl := record.words.map (~~~ ·) }
  regs [(FB_STATUS_READY, ready), (PRT_STAT_LATCH 31, 1), (MON_STAT_EXCHANGED 15, 1)] { sC with book := { copyA := { pos := 1, slots := [(0, x)] }, copyB := { pos := 1, slots := [(0, x)] }, nextSeq := 8 } }

/-- PF0's slots: the pair of monitor 15 was begun in cycle `c`, with thresholds 100 and 900. -/
def sSlot (c : Nat) : State := { s0 with slots := [(pairedOff 18, ⟨0x03840064, c, false⟩)] }

/-- A wheel description of 12 positions, one missing, without cams, as `LOAD_WHEEL` carries it. -/
def wheelMsg : Msg := msg ([0x03146100, 0, 0, 0x01000021, 0x10000000] ++ List.replicate 32 0)

/-- The engine at rest with the wheel `w60` and one station; client 3 owns channel 0 and slot 0 is valid. -/
def sRest : State :=
  regs [(DRV_PROF_VALID0_VALID, 1), (HL_OWN_VALID 0, 1), (HL_OWN_OWNER 0, 3), (WHL_IN_CFG_ENABLE 0, 1), (SEQ_QUOTA_QUOTA 3, 4)] { sC with angle := { wheel := some w60, stations := [0] } }

/-- The same in LOCKED: the wheel turns. -/
def sTurns : State := regs [(WHL_STATUS_STATE, 2)] sRest

/-- In SIGHTED. -/
def sSighted : State := regs [(WHL_STATUS_STATE, 1), (WHL_STATUS_CRANK_SRC, 0)] sRest

/-- Client 3 owns pulse pair 3, of which a loaded bank waits to be exchanged when `b`; context 48 is halted and 63 runs. -/
def sOwned (b : Nat) : State :=
  regs [(PLS_CTRL_OWNER 3, 3), (PLS_CTRL_LOADED 3, b), (PLS_CTRL_RUNNING 3, 0x8000)]
    { sC with pulse := { ctxs := [(63, { run := .ready 4 1 5 none, pc := 9 })]
                         pairs := [(3, { params := [(2047, (9, 2 ^ 32 - 10))], queues := [(8, List.replicate 31 1), (12, [5, 6])], bank0 := { binds := [{ enable := true }] } })] } }

/-- `sOwned` in the second half of a pace. -/
def sOwnedLate : State := { sOwned 0 with cyc := 1060 }

/-- An image for pair 3 of one word, with no context enabled. -/
def imageMsg : Msg :=
  let body : List Word := (List.range 16).flatMap (fun _ => [0, 0xFFFFFFFF, 0, 0]) ++ [0x12345678]
  msg ([3, 1, (crc32 (bytesOf body)).toNat, 0] ++ body.map (·.toNat))

/-- Descriptor 4 of client 3 in stage `g` with the flags `f`, on channel 0 whose lane is OFF. -/
def sEvents (g : Stage) (f : Nat) : State :=
  regs [(CLI_SEQ_USE_USED 3, 1)] { sRest with seq := { descs := [(4, { d0 with stage := g, flags := f })] } }

/-- An event of client 3 on channel 0, as `ARM_EVENT` carries it. -/
def armMsg : Msg := msg [0, 0x00100000, 1000, 0, 0, 0]

/-! ### The same at other moments -/

/-- `sRef` whose ring holds nothing. -/
def sRefBare : State := { sRef 2 with acq := {} }

/-- An open knock window with its record's place. -/
def window : Knock := { addr := some 8, sum := 2 ^ 40 + 5, samples := 70000, cycle := 76, lost := true, next := 1000, close := 5001 }

/-- `sLine` at the 60th millisecond. -/
def sLineLate : State := { sLine 0 0 with cyc := 2400000 }

/-- A message being sent over CAN FD. -/
def canSending : CanTx := { bytes := List.replicate 64 5, next := 15, waitFc := false, left := none, since := 5 }

/-- A message being received over CAN FD. -/
def canReceiving : CanRx := { bytes := [1], len := 100, next := 1, left := 0, since := 5 }

/-- `sCan` ten seconds later. -/
def sCanLate : State := { sCan with cyc := 10 ^ 9 }

/-- `sLocked` at the last tooth before the gap. -/
def sCoasts : State := regs [(WHL_STATUS_TOOTH_POS, 59)] { sLocked with cyc := 1160 }

/-- `sAcq` a pace later. -/
def sAcqLate : State := { sAcq with cyc := 1100 }

/-- `sDma` with retries allowed on channel 0. -/
def sDmaRetries : State := regs [(DMA_CTRL_RETRY_N 0, 2)] sDma

/-- `sEvents` with client 3 an ordinary one. -/
def sPlain : State := regs [(HL_CLIENT_CLASS 3, 0)] (sEvents .waiting 0)

/-- Descriptor `d0`, running. -/
def dRunning : Desc := { d0 with stage := .running, flags := 1 }

/-- Descriptor `d0`, waiting. -/
def dWaiting : Desc := { d0 with stage := .waiting }

/-- Descriptor `d0`, running since cycle 900. -/
def dOn : Desc := { d0 with stage := .running, onAt := some 900 }

/-- `sHandover` a second later. -/
def sHandoverLate : State := { sHandover with cyc := 40000005 }

/-- An encoder whose input A is high. -/
def sEncoder : State := { sPos 2 2 with periph := { positions := [(0, { a := true })] } }

/-- A position interface that has received nothing. -/
def sStill : State := { sPos 4 2 with periph := {} }

/-- Two profile frames, of either half of the outputs. -/
def frameA : Frame := { output := 35, serial := 7 }
@[inherit_doc frameA] def frameB : Frame := { output := 51, serial := 8 }

/-- `sLink` with the other wire's turn. -/
def sLinkTurn : State := { sLink with seq := { sLink.seq with turn := 1 } }

/-- Memories and quotas in use. -/
def sQuotas : State := regs [(PLS_CTRL_RUNNING 0, 5), (CLI_SEQ_USE_USED 3, 10), (SEQ_QUOTA_QUOTA 3, 10)] s0

/-- No image valid. -/
def sNoImage : State :=
  { regs [(GLB_BOOT_FW_READY, 0)] sImages with boot := { sImages.boot with slotB := { sImages.boot.slotB with valid := false }, slotA := { sImages.boot.slotA with valid := false } } }

/-- `sRest` with the wheel of twelve positions. -/
def sRestTwelve : State := { sRest with angle := { sRest.angle with wheel := some wTwelve } }

/-- `sPulse` with a lane fault on the last lane. -/
def sLaneFault : State := { sPulse with seq := { sPulse.seq with lanes := [(51, { fault := true })] } }

/-- `sDrive` with a tooth ten cycles ago. -/
def sTurning : State := { sDrive with angle := { lastTooth := some 990 } }

/-- A notice of two words for client 3. -/
def notice : ModMsg := ⟨3, 0x280, 5, 0, 0, true, [1, 2]⟩

/-- A slot of the record `record`. -/
def bookSlot : FbSlot := { value := record.words, compl := record.words.map (~~~ ·) }

/-- Two words of an image. -/
def chunk : List Word := [5, 6]

/-- The command `c` completes from the state `s`. -/
def Goes (c : Instr) (s : State) : Prop := ∃ t, exec c s = .next t

theorem goes_of_runs {c : Instr} {s : State} {P : State → Prop} (h : Runs c s P) : Goes c s := h.imp fun _ x => x.1

theorem goes_of_answers {c : Instr} {s : State} {o : Nat} {m : Msg} {l : List Word} {P : State → Prop} (h : Answers c s o m l P) : Goes c s :=
  h.elim fun _ x => ⟨_, x.1⟩

theorem goes_of_refuses {c : Instr} {s : State} {o : Nat} {m : Msg} {k d : Nat} {P : State → Prop} (h : Refuses c s o m k d P) : Goes c s :=
  h.elim fun _ x => ⟨_, x.1⟩

/-- The profile `prof` for slot 63, as `PROFILE_PUT` carries it. -/
def profileMsg : Msg := msg ((prof 0x3F0000 5000 hold (2 ^ 32 - 1)).map (·.toNat))

/-- What holds of the default and of every listed entry holds of every entry. -/
theorem get_all {α : Type} (P : α → Bool) {d : α} {m : Tbl α} (hd : P d = true) (h : m.all (fun p => P p.2) = true) (k : Nat) : P (Tbl.get d m k) = true := by
  induction m with
  | nil => exact hd
  | cons p m ih =>
    simp only [List.all_cons, Bool.and_eq_true] at h
    simp only [Tbl.get, Tbl.find]
    split
    · exact h.1
    · exact ih h.2

theorem lanes_off {s : State} (h : s.seq.lanes.all (fun p => !p.2.on) = true) (o : Nat) : (laneAt s o).on = false := by
  simpa [laneAt] using get_all (fun x : Lane => !x.on) rfl h o

theorem channels_off {s : State} (h : s.drive.chans.all (fun p => !p.2.lane) = true) (c : Nat) : (chan s c).lane = false := by
  simpa [chan] using get_all (fun x : Chan => !x.lane) rfl h c

theorem auxiliaries_off {s : State} (h : s.drive.aux.all (fun p => !p.2.lane) = true) (n : Nat) : (auxAt s n).lane = false := by
  simpa [auxAt] using get_all (fun x : Aux => !x.lane) rfl h n

theorem contexts_stopped {s : State} (h : s.pulse.ctxs.all (fun p => !p.2.runs) = true) (n : Nat) : (ctxAt s n).runs = false := by
  simpa [ctxAt] using get_all (fun x : PCtx => !x.runs) rfl h n

/-- A flag of a register array is clear where no written field lies at its bit. -/
theorem flags_clear {s : State} (f : Nat → Fld) (lo : Nat) (hf : ∀ n, (f n).lo = lo ∧ (f n).reset = 0) (hl : lo < 32)
    (h : s.regs.all (fun p => p.1 % 32 != lo) = true) (n : Nat) : isSet s (f n) = false := by
  have : ∀ l : Tbl Nat, l.all (fun p => p.1 % 32 != lo) = true → Tbl.find l (f n).key = none := by
    intro l
    induction l with
    | nil => intro _; rfl
    | cons p l ih =>
      intro h
      simp only [List.all_cons, Bool.and_eq_true, bne_iff_ne] at h
      have : p.1 ≠ (f n).key := by simp only [Fld.key, (hf n).1]; omega
      simp [Tbl.find, this, ih h.2]
  simp [isSet, rd, Tbl.get, this _ h, (hf n).2]

/-- A partner whose frame shows no channel ON has none ON. -/
theorem partner_off {s : State} (h5 : partnerWord s 5 = 0) (h6 : partnerWord s 6 = 0) (c : Nat) : partnerOn s c = false := by
  simp [partnerOn, h5, h6, bitOf, bits]

/-- A pace of the boost supplies at 100 V, and of the auxiliary outputs with the fourth feed at its highest. -/
def boostPace : BoostRun := ⟨100, ⟨4095, 0, 0, []⟩, ⟨0, 0, 0, []⟩⟩
@[inherit_doc boostPace] def auxPace : AuxRun := ⟨100, 140, 0xFF000000#32, [], []⟩

/-- Crank A and cam A changed in cycle 1,000, and their filters ask for 63 cycles. -/
def sChatters : State :=
  regs [(WHL_IN_CFG_FILTER_N 0, 63), (WHL_IN_CFG_FILTER_N 2, 63)] { sCrank with angle := { sensors := [(0, { changed := 1000 }), (2, { changed := 1000 })] } }

/-- `sLocked` while the phase test waits for its next start. -/
def sRetests : State := { sLocked with angle := { sLocked.angle with retest := true, mean := Frac.int 200000 } }

/-- `sLocked` after as many coasts as the configuration allows. -/
def sCoastsLast : State := { sLocked with angle := { sLocked.angle with coasts := angCfg sLocked ANG_CFG_COAST_K + 1 } }

/-- A takeover that silence triggers in cycle 1,001. -/
def sSilent : State := { sTakeover 1 with tie := { (sTakeover 1).tie with takeover := some (1, 1001) } }

theorem timers_unmoved {s : State} (h : s.periph.timers.all (fun p => p.2.acted.isNone) = true) (n : Nat) : (timerAt s n).acted = none := by
  simpa [timerAt] using get_all (fun x : Timer => x.acted.isNone) rfl h n

/-- Actions of the last cycle for pins that are outputs, one of them asked for twice. -/
def sActions : State := regs [(TMR_PIN_DIR, 0x7F)] { s0 with periph := { tio := 1, tioActs := [⟨0, 0, 2⟩, ⟨1, 0, 1⟩, ⟨27, 6, 3⟩, ⟨3, 7, 1⟩] } }

/-- An encoder on interface 5 counts by twos past a compare value at 3, and its inputs changed in cycle 10. -/
def sCompares : State :=
  regs [(POS_CFG_MODE 5, 1), (POS_CFG_HYST 5, 0), (POS_RAW_R 5, 2), (POS_COUNT_C 5, 2), (POS_STEP_STEP 5, 2), (POS_CMP_CMP_POS 5, 3)]
    { s0 with cyc := 10 ^ 6, periph := { positions := [(5, { aAt := some 10, bAt := some 10, zAt := some 10 })] } }

/-- `sPos` whose inputs changed in the cycle before, with filters of 63 cycles. -/
def sPosChatters : State := regs [(POS_CFG_FILTER_N 0, 63)] { sPos 1 2 with periph := { positions := [(0, { aAt := some (10 ^ 6), bAt := some (10 ^ 6), zAt := some (10 ^ 6) })] } }

/-- `sTimers` with a capture input that has just changed. -/
def sCaptured : State := regs [(TMR_CLK_FILTER_N 0, 63)] { sTimers with periph := { timers := [(0, { start := some 900, passed := some (1000, false) })] } }

/-- `sPos` with an SSI encoder of eight bits. -/
def sSsi : State := regs [(POS_PROTO_LEN 0, 7), (POS_PROTO_TICK_HALF 0, 100)] (sPos 4 2)

/-- `sRing` with a response that waits for returned entries. -/
def sOwes : State := { sRing [] 0 with host := { (sRing [] 0).host with clients := [(3, { owed := [(15, false, notice)] })] } }

/-- `sCanLate` with a message on binding 15 that waits for its flow control, and none being received on it. -/
def sCanWaits : State := { sCanLate with can := { sCanLate.can with bindings := [(15, { tx := some { canSending with waitFc := true } })] } }

theorem others_kept {s : State} {d p : Nat}
    (h : (List.range 143).all (fun k => k == d || k == p || (domainAt s k == .on && wanted s (votes s) k)) = true) (k : Nat)
    (hk : k < 143 ∧ k ≠ d ∧ k ≠ p) : domainAt s k = .on ∧ wanted s (votes s) k = true := by
  have := List.all_eq_true.1 h k (List.mem_range.2 hk.1)
  simp only [Bool.or_eq_true, Bool.and_eq_true, beq_iff_eq] at this
  exact this.resolve_left (not_or.2 hk.2)

/-! ### Terms that well-formedness refuses: one for each check -/

theorem test_wf_message_client : (Instr.echo { msg [] with client := 256 }).wellFormed = false := by decide
theorem test_wf_message_seq : (Instr.echo { msg [] with seq := 65536 }).wellFormed = false := by decide
theorem test_wf_message_words : Msg.wellFormed { msg [] with words := List.replicate 16385 0 } = false := by decide +kernel
theorem test_wf_message_room : (Instr.echo { msg [] with rspLen := 65537 }).wellFormed = false := by decide
theorem test_wf_message_address : (Instr.echo { msg [] with rspAddr := 2 ^ 64 }).wellFormed = false := by decide
theorem test_wf_message_good : (Instr.echo { msg [5] with client := 255, seq := 65535, rspLen := 65536, rspAddr := 2 ^ 64 - 1 }).wellFormed = true := by decide
theorem test_wf_upset_descriptor : (Instr.pace 0 0 [] [] [] none [.eccFailed 32768]).wellFormed = false := by decide
theorem test_wf_upset_memory : (Instr.pace 0 0 [] [] [] none [.memory 32768]).wellFormed = false := by decide
theorem test_wf_upset_load : (Instr.pace 0 0 [] [] [] none [.eccCorrected, .load 32768]).wellFormed = false := by decide
theorem test_wf_upset_pair : (Instr.pace 0 0 [] [] [] none [.disagree 4]).wellFormed = false := by decide
theorem test_wf_upset_context : (Instr.pace 0 0 [] [] [] none [.fetch 64]).wellFormed = false := by decide
theorem test_wf_upset_param_pair : (Instr.pace 0 0 [] [] [] none [.param 4 0 1]).wellFormed = false := by decide
theorem test_wf_upset_param_address : (Instr.pace 0 0 [] [] [] none [.param 0 2048 1]).wellFormed = false := by decide
theorem test_wf_upset_param_mask : (Instr.pace 0 0 [] [] [] none [.param 0 0 (2 ^ 32)]).wellFormed = false := by decide
theorem test_wf_upset_slot : (Instr.pace 0 0 [] [] [] none [.profile 64 0 1]).wellFormed = false := by decide
theorem test_wf_upset_slot_word : (Instr.pace 0 0 [] [] [] none [.profile 63 28 1]).wellFormed = false := by decide
theorem test_wf_upset_trim : (Instr.pace 0 0 [] [] [] none [.trim 36 1]).wellFormed = false := by decide
theorem test_wf_boost_cycles : (Instr.boostFail 0 0 3 [{ boostPace with cycles := 2 ^ 64 }]).wellFormed = false := by decide
theorem test_wf_aux_cycles : (Instr.auxShort 0 0 [{ auxPace with cycles := 2 ^ 64 }]).wellFormed = false := by decide
theorem test_wf_aux_amps : (Instr.auxOpenLoad 0 0 [{ auxPace with amps := List.replicate 17 0 }]).wellFormed = false := by decide
theorem test_wf_aux_volts : (Instr.auxBackfeed 0 0 [{ auxPace with volts := List.replicate 17 0 }]).wellFormed = false := by decide
theorem test_wf_pace_stretches : (Instr.pace 0 0 [boostPace] [] [auxPace] none [.trim 35 1]).wellFormed = true := by decide
theorem test_wf_tracker : (Instr.trackerDisagree 0 (2 ^ 24) false).wellFormed = false := by decide
theorem test_wf_ring_entry : ringRead (some (List.replicate 17 0)) = false := by decide
theorem test_wf_ring_entries : ringRead (some (List.replicate 272 0)) = false := by decide +kernel
theorem test_wf_ring_read : (Instr.requestRead 0 0 (some [0])).wellFormed = false := by decide
theorem test_wf_buffer : bufferRead (some (List.replicate 16385 0)) = false := by decide +kernel
theorem test_wf_load : (Instr.loadWindow 0 101).wellFormed = false := by decide
theorem test_wf_can_length : (Instr.canFrameReceived 0 0 true 0 true (List.replicate 65 0)).wellFormed = false := by decide
theorem test_wf_can_identifier : (Instr.canFrameReceived 0 0 false 2048 true []).wellFormed = false := by decide
theorem test_wf_intc_source : (Instr.intcRequest 0 389 true).wellFormed = false := by decide
theorem test_wf_sent_pulses : (Instr.sentFrame 0 0 (List.replicate 13 0)).wellFormed = false := by decide
theorem test_wf_offset_low : (Instr.senseCalDone 0 0 (-2049)).wellFormed = false := by decide
theorem test_wf_offset_high : (Instr.senseCalDone 0 0 2048).wellFormed = false := by decide

/-! ### Effects worked out by hand -/

/-- `f` holds of the state after `c` has run from `s`. -/
def after (c : Instr) (s : State) (f : State → Bool) : Bool :=
  match exec c s with
  | .next t => f t
  | _ => false

/-- Table 5-4: 0xFFFF_FFFF + 1 wraps to 0, and no flag is kept. -/
theorem test_add_wraps : after (.add 0 0 2 1 (.imm 1)) sPulse (fun t => (ctxAt t 0).reg 2 == 0 && (ctxAt t 0).pc == 6) = true := by decide +kernel

/-- Table 5-4: the immediate 0x1FFFF is −1, and 1 − (−1) is 2, the source the destination too. -/
theorem test_sub_sign_extends : after (.sub 0 0 6 6 (.imm 0x1FFFF)) sPulse (fun t => (ctxAt t 0).reg 6 == 2) = true := by decide +kernel

/-- Table 5-4: the low halves alone are multiplied, 0xFFFF × 0xFFFF = 0xFFFE_0001. -/
theorem test_mul16_low_halves : after (.mul16 0 0 2 1 (.reg 1)) sPulse (fun t => (ctxAt t 0).reg 2 == 0xFFFE0001) = true := by decide +kernel

/-- R166: the complement is stored beside the word. -/
theorem test_stp_complement : after (.stp 0 0 0 6 0) sPulse (fun t => paramAt t 0 1 == (7, 0xFFFFFFF8)) = true := by decide +kernel

/-- R462: 28 February of a leap year is followed by the 29th. -/
theorem test_rtc_leap_day :
    after (.rtcSecond 1) (sClock ⟨2024, 2, 28, 23, 59, 59⟩ true) (fun t => t.rtc.cal == ⟨2024, 2, 29, 0, 0, 0⟩) = true := by decide +kernel

/-- R462: 2100 is no leap year. -/
theorem test_rtc_century :
    after (.rtcSecond 1) (sClock ⟨2100, 2, 28, 23, 59, 59⟩ true) (fun t => t.rtc.cal == ⟨2100, 3, 1, 0, 0, 0⟩) = true := by decide +kernel

/-- The published check value of the CRC-32 that the spec names: that of the bytes of "123456789". -/
theorem test_crc32 : crc32 [0x31, 0x32, 0x33, 0x34, 0x35, 0x36, 0x37, 0x38, 0x39] = 0xCBF43926 := by decide +kernel

/-- No words spell a command. -/
theorem test_decode_none : decodeTableWord 32 5 = none := rfl

/-- An empty queue leaves the state, and a command waiting runs (log entry 1). -/
theorem test_step_idle : step s0 = .next s0 := rfl
theorem test_step_front : after (.vrArmTimeout 1 0) s0 (fun t => t.cyc == 1001) = true := by decide +kernel

/-! ### Witnesses: for every clause of every statement, a state and operands that meet its hypotheses

Each theorem takes the statement and concludes, of a concrete command and a concrete state for each clause, that the command completes; its
proof is the clause at these operands, with every hypothesis discharged by evaluation. -/

theorem witness_PulseParameters (h : Obligations.PulseParameters) :
    Goes (.stp 0 0 15 15 2047) sPulse ∧
    Goes (.ldp 0 0 15 15 2047) sPulse ∧
    Goes (.stp 0 63 15 3 0) sPulse ∧
    Goes (.ldp 0 0 15 4 0) sPulse ∧
    Goes (.ldp 0 0 15 3 0) sPulse := by
  refine ⟨goes_of_runs (((h 0 0 15 15 2047 sPulse ?_).2 ?_).1),
    goes_of_runs (((h 0 0 15 15 2047 sPulse ?_).2 ?_).2),
    goes_of_runs (((h 0 63 15 3 0 sPulse ?_).1 ?_).1),
    goes_of_runs (((h 0 0 15 4 0 sPulse ?_).1 ?_).2.1 ?_),
    goes_of_runs (((h 0 0 15 3 0 sPulse ?_).1 ?_).2.2 ?_)⟩ <;>
  first
  | decide +kernel
  | (unfold GoesOn; decide +kernel)

theorem witness_PulseInstructions (h : Obligations.PulseInstructions) :
    Goes (aluCommand .mul16 0 0 15 15 (.imm 0x1FFFF#17)) sPulse ∧
    Goes (aluCommand .add 50 63 0 1 (.reg 15)) sPulse ∧
    Goes (.br 0 0 4095) sPulse ∧
    Goes (.brz 0 0 15 4095) sPulse ∧
    Goes (.brn 0 0 1 0) sPulse ∧
    Goes (.brc 0 0 6 4095) sPulse ∧
    Goes (.waite 0 0 15 none true 0 31) sPulse ∧
    Goes (.waite 0 0 15 (some 15) false 3 7) sPulse ∧
    Goes (.stk 0 0 15 15 3 3) sPulse ∧
    Goes (.capt 0 0 15 15 13) sPulse ∧
    Goes (.qin 0 63 0 12) sPulse ∧
    Goes (.qout 0 63 0 8) sPulse := by
  refine ⟨goes_of_runs (h.1 .mul16 0 0 15 15 (.imm 0x1FFFF#17) sPulse ?_),
    goes_of_runs (h.1 .add 50 63 0 1 (.reg 15) sPulse ?_),
    goes_of_runs ((h.2.1 0 0 15 4095 sPulse ?_).1),
    goes_of_runs ((h.2.1 0 0 15 4095 sPulse ?_).2.1),
    goes_of_runs ((h.2.1 0 0 1 0 sPulse ?_).2.2.1),
    goes_of_runs ((h.2.1 0 0 6 4095 sPulse ?_).2.2.2),
    goes_of_runs ((h.2.2 0 0 15 15 sPulse ?_ ?_).1 none true 0 31 ?_),
    goes_of_runs ((h.2.2 0 0 15 15 sPulse ?_ ?_).1 (some 15) false 3 7 ?_),
    goes_of_runs ((h.2.2 0 0 15 15 sPulse ?_ ?_).2.1 3),
    goes_of_runs ((h.2.2 0 0 15 15 sPulse ?_ ?_).2.2.1 13 ?_),
    goes_of_runs (((h.2.2 0 63 0 0 sPulse ?_ ?_).2.2.2 12).1 ?_),
    goes_of_runs (((h.2.2 0 63 0 0 sPulse ?_ ?_).2.2.2 8).2 ?_ ?_)⟩ <;>
  first
  | decide +kernel
  | (unfold GoesOn; decide +kernel)

theorem witness_PulseWaits (h : Obligations.PulseWaits) :
    Goes (.waita 0 0 15 15 none) sPulse ∧
    Goes (.waita 0 0 15 15 (some 14)) sPulse ∧
    Goes (.waite 0 0 15 none false 3 3) sPulse ∧
    Goes (.waite 0 0 15 (some 14) true 1 31) sPulse ∧
    Goes (.waita 0 0 15 15 (some 7)) sPulse ∧
    Goes (.waite 0 0 15 (some 7) true 1 8) sPulse ∧
    Goes (.waitt 0 0 15 14 false) sPulse ∧
    Goes (.waitt 0 0 15 14 true) sPulse ∧
    Goes (.waitt 0 0 15 9 false) sPulse ∧
    Goes (.waitt 0 0 15 5 true) sPulse ∧
    Goes (.waitt 0 0 15 8 false) sPulse ∧
    Goes (.waitt 0 0 15 0 true) sPulse ∧
    Goes (.waitt 0 0 15 7 false) sPulse ∧
    Goes (.waitt 0 0 15 7 true) sPulse := by
  refine ⟨goes_of_runs (((h 0 0 15 15 sPulse ?_).1 none).1 ?_ |>.1),
    goes_of_runs (((h 0 0 15 15 sPulse ?_).1 (some 14)).1 ?_ |>.1),
    goes_of_runs ((((h 0 0 15 15 sPulse ?_).1 none).1 ?_).2 false 3 3 ?_ ?_),
    goes_of_runs ((((h 0 0 15 15 sPulse ?_).1 (some 14)).1 ?_).2 true 1 31 ?_ ?_),
    goes_of_runs ((((h 0 0 15 15 sPulse ?_).1 (some 7)).2 7 rfl ?_).1),
    goes_of_runs ((((h 0 0 15 15 sPulse ?_).1 (some 7)).2 7 rfl ?_).2 true 1 8 ?_ ?_),
    goes_of_runs (((h 0 0 15 14 sPulse ?_).2 false).1 ?_ ?_),
    goes_of_runs (((h 0 0 15 14 sPulse ?_).2 true).1 ?_ ?_),
    goes_of_runs (((h 0 0 15 9 sPulse ?_).2 false).2.1 ?_),
    goes_of_runs (((h 0 0 15 5 sPulse ?_).2 true).2.1 ?_),
    goes_of_runs (((h 0 0 15 8 sPulse ?_).2 false).2.2.1 ?_),
    goes_of_runs (((h 0 0 15 0 sPulse ?_).2 true).2.2.1 ?_),
    goes_of_runs (((h 0 0 15 7 sPulse ?_).2 false).2.2.2 ?_),
    goes_of_runs (((h 0 0 15 7 sPulse ?_).2 true).2.2.2 ?_)⟩ <;>
  first
  | decide +kernel
  | (unfold GoesOn; decide +kernel)
  | (intro c hc; cases hc; decide +kernel)
  | exact Or.inr (by decide)

theorem witness_PulseStakes (h : Obligations.PulseStakes) :
    Goes (.stk 0 0 15 7 0 0) sPulse ∧
    Goes (.stk 0 0 15 15 0 0) sPulseFull ∧
    Goes (.stk 0 0 15 15 0 2) sPulse ∧
    Goes (.stk 0 0 15 8 2 0) sPulse ∧
    Goes (.stk 0 0 15 5 2 0) sPulse ∧
    Goes (.stk 0 0 15 5 3 0) sPulse ∧
    Goes (.adct 0 0 15 15 0) sPulse ∧
    Goes (.adct 0 0 15 15 15) sPulse ∧
    Goes (.adct 0 0 15 15 14) sPulse ∧
    Goes (.capt 0 0 15 15 0) sPulse ∧
    Goes (.capt 0 0 15 15 12) sPulse ∧
    Goes (.capt 0 0 15 15 1) sPulse ∧
    Goes (.capt 0 0 15 15 2) sPulse ∧
    Goes (.capt 0 63 15 15 11) sPulse := by
  refine ⟨goes_of_runs (((h 0 0 15 7 sPulse ?_).1 0 0 ?_).1 ?_ |>.1 ?_),
    goes_of_runs ((((h 0 0 15 15 sPulseFull ?_).1 0 0 ?_).1 ?_).2 ?_ |>.1 ?_),
    goes_of_runs (((((h 0 0 15 15 sPulse ?_).1 0 2 ?_).1 ?_).2 ?_).2 0 ?_ |>.1 ?_),
    goes_of_runs (((((h 0 0 15 8 sPulse ?_).1 2 0 ?_).1 ?_).2 ?_).2 0 ?_ |>.2.1 ?_ ?_),
    goes_of_runs (((((h 0 0 15 5 sPulse ?_).1 2 0 ?_).1 ?_).2 ?_).2 0 ?_ |>.2.2 ?_ ?_),
    goes_of_runs (((h 0 0 15 5 sPulse ?_).1 3 0 ?_).2 _ rfl),
    goes_of_runs (((((h 0 0 15 15 sPulse ?_).2.1 0).1 ?_).2 ?_).2 0 ?_ |>.1 ?_),
    goes_of_runs (((((h 0 0 15 15 sPulse ?_).2.1 15).1 ?_).2 ?_).2 0 ?_ |>.1 ?_),
    goes_of_runs (((h 0 0 15 15 sPulse ?_).2.1 14).2 ?_),
    goes_of_runs ((h 0 0 15 15 sPulse ?_).2.2.1),
    goes_of_runs ((h 0 0 15 15 sPulse ?_).2.2.2.1 12 ?_ ?_),
    goes_of_runs ((h 0 0 15 15 sPulse ?_).2.2.2.1 1 ?_ ?_),
    goes_of_runs ((h 0 0 15 15 sPulse ?_).2.2.2.2.1),
    goes_of_runs ((h 0 63 15 15 sPulse ?_).2.2.2.2.2)⟩ <;>
  first
  | decide +kernel
  | (unfold GoesOn; decide +kernel)

theorem witness_PulseQueues (h : Obligations.PulseQueues) :
    Goes (.qin 1 0 0 0) sPulse ∧
    Goes (.qin 1 0 0 11) sPulse ∧
    Goes (.qin 1 0 0 7) sPulse ∧
    Goes (.qout 1 0 0 0) sPulse ∧
    Goes (.qout 1 0 0 12) sPulse ∧
    Goes (.qout 1 0 0 5) sPulse := by
  refine ⟨goes_of_runs (((h 1 0 0 0 sPulse ?_).1 ?_).1 3 [4] ?_),
    goes_of_runs (((h 1 0 0 11 sPulse ?_).1 ?_).1 8 [] ?_),
    goes_of_runs (((h 1 0 0 7 sPulse ?_).1 ?_).2 ?_),
    goes_of_runs (((h 1 0 0 0 sPulse ?_).2 ?_).1 ?_),
    goes_of_runs (((h 1 0 0 12 sPulse ?_).2 ?_).1 ?_),
    goes_of_runs (((h 1 0 0 5 sPulse ?_).2 ?_).2 ?_)⟩ <;>
  first
  | decide +kernel
  | (unfold GoesOn; decide +kernel)

theorem witness_PulseStepEnds (h : Obligations.PulseStepEnds) :
    Goes (.yield 1 0) sPulse ∧
    Goes (.halt 1 63) sPulse := by
  refine ⟨goes_of_runs ((h 1 0 sPulse ?_ ?_).1),
    goes_of_runs ((h 1 63 sPulse ?_ ?_).2)⟩ <;>
  decide +kernel

theorem witness_PulseWakes (h : Obligations.PulseWakes) :
    Goes (.pulseWake 1 31) sPulseWaits ∧
    Goes (.pulseWake 1 32) sPulseWaits ∧
    Goes (.pulseWake 1 47) sPulseWaits := by
  refine ⟨goes_of_runs ((h 1 31 sPulseWaits ?_ ?_ ?_ ?_ ?_).1 true 3 1158 ?_ ?_ ?_),
    goes_of_runs ((h 1 32 sPulseWaits ?_ ?_ ?_ ?_ ?_).2.1 0 5 ?_ ?_),
    goes_of_runs ((h 1 47 sPulseWaits ?_ ?_ ?_ ?_ ?_).2.2 7 9 ?_ ?_)⟩ <;>
  decide +kernel

theorem witness_PulseEvents (h : Obligations.PulseEvents) :
    Goes (.waitLimitExpiry 1 0) sPulseWaits ∧
    Goes (.pulseStakeFire 1 0 0 true true) sPulseWaits ∧
    Goes (.pulseStakeFire 1 0 31 true true) sPulseWaits ∧
    Goes (.pulseStakeFire 1 0 5 true true) sPulseWaits ∧
    Goes (.pulseStakeFire 1 0 31 false true) sPulseWaits ∧
    Goes (.pulseBankExchange 1 3) sExchange := by
  refine ⟨goes_of_runs ((h 1 0 3 sPulseWaits ?_).1 false 1 11 ?_ ?_ ?_ ?_ ?_ ?_ ?_ ?_),
    goes_of_runs (((h 1 0 0 sPulseWaits ?_).2.1 0 ⟨0, 0x80, 0, 1160⟩ ?_).1 ?_ |>.1 ?_ ?_ ?_),
    goes_of_runs (((h 1 0 0 sPulseWaits ?_).2.1 31 ⟨0, 0x97, 1, 1160⟩ ?_).1 ?_ |>.2.1 ?_ ?_ ?_ ?_),
    goes_of_runs (((h 1 0 0 sPulseWaits ?_).2.1 5 ⟨0, 271, 3, 1160⟩ ?_).1 ?_ |>.2.2 ?_),
    goes_of_runs (((h 1 0 0 sPulseWaits ?_).2.1 31 ⟨0, 0x97, 1, 1160⟩ ?_).2 false),
    goes_of_answers ((h 1 0 3 sExchange ?_).2.2 (msg [1]) 1100 ?_ ?_ ?_ ?_)⟩ <;>
  decide +kernel

theorem witness_StakeFires (h : Obligations.StakeFires) :
    Goes (.stakeFire 1 0 31 false false) sStake ∧
    Goes (.stakeFire 1 0 31 false true) sStake ∧
    Goes (.stakeFire 1 0 31 true false) sEnd ∧
    Goes (.stakeFire 1 0 31 true true) sStake ∧
    Goes (.stakeFire 3 0 31 true true) sStake := by
  refine ⟨⟨_, (h 1 0 31 sStake ⟨4, true, 1001, 1001⟩ d0 ?_ ?_ ?_ ?_ ?_).1⟩,
    goes_of_runs ((h 1 0 31 sStake ⟨4, true, 1001, 1001⟩ d0 ?_ ?_ ?_ ?_ ?_).2.2.1 false ?_),
    goes_of_runs ((h 1 0 31 sEnd ⟨4, false, 1001, 1001⟩ dOn ?_ ?_ ?_ ?_ ?_).2.2.1 true ?_),
    goes_of_runs ((h 1 0 31 sStake ⟨4, true, 1001, 1001⟩ d0 ?_ ?_ ?_ ?_ ?_).2.2.2 ?_ ?_ ?_ ?_ ?_ ?_ ?_),
    ⟨_, (h 3 0 31 sStake ⟨4, true, 1001, 1001⟩ d0 ?_ ?_ ?_ ?_ ?_).2.1 ?_⟩⟩ <;>
  decide +kernel

theorem witness_LinksAndLockstep (h : Obligations.LinksAndLockstep) :
    Goes (.profileFrame 1 true) sLink ∧
    Goes (.profileFrame 1 false) sLink ∧
    Goes (.profileFrame 1 true) sLinkTurn ∧
    Goes (.laneFault 1 51) sPulse ∧
    Goes (.laneFault 1 51) sLaneFault ∧
    Goes (.trackerDisagree 1 8 false) sPulse ∧
    Goes (.trackerDisagree 1 9 false) sPulse ∧
    Goes (.trackerDisagree 1 1 true) sPulse ∧
    Goes (.statusReturnFrame 0) sReport := by
  refine ⟨goes_of_runs ((h.1 1 sLink 0 frameA [] ?_ ?_ ?_).1 ?_ ?_),
    goes_of_runs ((h.1 1 sLink 0 frameA [] ?_ ?_ ?_).2.2 false ?_),
    goes_of_runs ((h.1 1 sLinkTurn 3 frameB [] ?_ ?_ ?_).2.1 ?_ ?_),
    goes_of_runs ((h.2.2.1 1 51 sPulse ?_).1 ?_ ?_),
    ⟨_, (h.2.2.1 1 51 sLaneFault ?_).2 ?_⟩,
    goes_of_runs ((h.2.2.2 1 8 sPulse ?_ ?_).1 ?_),
    goes_of_runs ((h.2.2.2 1 9 sPulse ?_ ?_).2 false ?_ ?_ ?_ ?_),
    goes_of_runs ((h.2.2.2 1 1 sPulse ?_ ?_).2 true ?_ ?_ ?_ ?_),
    goes_of_runs (h.2.1 0 sReport 0 7 1 40 990 4 dOn ?_ ?_ ?_ ?_ ?_ ?_ ?_ ?_)⟩ <;>
  decide +kernel

theorem witness_Paces (h : Obligations.Paces) :
    Goes (.pace 1 4095 [boostPace] [(35, 4095)] [auxPace] none []) sPace := by
  refine goes_of_runs (h 1 4095 boostPace [(35, 4095)] auxPace none sPace ?_ ?_ ?_ ?_ ?_ ?_ ?_ ?_ ?_ ?_ ?_ ?_ ?_ ?_ ?_) <;>
  decide +kernel

theorem witness_NoiseRejected (h : Obligations.NoiseRejected) :
    Goes (.crankEdge 1 false true 65535) sLocked := by
  refine goes_of_runs (h 1 false true 65535 sLocked w60 1000 [900, 800] (Frac.int 100) ?_ ?_ ?_ ?_ ?_ ?_ ?_ ?_ ?_ ?_ ?_ ?_) <;>
  decide +kernel

theorem witness_SensorEdges (h : Obligations.SensorEdges) :
    Goes (.crankEdge 1 false true 65535) sCrank ∧
    Goes (.crankEdge 1 false true 65535) sSeek ∧
    Goes (.crankEdge 1 false true 65535) sChatters ∧
    Goes (.vrArmTimeout 1 0) sCrank ∧
    Goes (.camEdge 0x140 false true 65535) sSeek ∧
    Goes (.camEdge 1 false true 65535) sChatters ∧
    Goes (.camWindowExpiry 0x140) sCams ∧
    Goes (.frozenInput 0x140 2) sFrozen := by
  refine ⟨goes_of_runs (((h.1 1 false true 65535 sCrank ?_ ?_).2 ?_ ?_ ?_ ?_ ?_).1 ?_),
    goes_of_runs (((h.1 1 false true 65535 sSeek ?_ ?_).2 ?_ ?_ ?_ ?_ ?_).2 w60 ?_ ?_ ?_ ?_ ?_ ?_ ?_ ?_ ?_ ?_ ?_ ?_),
    ⟨_, (h.1 1 false true 65535 sChatters ?_ ?_).1 ?_⟩,
    goes_of_runs (h.2.2.1 1 0 sCrank 1000 [900,800] (Frac.int 100) ?_ ?_ ?_),
    goes_of_runs (((h.2.1 0x140 sSeek ?_).1 false true 65535 ?_ ?_).2 ?_ ?_ ?_),
    ⟨_, ((h.2.1 1 sChatters ?_).1 false true 65535 ?_ ?_).1 ?_⟩,
    goes_of_runs ((h.2.1 0x140 sCams ?_).2 w60c ?_ ?_ ?_ ?_ ?_),
    goes_of_runs (h.2.2.2 0x140 2 sFrozen w60c (Frac.int 10) ?_ ?_ ?_ ?_ ?_ ?_)⟩ <;>
  decide +kernel

theorem witness_ChainCourse (h : Obligations.ChainCourse) :
    Goes (.chainWait 0x140) sTurned ∧
    Goes (.benchmarkCrossing 0x140) sTurned ∧
    Goes (.closureLearnEnd 0x140) (sLearn 0) ∧
    Goes (.closureLearnEnd 0x140) (sLearn 0x140) := by
  refine ⟨goes_of_runs (h.1 0x140 sTurned ?_ ?_ ?_ ?_ ?_),
    goes_of_runs (h.2.1 0x140 sTurned w60 ?_ ?_ ?_ ?_ ?_),
    goes_of_answers ((h.2.2 0x140 (sLearn 0) (learning 0) wTwelve ?_ ?_ ?_).1 ?_ ?_),
    ((h.2.2 0x140 (sLearn 0x140) (learning 0x140) wTwelve ?_ ?_ ?_).2 0x140 ?_ ?_).elim fun _ x => ⟨_, x.1⟩⟩ <;>
  first
  | decide +kernel
  | exact fun c => ⟨flags_clear CLI_BANK_AHEAD_PEND _ (fun _ => ⟨rfl, rfl⟩) (by decide) (by decide +kernel) c, flags_clear CLI_BANK_ASTERN_PEND _ (fun _ => ⟨rfl, rfl⟩) (by decide) (by decide +kernel) c⟩

theorem witness_Coasts (h : Obligations.Coasts) :
    Goes (.coast 150) sRetests ∧
    Goes (.coast 150) sCoastsLast ∧
    Goes (.coast 0) sCoasts ∧
    Goes (.coast 1) sLocked := by
  refine ⟨((h 150 sRetests w60 ?_ ?_ ?_ ?_).1 ?_ ?_ ?_ ?_ ?_ ?_).elim fun _ x => ⟨_, x.1⟩,
    ((h 150 sCoastsLast w60 ?_ ?_ ?_ ?_).2.1 ?_ ?_ ?_).elim fun _ x => ⟨_, x.1⟩,
    ((h 0 sCoasts w60 ?_ ?_ ?_ ?_).2.2.1 ?_ ?_).elim fun _ x => ⟨_, x.1⟩,
    ⟨_, (h 1 sLocked w60 ?_ ?_ ?_ ?_).2.2.2 ?_⟩⟩ <;>
  decide +kernel

theorem witness_Phases (h : Obligations.Phases) :
    Goes (.phaseExitTime 1 0) sDrive ∧
    Goes (.phaseExitTime 1 10) sDrive ∧
    Goes (.phaseExitTime 1 35) sDrive ∧
    Goes (.windowComparatorCrossing 1 0 false false) sDrive ∧
    Goes (.windowComparatorCrossing 1 1 true true) sDrive ∧
    Goes (.regulationMinTime 1 4) sDrive ∧
    Goes (.timeOnlyToggle 1 2) sDrive ∧
    Goes (.timeOnlyToggle 200000 2) sDrive ∧
    Goes (.timeOnlyToggle 200000 3) sDrive := by
  refine ⟨goes_of_runs ((h.1 1 0 0 sDrive ?_ ?_ ?_ ?_ ?_).2.1 ?_ ?_ ?_ ?_),
    goes_of_runs ((h.1 1 10 0 sDrive ?_ ?_ ?_ ?_ ?_).2.2 ?_ ?_ ?_),
    goes_of_runs ((h.1 1 35 1 sDrive ?_ ?_ ?_ ?_ ?_).1 ?_),
    goes_of_runs ((h.2.1 1 0 0 sDrive ?_ ?_ ?_ ?_ ?_).1 ?_),
    goes_of_runs ((h.2.1 1 1 0 sDrive ?_ ?_ ?_ ?_ ?_).2.1 ?_ ?_ ?_),
    goes_of_runs ((h.2.1 1 4 0 sDrive ?_ ?_ ?_ ?_ ?_).2.2 true ?_ ?_),
    ⟨_, (h.2.2 1 2 sDrive ?_ ?_ ?_ ?_ ?_ ?_).2 ?_⟩,
    goes_of_runs ((h.2.2 200000 2 sDrive ?_ ?_ ?_ ?_ ?_ ?_).1 ?_),
    goes_of_runs ((h.2.2 200000 3 sDrive ?_ ?_ ?_ ?_ ?_ ?_).1 ?_)⟩ <;>
  first
  | decide +kernel
  | (unfold Regulates; decide +kernel)
  | (unfold MayFeed; decide +kernel)
  | (unfold Regulates MayFeed; decide +kernel)

theorem witness_ChannelEnds (h : Obligations.ChannelEnds) :
    Goes (.decayEnd 1 5 [400]) sDrive ∧
    Goes (.decayEnd 1 8 [400, 0]) sDrive ∧
    Goes (.dutyLimitReached 1 0) sStored ∧
    Goes (.plausTimeout 1 0) sStored ∧
    Goes (.plausTimeout 1 1) sStored := by
  refine ⟨goes_of_runs (h.1 1 1 [400] 5 sDrive ?_ ?_),
    goes_of_runs (h.1 1 2 [400, 0] 8 sDrive ?_ ?_),
    goes_of_runs (h.2.1 1 0 sStored ?_ ?_ ?_ ?_ ?_ ?_ ?_),
    goes_of_runs ((h.2.2 1 0 sStored ⟨1000, 100, 140⟩ ?_ ?_ ?_ ?_ ?_ ?_ ?_).1 ?_),
    goes_of_runs ((h.2.2 1 1 sStored ⟨1000, 100, 140⟩ ?_ ?_ ?_ ?_ ?_ ?_ ?_).2 ?_ ?_)⟩ <;>
  first
  | decide +kernel
  | (unfold MayFeed; decide +kernel)

set_option maxRecDepth 10000 in
theorem witness_DriveSettings (h : Obligations.DriveSettings) :
    Goes (.profileStoreDone 1) sStored ∧
    Goes (.profilePut profileMsg) sStored ∧
    Goes (.profileGet (msg [0])) sStored ∧
    Goes (.channelConfig (msg [35, 0, 0])) sStored ∧
    Goes (.drvChCfgWrite 1 0 0) sDrive ∧
    Goes (.drvChCfgWrite 1 35 0x8A0A3C50) sDrive ∧
    Goes (.drvPairWrite 1 0) sDrive ∧
    Goes (.drvPairWrite 1 0x3FFF) sRest ∧
    Goes (.drvPairWrite 1 0) sTurning := by
  refine ⟨goes_of_answers ((h.1 (msg []) sStored).2.1 1 63 (prof 0 5000 hold (2 ^ 32 - 1)) [] ?_ ?_ ?_),
    goes_of_runs ((h.1 profileMsg sStored).1 ?_ ?_),
    goes_of_answers ((h.1 (msg [0]) sStored).2.2 (stored (prof 0 5000 hold (2 ^ 32 - 1)) 4) ?_ ?_ ?_),
    goes_of_answers ((h.2.1 sStored).1 (msg [35, 0, 0]) ?_ ?_ ?_ ?_ ?_ ?_),
    goes_of_runs (((h.2.1 sDrive).2 1 0 0 ?_ ?_ ?_).1 ?_),
    goes_of_runs (((h.2.1 sDrive).2 1 35 0x8A0A3C50 ?_ ?_ ?_).2 ?_),
    goes_of_runs ((h.2.2 1 0 sDrive ?_ ?_).1 ?_ ?_),
    goes_of_runs ((h.2.2 1 0x3FFF sRest ?_ ?_).1 ?_ ?_),
    goes_of_runs ((h.2.2 1 0 sTurning ?_ ?_).2 ?_)⟩ <;>
  first
  | decide +kernel
  | (unfold Accepted; decide +kernel)

theorem witness_OffsetCalibration (h : Obligations.OffsetCalibration) :
    Goes (.senseCal (msg [1, 0])) sStored ∧
    Goes (.senseCal (msg [1, 0])) (sCal 35 (.pending 5)) ∧
    Goes (.senseCal (msg [0, 8])) (sCal 35 .none) ∧
    Goes (.senseCalDone 0 0 (-2048)) (sCal 0 (.running 5 6)) ∧
    Goes (.senseCalDone 0 0 501) (sCal 0 (.running 5 6)) ∧
    Goes (.senseCalDone 0 0 (-500)) (sCal 0 (.running 5 6)) ∧
    Goes (.senseCalRun 0 35) (sCal 35 (.pending 5)) ∧
    Goes (.senseCalTimeout 0 35) (sCal 35 (.pending 5)) := by
  refine ⟨goes_of_runs ((h 1 0 sStored ?_).1 (msg [1, 0]) ?_ ?_ ?_ ?_ ?_),
    goes_of_runs ((h 0 0 (sCal 35 (.pending 5)) ?_).1 (msg [1,0]) ?_ ?_ ?_ ?_ ?_),
    goes_of_runs ((h 0 35 (sCal 35 .none) ?_).1 (msg [0,8]) ?_ ?_ ?_ ?_ ?_),
    goes_of_answers (((h 0 0 (sCal 0 (.running 5 6)) ?_).2.2 5 6 (-2048) (msg [0,0]) [(0,0)] ?_ ?_ ?_ ?_ ?_).2 ?_),
    goes_of_answers (((h 0 0 (sCal 0 (.running 5 6)) ?_).2.2 5 6 501 (msg [0,0]) [(0,0)] ?_ ?_ ?_ ?_ ?_).2 ?_),
    goes_of_answers (((h 0 0 (sCal 0 (.running 5 6)) ?_).2.2 5 6 (-500) (msg [0,0]) [(0,0)] ?_ ?_ ?_ ?_ ?_).1 ?_),
    goes_of_runs (((h 0 35 (sCal 35 (.pending 5)) ?_).2.1 5 ?_ ?_).1 ?_),
    goes_of_answers (((h 0 35 (sCal 35 (.pending 5)) ?_).2.1 5 ?_ ?_).2 (msg [0,0]) [(35, 0)] ?_ ?_ ?_)⟩ <;>
  first
  | decide +kernel
  | (unfold Accepted; decide +kernel)

theorem witness_BoostSupplies (h : Obligations.BoostSupplies) :
    Goes (.boostPrechargeTimeout 1 0) (sBoost 1) ∧
    Goes (.boostReadyChange 1 0 0) (sBoost 3) ∧
    Goes (.boostFail 1 1 1 []) sBoostBad ∧
    Goes (.boostFail 1 0 2 []) sBoostBad ∧
    Goes (.boostFail 1 0 3 []) sBoostBad ∧
    Goes (.boostDischargeEnd 1 0 499) (sBoost 5) ∧
    Goes (.clampRelease 1 1 0) sDrive ∧
    Goes (.clampEngage 1 1 4095) sDrive ∧
    Goes (.boostWaitExpiry 1 6) sDrive ∧
    Goes (.bstCfgWrite 1 1 false 0) sDrive ∧
    Goes (.bstCfgWrite 1 1 false 0x8A0A3C50) sDrive ∧
    Goes (.boostConfig (safe [1, 0x8A0A3C50, 100])) sStored ∧
    Goes (.boostStatus (msg [1])) sStored := by
  refine ⟨goes_of_runs (((h.1 1 0 (sBoost 1) ?_).2.2 ?_).1 ?_ ?_),
    goes_of_runs ((h.1 1 0 (sBoost 3) ?_).1 0 ?_ ?_),
    goes_of_runs ((((h.1 1 1 sBoostBad ?_).2.2 ?_).2).1 ?_ ?_),
    goes_of_runs ((((h.1 1 0 sBoostBad ?_).2.2 ?_).2).2.1 ?_ ?_),
    goes_of_runs ((((h.1 1 0 sBoostBad ?_).2.2 ?_).2).2.2 ?_ ?_),
    goes_of_runs ((h.1 1 0 (sBoost 5) ?_).2.1 499 ?_ ?_),
    goes_of_runs ((h.2.1 1 1 0 sDrive ?_ ?_ ?_ ?_).2 ?_),
    goes_of_runs ((h.2.1 1 1 0xFFF sDrive ?_ ?_ ?_ ?_).1 ?_ ?_),
    goes_of_runs (h.2.2.1 1 5000 6 sDrive ?_ ?_ ?_ ?_),
    goes_of_runs (((h.2.2.2 sDrive 1).2.2 1 0 ?_ ?_).1 ?_),
    goes_of_runs (((h.2.2.2 sDrive 1).2.2 1 0x8A0A3C50 ?_ ?_).2 ?_ ?_ ?_ ?_ ?_ ?_),
    goes_of_answers ((h.2.2.2 sStored 1).1 (safe [1, 0x8A0A3C50, 100]) ?_ ?_ ?_ ?_ ?_ ?_ ?_ ?_ ?_ ?_),
    goes_of_answers ((h.2.2.2 sStored 1).2.1 (msg [1]) ?_ ?_)⟩ <;>
  first
  | decide +kernel
  | (unfold Accepted; decide +kernel)
  | exact ⟨_, rfl, by decide +kernel⟩

theorem witness_LatchingTrips (h : Obligations.LatchingTrips) :
    Goes (.rampViolation 1 0 false 80 0 4095 0) sSwitched ∧
    Goes (.rampViolation 1 0 true 80 4095 0 4095) sSwitched ∧
    Goes (.rampViolation 1 0 false 0 0 4095 0) sSwitched ∧
    Goes (.desaturation 1 35 false 4095 80) sSwitched ∧
    Goes (.desaturation 1 0 true 4095 80) sSwitched ∧
    Goes (.desaturation 1 0 false 4095 79) sSwitched ∧
    Goes (.desaturation 1 0 true 0 0) sDrive ∧
    Goes (.rampViolation 1 0 true 0 0 0 0) sDrive := by
  refine ⟨goes_of_runs (((h 1 80 0 0 4095 0 0 false sSwitched ?_ ?_ ?_ ?_ ?_).2 (10 ^ 8 - 1000) ?_).1 0x24 ?_ ?_ ⟨by decide +kernel, by decide +kernel, by decide +kernel⟩ (Or.inl (by decide +kernel))),
    goes_of_runs (((h 1 80 0 4095 0 4095 0 true sSwitched ?_ ?_ ?_ ?_ ?_).2 (10 ^ 8 - 1000) ?_).1 0x23 ?_ ?_ ⟨by decide +kernel, by decide +kernel, by decide +kernel⟩ (Or.inr (by decide +kernel))),
    ⟨_, ((h 1 0 0 0 4095 0 0 false sSwitched ?_ ?_ ?_ ?_ ?_).2 (10 ^ 8 - 1000) ?_).2.1 ?_⟩,
    goes_of_runs (((h 1 80 80 0 4095 0 35 false sSwitched ?_ ?_ ?_ ?_ ?_).2 (10 ^ 8 - 1000) ?_).2.2.1 0x26 ?_ ?_ ⟨by decide +kernel, by decide +kernel, by decide +kernel⟩),
    goes_of_runs (((h 1 80 80 0 4095 0 0 true sSwitched ?_ ?_ ?_ ?_ ?_).2 (10 ^ 8 - 1000) ?_).2.2.1 0x25 ?_ ?_ ⟨by decide +kernel, by decide +kernel, by decide +kernel⟩),
    ⟨_, ((h 1 80 79 0 4095 0 0 false sSwitched ?_ ?_ ?_ ?_ ?_).2 (10 ^ 8 - 1000) ?_).2.2.2 ?_⟩,
    ⟨_, (h 1 0 0 0 0 0 0 true sDrive ?_ ?_ ?_ ?_ ?_).1 ?_ |>.2⟩,
    ⟨_, (h 1 0 0 0 0 0 0 true sDrive ?_ ?_ ?_ ?_ ?_).1 ?_ |>.1⟩⟩ <;>
  decide +kernel

theorem witness_LoadTests (h : Obligations.LoadTests) :
    Goes (.offStateTestResult 1 1 111 20) sTrip ∧
    Goes (.offStateTestResult 1 1 110 19) sTrip ∧
    Goes (.offStateTestResult 1 1 110 20) sTrip ∧
    Goes (.offStateTest 1 2) sTrip ∧
    Goes (.openLoadCheck 1 0 0 0) sTrip ∧
    Goes (.openLoadCheck 1 0 0 4095) sTrip := by
  refine ⟨goes_of_runs (((h.1 1 111 20 1 sTrip ?_).2 5 ?_ ?_).2 ?_ ?_ ?_ |>.1 ?_),
    goes_of_runs (((h.1 1 110 19 1 sTrip ?_).2 5 ?_ ?_).2 ?_ ?_ ?_ |>.2 ?_ ?_ ?_),
    goes_of_runs (((h.1 1 110 20 1 sTrip ?_).2 5 ?_ ?_).1 ?_ ?_),
    goes_of_runs ((h.1 1 0 0 2 sTrip ?_).1 ?_),
    goes_of_runs ((h.2 1 0 0 0 1 sTrip ?_ ?_ ?_ ?_ ?_ ?_ ?_).1 ?_),
    goes_of_runs ((h.2 1 0 4095 0 1 sTrip ?_ ?_ ?_ ?_ ?_ ?_ ?_).2 ?_ ?_ ?_)⟩ <;>
  first
  | decide +kernel
  | (unfold Regulates; decide +kernel)

theorem witness_Temperatures (h : Obligations.Temperatures) :
    Goes (.channelThermal 1 0 223) sTrip ∧
    Goes (.channelThermal 1 35 240) (sClose 0) ∧
    Goes (.substrateThermal 1 1 198) sTrip ∧
    Goes (.substrateThermal 1 1 215) sTrip := by
  refine ⟨goes_of_runs ((h.1 1 0 223 sTrip ?_).1 ?_),
    goes_of_runs ((h.1 1 35 240 (sClose 0) ?_).2 ?_ ?_ ?_ ?_),
    goes_of_runs ((h.2 1 1 198 sTrip 1000 ?_ ?_).1 ?_),
    goes_of_runs ((h.2 1 1 215 sTrip 1000 ?_ ?_).2 ?_ ?_ ?_)⟩ <;>
  decide +kernel

theorem witness_LatchReleases (h : Obligations.LatchReleases) :
    Goes (.retryRelease 1 1) sTrip ∧
    Goes (.retryRelease 1 36) sTrip ∧
    Goes (.prtLatchWrite 1 35 0) sTrip ∧
    Goes (.auxLatchWrite 1 0 0) sTrip ∧
    Goes (.protectClear (safe [1, 0])) sTrip ∧
    Goes (.protectClear (safe [0, 8])) sTrip ∧
    Goes (.auxClear (safe [1])) sTrip := by
  refine ⟨goes_of_runs (((h sTrip).1 1 1000 1 ?_).1 ?_ ?_ ?_ ?_ ?_ ?_),
    goes_of_runs (((h sTrip).1 1 1000 36 ?_).2 0 ?_ ?_ ?_ ?_ ?_ ?_),
    goes_of_runs ((h sTrip).2.1 1 35 0 ?_ ?_ ?_ ?_ ?_),
    goes_of_runs ((h sTrip).2.2.1 1 0 0 ?_ ?_ ?_ ?_ ?_),
    goes_of_answers ((h sTrip).2.2.2.1 (safe [1, 0]) 0 ?_ ?_ ?_ ?_ ?_ ?_),
    goes_of_answers ((h sTrip).2.2.2.1 (safe [0, 8]) 35 ?_ ?_ ?_ ?_ ?_ ?_),
    goes_of_answers ((h sTrip).2.2.2.2 (safe [1]) 0 ?_ ?_ ?_ ?_ ?_)⟩ <;>
  first
  | decide +kernel
  | (unfold Accepted; decide +kernel)

theorem witness_OutputConfiguration (h : Obligations.OutputConfiguration) :
    Goes (.auxQuery (safe [15])) sTrip ∧
    Goes (.protectConfig (msg [35, 0xFFFFFFFF])) sTrip ∧
    Goes (.auxConfig (msg [0, 0x4AF50880, 5])) sTrip := by
  refine ⟨goes_of_answers ((h (safe [15]) sTrip).2.2 ?_ ?_),
    goes_of_answers ((h (msg [35, 0xFFFFFFFF]) sTrip).1 ?_ ?_ ?_ ?_),
    goes_of_answers ((h (msg [0, 0x4AF50880, 5]) sTrip).2.1 ?_ ?_ ?_ ?_ ?_ ?_)⟩ <;>
  first
  | decide +kernel
  | (unfold Accepted; decide +kernel)

theorem witness_Closing (h : Obligations.Closing) :
    Goes (.closingKink 1 7 kinked 1) (sClose 0) ∧
    Goes (.closingWindowEnd 1 7) (sClose 0) ∧
    Goes (.closingWindowEnd 1 7) (sClose 7) ∧
    Goes (.closingConfig (msg [0, 0xC0800FA0, 0x25832004, 0x2EE007D0, 4000])) sTrip ∧
    Goes (.trimReset (msg [1, 0])) sTrip ∧
    Goes (.closingStatus (msg [0, 8])) sTrip := by
  refine ⟨goes_of_runs ((h.1 1 7 (sClose 0) ⟨35, 7, true, 200, 400⟩ ?_ ?_ ?_ ?_ ?_ ?_).1 kinked 1 11 9 ?_ ?_ ?_ ?_ ?_ ?_),
    goes_of_runs ((h.1 1 7 (sClose 0) ⟨35, 7, true, 200, 400⟩ ?_ ?_ ?_ ?_ ?_ ?_).2 ?_ ?_ ?_ ?_ ?_),
    goes_of_runs ((h.1 1 7 (sClose 7) ⟨35, 7, true, 200, 400⟩ ?_ ?_ ?_ ?_ ?_ ?_).2 ?_ ?_ ?_ ?_ ?_),
    goes_of_answers ((h.2 (msg [0, 0xC0800FA0, 0x25832004, 0x2EE007D0, 4000]) sTrip).1 ?_ ?_ ?_ ?_ ?_),
    goes_of_answers (((h.2 (msg [1,0]) sTrip).2 0 ?_ ?_).1 ?_ ?_ ?_),
    goes_of_answers (((h.2 (msg [0,8]) sTrip).2 35 ?_ ?_).2 ?_)⟩ <;>
  first
  | decide +kernel
  | (unfold Accepted; decide +kernel)

theorem witness_AuxiliaryOutputs (h : Obligations.AuxiliaryOutputs) :
    Goes (.inrushEnd 1 0 [auxPace]) sTrip ∧
    Goes (.inrushEnd 1 15 []) sTrip ∧
    Goes (.inrushEnd 1 13 []) sTrip ∧
    Goes (.inrushEnd 1 12 []) sTrip ∧
    Goes (.auxShort 1 14 []) sTrip ∧
    Goes (.auxShort 1 15 []) sTrip ∧
    Goes (.auxOpenLoad 1 14 []) sTrip ∧
    Goes (.auxBackfeed 1 0 []) sTrip ∧
    Goes (.auxThermal 1 0 235) sTrip ∧
    Goes (.auxThermal 1 14 239) sTrip := by
  refine ⟨goes_of_runs (h.1 1 0 auxPace sTrip ?_ ?_),
    goes_of_runs ((h.2.1 1 10 15 sTrip ?_ ?_ ?_ ?_).1 ?_),
    goes_of_runs ((h.2.1 1 10 13 sTrip ?_ ?_ ?_ ?_).2.1 ?_ ?_),
    ⟨_, (h.2.1 1 (10 ^ 8) 12 sTrip ?_ ?_ ?_ ?_).2.2 ?_ ?_⟩,
    goes_of_runs (h.2.2.1 1 (10 ^ 8 - 3999) 14 sTrip ?_ ?_ ?_ ?_ ?_ ?_),
    goes_of_runs (h.2.2.1 1 (10 ^ 8 - 3999) 15 sTrip ?_ ?_ ?_ ?_ ?_ ?_),
    goes_of_runs ((h.2.2.2.1 1 (10 ^ 8 - 799999) 14 sTrip ?_).1 ?_ ?_),
    goes_of_runs ((h.2.2.2.1 1 (10 ^ 8 - 399999) 0 sTrip ?_).2 ?_ ?_ ?_ ?_ ?_),
    goes_of_runs (h.2.2.2.2 1 0 235 sTrip ?_ ?_ ?_ ?_ ?_),
    goes_of_runs (h.2.2.2.2 1 14 239 sTrip ?_ ?_ ?_ ?_ ?_)⟩ <;>
  first
  | decide +kernel
  | exact Or.inl rfl
  | exact Or.inr rfl

theorem witness_TieLink (h : Obligations.TieLink) :
    Goes (.tieTrainingDone 1 0 0 0 false false false) (sTie 3 false) ∧
    Goes (.tieTrainingDone 1 15 3 65535 true false false) (sTie 3 false) ∧
    Goes (.tieTrainingTimeout 1) sTieLate ∧
    Goes (.tieStateFrame 1 0 0 0 0 0 0 0 0) (sTie 1 true) ∧
    Goes (.tieStateFrame 1 (frame.getD 0 0) (frame.getD 1 0) (frame.getD 2 0) (frame.getD 3 0) (frame.getD 4 0) (frame.getD 5 0) (frame.getD 6 0) (frame.getD 7 0)) (sTie 2 true) ∧
    Goes (.backgroundBlock 1 0x10000000 0 0 0) (sTie 2 true) ∧
    Goes (.backgroundBlock 1 0x30230000 0 0xFFFFFFFF 0) (sTie 2 true) := by
  refine ⟨goes_of_runs ((h.1 1 (sTie 3 false) ?_ ?_ ?_ ?_ ?_).1 0 0 0 false ?_ ?_),
    goes_of_runs ((h.1 1 (sTie 3 false) ?_ ?_ ?_ ?_ ?_).1 15 3 65535 true ?_ ?_),
    goes_of_runs ((h.1 1 sTieLate ?_ ?_ ?_ ?_ ?_).2 1 ?_ ?_ ?_),
    goes_of_runs (((h.2 1 (sTie 1 true) ?_ ?_ ?_).1 0 0 0 0 0 0 0 0).1 ?_),
    goes_of_runs (((h.2 1 (sTie 2 true) ?_ ?_ ?_).1 (frame.getD 0 0) (frame.getD 1 0) (frame.getD 2 0) (frame.getD 3 0) (frame.getD 4 0) (frame.getD 5 0) (frame.getD 6 0) (frame.getD 7 0)).2 ?_ ?_ ?_),
    goes_of_runs (((h.2 1 (sTie 2 true) ?_ ?_ ?_).2 0x10000000 0 0 0 ?_).1 ?_ ?_),
    goes_of_runs (((h.2 1 (sTie 2 true) ?_ ?_ ?_).2 0x30230000 0 0xFFFFFFFF 0 ?_).2 ?_ ?_ ?_ ?_)⟩ <;>
  decide +kernel

theorem witness_TieLines (h : Obligations.TieLines) :
    Goes (.tieSilence 1) (sTie 2 true) ∧
    Goes (.resignEdge 1) (sTie 2 true) ∧
    Goes (.resignEdge 1) sSilent ∧
    Goes (.isolationClose 1 true) (sTakeover 1) ∧
    Goes (.isolationClose 1 true) (sTakeover 2) ∧
    Goes (.resignLineRise 1) (sTie 3 false) ∧
    Goes (.resignEdge 1) (sTie 1 true) ∧
    Goes (.resignRelease 1) sResigns ∧
    Goes (.resignStuck 1) sStuck ∧
    Goes (.benchmarkEdge 1) (sLine 16 0) ∧
    Goes (.benchmarkPulseMissing 1) (sLine 16 0) ∧
    Goes (.benchmarkClaim 1 0) (sLine 16 0) ∧
    Goes (.benchmarkLineRelease 1) (sLine 16 0) ∧
    Goes (.benchmarkEdge 1) (sLine (-17) 1) ∧
    Goes (.benchmarkPulseMissing 1) (sLine (-17) 1) ∧
    Goes (.benchmarkListenEnd 1) sLineLate := by
  refine ⟨goes_of_runs ((h.1 1 (sTie 2 true) ?_ ?_ ?_).1 ?_ ?_ ?_ ?_ ?_),
    goes_of_runs ((h.1 1 (sTie 2 true) ?_ ?_ ?_).2.1 ?_ ?_ ?_ ?_ ?_),
    goes_of_runs ((h.1 1 sSilent ?_ ?_ ?_).2.2.1 ?_ ?_ ?_),
    goes_of_runs ((h.1 1 (sTakeover 1) ?_ ?_ ?_).2.2.2 1 900 ?_ ?_ ?_),
    goes_of_runs ((h.1 1 (sTakeover 2) ?_ ?_ ?_).2.2.2 2 900 ?_ ?_ ?_),
    goes_of_runs ((h.2.1 1 (sTie 3 false) ?_).2.2.2 ?_),
    goes_of_runs ((h.2.1 1 (sTie 1 true) ?_).1 ?_ ?_ ?_ ?_),
    goes_of_runs ((h.2.1 1 sResigns ?_).2.1 1001 ?_ ?_),
    goes_of_runs ((h.2.1 1 sStuck ?_).2.2.1 ?_ ?_ ?_ ?_),
    goes_of_runs (((h.2.2 1 (sLine 16 0) ?_ ?_).1 ?_).1 ?_),
    goes_of_runs (((h.2.2 1 (sLine 16 0) ?_ ?_).2.1 ?_ ?_ ?_).1 ?_),
    goes_of_runs ((h.2.2 1 (sLine 16 0) ?_ ?_).2.2.2.1 0 ?_ ?_),
    goes_of_runs ((h.2.2 1 (sLine 16 0) ?_ ?_).2.2.2.2 1001 ?_ ?_),
    goes_of_runs (((h.2.2 1 (sLine (-17) 1) ?_ ?_).1 ?_).2 ?_),
    goes_of_runs (((h.2.2 1 (sLine (-17) 1) ?_ ?_).2.1 ?_ ?_ ?_).2 ?_ ?_),
    goes_of_runs ((h.2.2 1 sLineLate ?_ ?_).2.2.1 0 ?_ ?_ ?_ ?_)⟩ <;>
  first
  | decide +kernel
  | exact ⟨partner_off (by decide +kernel) (by decide +kernel), lanes_off (by decide +kernel), channels_off (by decide +kernel), auxiliaries_off (by decide +kernel), flags_clear CD_CFG_TRIM_EN _ (fun _ => ⟨rfl, rfl⟩) (by decide) (by decide +kernel)⟩

theorem witness_PairCommands (h : Obligations.PairCommands) :
    Goes (.pairHandover (safe [0])) (sTie 1 true) ∧
    Goes (.quietHandoverResign 1) sHandover ∧
    Goes (.handoverTimeout 1) sHandoverLate ∧
    Goes (.pairConfig (safe [0x83100000])) (sTie 3 false) ∧
    Goes (.pairCfgWrite 1 0) (sTie 3 false) ∧
    Goes (.pairStatus (safe [])) (sTie 3 false) ∧
    Goes (.pairCfgWrite 1 0) (sLine 16 0) := by
  refine ⟨goes_of_runs ((h.1 (sTie 1 true) ?_).1 (safe [0]) ?_ ?_ ?_ ?_ ?_ ?_),
    goes_of_answers (((h.1 sHandover ?_).2 1 ⟨safe [1], true, 5, 0⟩ ?_ ?_ ?_).1 ?_),
    (((h.1 sHandoverLate ?_).2 1 ⟨safe [1], true, 5, 0⟩ ?_ ?_ ?_).2 ?_).elim fun _ x => ⟨_, x.1⟩,
    goes_of_answers ((h.2 (sTie 3 false)).1 (safe [0x83100000]) ?_ ?_ ?_ ?_),
    goes_of_runs (((h.2 (sTie 3 false)).2.1 1 0 ?_ ?_).1 ?_ ?_),
    goes_of_answers ((h.2 (sTie 3 false)).2.2 (safe []) ?_),
    goes_of_runs (((h.2 (sLine 16 0)).2.1 1 0 ?_ ?_).2 ?_)⟩ <;>
  first
  | decide +kernel
  | (unfold Accepted; decide +kernel)

theorem witness_AcquisitionRuns (h : Obligations.AcquisitionRuns) :
    Goes (.acqAngleTrigger 1 0) sAcq ∧
    Goes (.acqTimeTrigger 1 31) sAcq ∧
    Goes (.knockWindowOpen 1 1) sAcq ∧
    Goes (.knockTrigger 1 2) sAcq ∧
    Goes (.knockWindowClose 1 2) (sRef 0) := by
  refine ⟨goes_of_runs ((h.1 1 0 sAcq ?_ ?_ ?_).2 4001 ?_ ?_ ?_ ?_ ?_ ?_),
    goes_of_runs ((h.1 1 31 sAcq ?_ ?_ ?_).1 ?_ ?_),
    goes_of_runs ((h.2 1 1 sAcq ?_).1 5000 ?_ ?_ ?_ ?_ ?_ ?_ ?_),
    goes_of_runs ((h.2 1 2 sAcq ?_).2.1 window ?_ ?_ ?_ ?_ ?_),
    goes_of_runs ((h.2 1 2 (sRef 0) ?_).2.2 window 8 ?_ ?_ ?_ ?_ ?_)⟩ <;>
  first
  | decide +kernel
  | (unfold TakesRun; decide +kernel)
  | exact ⟨by decide +kernel, by decide +kernel, by decide +kernel, by decide +kernel, by decide +kernel, _, rfl, by decide +kernel⟩

theorem witness_Converters (h : Obligations.Converters) :
    Goes (.conversionDone 1 0 1 1) sAcqLate ∧
    Goes (.conversionDone 1 3 1 1) sAcqLate ∧
    Goes (.extRefRange 1 false) sAcq ∧
    Goes (.acqRefWrite 1 1) sAcq ∧
    Goes (.referenceSettled 1) (sRef 0) ∧
    Goes (.acqRefWrite 1 1) (sRef 0) ∧
    Goes (.acqRefSet (msg [2])) (sRef 0) ∧
    Goes (.extRefRange 1 false) (sRef 1) ∧
    Goes (.acqUrgent (safe [1])) sAcq ∧
    Goes (.acqUrgGoWrite 1 0 0x80000000) sAcq := by
  refine ⟨goes_of_runs ((h.1 1 1 1 990 0 sAcqLate ?_ ?_ ?_).1 ⟨5, 3, 990, some 1023⟩ 1023 ?_ ?_),
    goes_of_runs ((h.1 1 1 1 990 3 sAcqLate ?_ ?_ ?_).2 23 ?_ ?_ ?_),
    goes_of_runs (((h.2.2 1 sAcq).2.1 false ?_).1 ?_),
    goes_of_runs (((h.2.2 1 sAcq).2.2.1 1 ?_ ?_ ?_).2 ?_),
    goes_of_runs ((h.2.2 1 (sRef 0)).1 ?_ ?_ ?_ ?_ ?_),
    goes_of_runs (((h.2.2 1 (sRef 0)).2.2.1 1 ?_ ?_ ?_).1 ?_ ?_),
    goes_of_answers ((h.2.2 1 (sRef 0)).2.2.2 (msg [2]) ?_ ?_ ?_ ?_),
    goes_of_runs (((h.2.2 1 (sRef 1)).2.1 false ?_).2 ?_ ?_),
    goes_of_runs ((h.2.1 sAcq 1 0 ?_ ?_ ?_ ?_ ?_).2 (safe [1]) ?_ ?_),
    goes_of_runs ((h.2.1 sAcq 0 0 ?_ ?_ ?_ ?_ ?_).1 1 0 0x80000000 ?_ ?_ ?_ ?_ ?_)⟩ <;>
  first
  | decide +kernel
  | (unfold Accepted; decide +kernel)

theorem witness_AcquisitionCommands (h : Obligations.AcquisitionCommands) :
    Goes (.acqStatus (msg [2])) sAcq ∧
    Goes (.acqListCtrl (msg [1, 0])) (sRef 0) ∧
    Goes (.acqListCtrl (msg [0, 0x80000000])) sAcq ∧
    Goes (.acqListPut (msg [0x10820000, 0xFFFF0500, 0xFFFFFFFF, 0xFFFFFFFF, 0xFFFFFFFF, 7, 200, 0, 0x00100010, 0])) sRefBare := by
  refine ⟨goes_of_answers (((h (msg [2]) sAcq).2 1 ?_).2.2 ?_ ?_),
    goes_of_answers (((h (msg [1,0]) (sRef 0)).2 0 ?_).1 ?_ ?_ ?_ ?_ ?_),
    goes_of_answers (((h (msg [0,0x80000000]) sAcq).2 31 ?_).2.1 ?_ ?_ ?_ ?_ ?_),
    goes_of_answers ((h (msg [0x10820000, 0xFFFF0500, 0xFFFFFFFF, 0xFFFFFFFF, 0xFFFFFFFF, 7, 200, 0, 0x00100010, 0]) sRefBare).1 ?_ ?_ ?_ ?_ ?_ ?_ ?_)⟩ <;>
  first
  | decide +kernel
  | (unfold Accepted; decide +kernel)

theorem witness_Monitors (h : Obligations.Monitors) :
    Goes (.monitorThresholdCrossing 1 15 99) (sMon none 8 0) ∧
    Goes (.monitorViolation 1 15 false) (sMon (some 7) 8 1) ∧
    Goes (.monitorRecover 1 15 108) (sMon none 8 0) ∧
    Goes (.monitorRecover 1 15 892) (sMon none 8 0) ∧
    Goes (.monitorAutoTest 1 15) (sMon none 8 0) ∧
    Goes (.monitorAutoTest 1 15) (sMon (some 7) 8 1) ∧
    Goes (.monitorTestStep 1 15 false false) (sMon none 0 2) ∧
    Goes (.monitorTestStep 1 15 true true) (sMon none 0 2) ∧
    Goes (.monitorTestStep 1 15 false true) (sMon none 6 2) ∧
    Goes (.monitorTestStep 1 15 true false) (sMon none 7 2) ∧
    Goes (.monitorTestStep 1 43 false false) (sMon none 8 0) ∧
    Goes (.monitorTestStep 1 43 true false) (sMon none 8 2) ∧
    Goes (.monConfig (safe [15, 0x03840064, 0xC000FF00])) (sMon none 8 0) ∧
    Goes (.monSelftest (safe [0x8000, 0, 0])) (sMon none 8 0) := by
  refine ⟨goes_of_runs ((h.1 1 15 99 (sMon none 8 0) ?_ ?_ ?_).1 ?_ ?_),
    goes_of_runs ((h.1 1 15 0 (sMon (some 7) 8 1) ?_ ?_ ?_).2.1 false 7 ?_ ?_ ?_),
    goes_of_runs ((h.1 1 15 108 (sMon none 8 0) ?_ ?_ ?_).2.2 ?_ ?_),
    goes_of_runs ((h.1 1 15 892 (sMon none 8 0) ?_ ?_ ?_).2.2 ?_ ?_),
    goes_of_runs (((h.2.1 1 false false (sMon none 8 0) ?_ ?_ ?_).1 15 ?_ ?_ ?_).1 ?_ ?_),
    goes_of_runs (((h.2.1 1 false false (sMon (some 7) 8 1) ?_ ?_ ?_).1 15 ?_ ?_ ?_).2 ?_),
    goes_of_runs (((h.2.1 1 false false (sMon none 0 2) ?_ ?_ ?_).2.1 15 0 1000 false ?_ ?_ ?_).1 ?_ ?_),
    goes_of_runs (((h.2.1 1 true true (sMon none 0 2) ?_ ?_ ?_).2.1 15 0 1000 false ?_ ?_ ?_).2.2 ?_ ?_),
    goes_of_runs (((h.2.1 1 false true (sMon none 6 2) ?_ ?_ ?_).2.1 15 6 1000 false ?_ ?_ ?_).1 ?_ ?_),
    goes_of_runs (((h.2.1 1 true false (sMon none 7 2) ?_ ?_ ?_).2.1 15 7 1000 false ?_ ?_ ?_).2.1 ?_ ?_),
    goes_of_runs (((h.2.1 1 false false (sMon none 8 0) ?_ ?_ ?_).2.2 43 27 0 5 ?_ ?_ ?_ ?_ ?_ ?_).1 ?_ ?_),
    goes_of_runs (((h.2.1 1 true false (sMon none 8 2) ?_ ?_ ?_).2.2 43 27 2 5 ?_ ?_ ?_ ?_ ?_ ?_).2 ?_ ?_),
    goes_of_answers ((h.2.2 (safe [15, 0x03840064, 0xC000FF00]) 15 (sMon none 8 0)).1 ?_ ?_ ?_ ?_),
    goes_of_runs ((h.2.2 (safe [0x8000, 0, 0]) 15 (sMon none 8 0)).2 ?_ ?_ ?_ ?_ ?_ ?_ ?_)⟩ <;>
  first
  | decide +kernel
  | (unfold Accepted; decide +kernel)
  | (unfold StepPasses; decide +kernel)

theorem witness_Timers (h : Obligations.Timers) :
    Goes (.timerMatch 1 31) sTimers ∧
    Goes (.timerCapture 1 0 true) sTimers ∧
    Goes (.timerCapture 1 4 false) sTimers ∧
    Goes (.timerCapture 1 0 true) sCaptured ∧
    Goes (.tmrStartWrite 1 0) sTimers ∧
    Goes (.tmrStopWrite 1 0xFFFFFFFF) sTimers ∧
    Goes (.tmrStartWrite 1 0) sActions := by
  refine ⟨goes_of_runs (((h 1 sTimers).1 ?_ ?_).1 31 ?_),
    goes_of_runs (((((h 1 sTimers).1 ?_ ?_).2.1 0 true 900 ?_).2 ?_ ?_ ?_ ?_ ?_).1 ?_),
    goes_of_runs (((((h 1 sTimers).1 ?_ ?_).2.1 4 false 900 ?_).2 ?_ ?_ ?_ ?_ ?_).2 ?_),
    goes_of_runs ((((h 1 sCaptured).1 ?_ ?_).2.1 0 true 900 ?_).1 ?_),
    goes_of_runs (((h 1 sTimers).1 ?_ ?_).2.2.1 0),
    goes_of_runs (((h 1 sTimers).1 ?_ ?_).2.2.2 0xFFFFFFFF ?_),
    goes_of_runs ((h 1 sActions).2 ?_ ?_)⟩ <;>
  first
  | decide +kernel
  | (intro a l e; cases e; done)
  | exact fun f => absurd (f 1000 false (by decide +kernel)).2 (by decide +kernel)
  | exact fun n c e hn => by rw [timers_unmoved (by decide +kernel)] at hn; cases hn

theorem witness_PinEngines (h : Obligations.PinEngines) :
    Goes (.peRunWrite 1 0 0) (sEngine 0 [] []) ∧
    Goes (.peTxWrite 1 0 0) (sEngine 0 [] []) ∧
    Goes (.peRxRead 1 0) (sEngine 0 [] []) ∧
    Goes (.pinEngineTick 1 0 15) (sEngine 0x100010 [3,4] []) ∧
    Goes (.peRxRead 1 0) (sEngine 0x110010 [] [7]) ∧
    Goes (.pinEngineTick 1 0 15) (sEngine 0x110010 [] [7]) ∧
    Goes (.pinEngineTick 1 0 15) (sEngine 0x200000 [] [7]) ∧
    Goes (.pinEngineTick 1 0 15) (sEngine 0x300000 [] []) ∧
    Goes (.peTxWrite 1 7 0) (sEngine 0 [] []) ∧
    Goes (.peRunWrite 1 7 0x1F0003) (sEngine 0 [] []) := by
  refine ⟨goes_of_runs (((h 1 0 (sEngine 0 [] []) ?_ ?_ ?_).1 0).2.1 ?_ ?_),
    goes_of_runs (((h 1 0 (sEngine 0 [] []) ?_ ?_ ?_).1 0).2.2.1 ?_),
    goes_of_runs ((h 1 0 (sEngine 0 [] []) ?_ ?_ ?_).2.2.1 ?_),
    goes_of_runs ((((h 1 0 (sEngine 0x100010 [3,4] []) ?_ ?_ ?_).2.2.2 15 ?_).2 ?_ ?_ ?_ ?_ ?_).1 3 [4] ?_ ?_),
    goes_of_runs ((h 1 0 (sEngine 0x110010 [] [7]) ?_ ?_ ?_).2.1 7 [] ?_ ?_),
    goes_of_runs (((((h 1 0 (sEngine 0x110010 [] [7]) ?_ ?_ ?_).2.2.2 15 ?_).2 ?_ ?_ ?_ ?_ ?_).2).1 ?_ ?_),
    goes_of_runs (((((h 1 0 (sEngine 0x200000 [] [7]) ?_ ?_ ?_).2.2.2 15 ?_).2 ?_ ?_ ?_ ?_ ?_).2).2 ?_ ?_),
    goes_of_runs (((h 1 0 (sEngine 0x300000 [] []) ?_ ?_ ?_).2.2.2 15 ?_).1 ?_),
    goes_of_runs (((h 1 7 (sEngine 0 [] []) ?_ ?_ ?_).1 0).2.2.2 ?_),
    goes_of_runs (((h 1 7 (sEngine 0 [] []) ?_ ?_ ?_).1 0x1F0003).1 ?_ ?_)⟩ <;>
  first
  | decide +kernel
  | (unfold Ticks; decide +kernel)

theorem witness_Positions (h : Obligations.Positions) :
    Goes (.positionInputChange 1 0 false false false) (sPos 1 0) ∧
    Goes (.positionInputChange 1 0 false true false) (sPos 1 0) ∧
    Goes (.positionInputChange 1 0 true true false) (sPos 1 0) ∧
    Goes (.positionInputChange 1 0 true true true) sPosChatters ∧
    Goes (.positionIndex 1 0) (sPos 1 0) ∧
    Goes (.posCountWrite 1 0 0) (sPos 1 0) ∧
    Goes (.sentFrame 1 0 sent) (sPos 3 2) ∧
    Goes (.sentFrame 1 0 []) (sPos 3 2) ∧
    Goes (.positionSourceLost 1 0) (sPos 3 2) ∧
    Goes (.ssiFrameDone 1 0 []) sSsi ∧
    Goes (.ssiFrameStart 1 0 true) sStill ∧
    Goes (.ssiFrameStart 1 0 false) sStill ∧
    Goes (.positionInputChange 1 0 true false false) sEncoder ∧
    Goes (.positionInputChange 1 5 true false false) sCompares ∧
    Goes (.positionInputChange 1 5 false true false) sCompares := by
  refine ⟨goes_of_runs (((h.1 1 0 (sPos 1 0) ?_ ?_ ?_).1 ?_ ?_ ?_ ?_).1 false false false 0 ?_ ?_ ?_ |>.1 ?_ ?_),
    goes_of_runs (((h.1 1 0 (sPos 1 0) ?_ ?_ ?_).1 ?_ ?_ ?_ ?_).1 false true false (-1) ?_ ?_ ?_ |>.1 ?_ ?_),
    goes_of_runs ((h.1 1 0 (sPos 1 0) ?_ ?_ ?_).2.2.1 true true false ?_ ?_ ?_ ?_),
    goes_of_runs ((h.1 1 0 sPosChatters ?_ ?_ ?_).2.1 true true true ?_ ?_ ?_),
    goes_of_runs ((h.1 1 0 (sPos 1 0) ?_ ?_ ?_).2.2.2.1 ?_ ?_ ?_),
    goes_of_runs ((h.1 1 0 (sPos 1 0) ?_ ?_ ?_).2.2.2.2.2.2.2 0),
    goes_of_runs (((h.1 1 0 (sPos 3 2) ?_ ?_ ?_).1 ?_ ?_ ?_ ?_).2.1 sent 1 9 5 ?_ ?_ ?_ ?_),
    goes_of_runs ((h.1 1 0 (sPos 3 2) ?_ ?_ ?_).2.2.2.2.1 [] ?_ ?_),
    goes_of_runs ((h.1 1 0 (sPos 3 2) ?_ ?_ ?_).2.2.2.2.2.2.1 ?_ ?_ ?_),
    goes_of_runs ((((h.1 1 0 sSsi ?_ ?_ ?_).1 ?_ ?_ ?_ ?_).2.2 [] 500000 5).2 ?_ ?_ ?_ ?_ ?_ ?_ ?_),
    goes_of_runs (((h.1 1 0 sStill ?_ ?_ ?_).2.2.2.2.2.1 ?_ ?_ ?_ ?_).1),
    goes_of_runs (((h.1 1 0 sStill ?_ ?_ ?_).2.2.2.2.2.1 ?_ ?_ ?_ ?_).2),
    goes_of_runs (((h.1 1 0 sEncoder ?_ ?_ ?_).1 ?_ ?_ ?_ ?_).1 true false false 0 ?_ ?_ ?_ |>.2 ?_ ?_),
    goes_of_runs ((h.2 1 5 true false false true sCompares ?_ ?_ ?_ ?_ ?_ ?_ ?_ ?_).1 ?_ ?_),
    goes_of_runs ((h.2 1 5 false true false false sCompares ?_ ?_ ?_ ?_ ?_ ?_ ?_ ?_).2 ?_)⟩ <;>
  first
  | decide +kernel
  | (intro c e; cases e; done)
  | exact fun f => absurd (f (10 ^ 6) (by decide +kernel)) (by decide +kernel)
  | (intro c e; rcases e with e | e | e <;> cases e <;> decide +kernel)
  | exact Or.inl rfl

theorem witness_Rings (h : Obligations.Rings) :
    Goes (.doorbell 1 3 0) sIdle ∧
    Goes (.doorbell 1 0 0) (sRing [Tests.notice] 0) ∧
    Goes (.doorbell 1 3 15) (sRing [Tests.notice] 0) ∧
    Goes (.doorbell 1 0 16) (sRing [Tests.notice] 0) ∧
    Goes (.cliReqResumeWrite 1 3 0) sHalted ∧
    Goes (.cliReqResumeWrite 1 3 16) sHalted ∧
    Goes (.cliRspHeadWrite 1 0 0) (sRing [Tests.notice] 0) ∧
    Goes (.cliRspHeadWrite 1 3 15) sOwes ∧
    Goes (.cliFltHeadWrite 1 0 0) (sRing [Tests.notice] 0) ∧
    Goes (.cliRingCfgWrite 1 0 0x80000444) (sRing [Tests.notice] 0) ∧
    Goes (.cliRingCfgWrite 1 3 0x80000444) (sRing [Tests.notice] 0) ∧
    Goes (.cliKeepaliveWrite 1 0 0) (sRing [Tests.notice] 0) ∧
    Goes (.cliPwrVoteWrite 1 0 0) (sRing [Tests.notice] 0) ∧
    Goes (.requestRead 1 3 none) (sRing [Tests.notice] 0) ∧
    Goes (.requestRead 1 3 (some echoEntry)) (sRing [Tests.notice] 0) ∧
    Goes (.requestRead 1 3 (some (1 :: echoEntry.tail))) (sRing [Tests.notice] 0) ∧
    Goes (.indirectFetchDone 1 3 9 (some [])) (sRing [Tests.notice] 0) ∧
    Goes (.indirectFetchDone 1 3 9 (some [1])) (sRing [Tests.notice] 0) ∧
    Goes (.indirectFetchDone 1 3 9 none) (sRing [Tests.notice] 0) ∧
    Goes (.heldNoticeWrite 1 3) (sRing [Tests.notice] 0) ∧
    Goes (.heldNoticeWrite 1 3) (sRing [] 3) := by
  refine ⟨⟨_, (h.1 1 3 0 sIdle ?_ ?_).1 ?_⟩,
    goes_of_runs (((h.1 1 0 0 (sRing [Tests.notice] 0) ?_ ?_).2 ?_).1 ?_),
    goes_of_runs (((h.1 1 3 15 (sRing [Tests.notice] 0) ?_ ?_).2 ?_).1 ?_),
    goes_of_runs (((h.1 1 0 16 (sRing [Tests.notice] 0) ?_ ?_).2 ?_).2.1 ?_),
    goes_of_runs ((((h.1 1 3 0 sHalted ?_ ?_).2 ?_).2.2.1 ?_).1 ?_ ?_),
    goes_of_runs ((((h.1 1 3 16 sHalted ?_ ?_).2 ?_).2.2.1 ?_).2 ?_),
    goes_of_runs (((h.1 1 0 0 (sRing [Tests.notice] 0) ?_ ?_).2 ?_).2.2.2.1 ?_),
    goes_of_runs (((h.1 1 3 15 sOwes ?_ ?_).2 ?_).2.2.2.2.1 15 false notice ?_ ?_),
    goes_of_runs (((h.1 1 0 0 (sRing [Tests.notice] 0) ?_ ?_).2 ?_).2.2.2.2.2.1),
    goes_of_runs (((h.1 1 0 0x80000444 (sRing [Tests.notice] 0) ?_ ?_).2 ?_).2.2.2.2.2.2.1 ?_ ?_ ?_),
    goes_of_runs (((h.1 1 3 0x80000444 (sRing [Tests.notice] 0) ?_ ?_).2 ?_).2.2.2.2.2.2.2.1 ?_ ?_),
    goes_of_runs (((h.1 1 0 0 (sRing [Tests.notice] 0) ?_ ?_).2 ?_).2.2.2.2.2.2.2.2.1),
    goes_of_runs (((h.1 1 0 0 (sRing [Tests.notice] 0) ?_ ?_).2 ?_).2.2.2.2.2.2.2.2.2 ?_ ?_),
    goes_of_runs (((h.2 1 3 (sRing [Tests.notice] 0) ?_ ?_).1 ?_).1),
    goes_of_runs ((((h.2 1 3 (sRing [Tests.notice] 0) ?_ ?_).1 ?_).2 echoEntry).2 ?_ ?_ ?_ ?_ ?_ ?_ ?_ ?_ ?_ ?_ ?_ ?_ ?_ ?_),
    goes_of_runs ((((h.2 1 3 (sRing [Tests.notice] 0) ?_ ?_).1 ?_).2 (1 :: echoEntry.tail)).1 ?_),
    goes_of_runs (((h.2 1 3 (sRing [Tests.notice] 0) ?_ ?_).2.1 9 ⟨0x0300, false, ⟨3, 9, false, [], 0, 0⟩, 5, false, false, false⟩ ?_).1 [] [] ?_ ?_),
    goes_of_refuses (((h.2 1 3 (sRing [Tests.notice] 0) ?_ ?_).2.1 9 ⟨0x0300, false, ⟨3, 9, false, [], 0, 0⟩, 5, false, false, false⟩ ?_).2.1 [1] ?_ ?_),
    goes_of_refuses (((h.2 1 3 (sRing [Tests.notice] 0) ?_ ?_).2.1 9 ⟨0x0300, false, ⟨3, 9, false, [], 0, 0⟩, 5, false, false, false⟩ ?_).2.2),
    goes_of_runs (((h.2 1 3 (sRing [Tests.notice] 0) ?_ ?_).2.2 ?_ ?_).1 notice [] ?_ ?_),
    goes_of_runs (((h.2 1 3 (sRing [] 3) ?_ ?_).2.2 ?_ ?_).2 ?_ ?_ ?_)⟩ <;>
  first
  | decide +kernel
  | (unfold AllOn; decide +kernel)

theorem witness_ClientSessions (h : Obligations.ClientSessions) :
    Goes (.hello (msg [0x02000301, 0x1F, 0])) sIdle ∧
    Goes (.echo (msg [])) (sRing [Tests.notice] 0) ∧
    Goes (.echo (msg (List.replicate 17 1))) (sRing [Tests.notice] 0) ∧
    Goes (.goodbye (msg [])) sLease ∧
    Goes (.leaseExpiry 1 3) sLease ∧
    Goes (.perst 1 false) (sRing [] 3) ∧
    Goes (.pcieConfigReady 1 true []) (sRing [] 3) ∧
    Goes (.pcieConfigReady 1 false [(255, ⟨true, false⟩)]) (sRing [] 3) ∧
    Goes (.hlClientWrite 1 0 5) (sRing [] 3) ∧
    Goes (.hlClientWrite 1 3 0) (sRing [] 3) ∧
    Goes (.hlOwnWrite 1 0 0x80000444) (sRing [] 3) ∧
    Goes (.dataLinkDown 1) sIdle ∧
    Goes (.vfEnableClear 1) sIdle ∧
    Goes (.hotReset 1) sIdle ∧
    Goes (.functionLevelReset 1 0) sIdle ∧
    Goes (.perst 1 true) sIdle ∧
    Goes (.functionLevelReset 1 3) sIdle := by
  refine ⟨goes_of_answers (h.1.1 (msg [0x02000301, 0x1F, 0]) sIdle 0x31 ?_ ?_ ?_ ?_),
    goes_of_answers ((h.1.2.1 (msg []) (sRing [Tests.notice] 0) ?_).1 ?_),
    goes_of_refuses ((h.1.2.1 (msg (List.replicate 17 1)) (sRing [Tests.notice] 0) ?_).2 ?_),
    goes_of_runs ((h.1.2.2 3 sLease ?_ ?_).1 (msg []) ?_ ?_),
    goes_of_runs ((h.1.2.2 3 sLease ?_ ?_).2 1 ?_ ?_ ?_ ?_),
    goes_of_runs ((h.2 1 (sRing [] 3) ?_ ?_).2.1),
    goes_of_runs (((h.2 1 (sRing [] 3) ?_ ?_).2.2.1 ?_ true).1),
    goes_of_runs (((h.2 1 (sRing [] 3) ?_ ?_).2.2.1 ?_ false).2 255 ⟨true, false⟩),
    goes_of_runs (((h.2 1 (sRing [] 3) ?_ ?_).2.2.2.1 0 5 ?_).1 ?_),
    goes_of_runs (((h.2 1 (sRing [] 3) ?_ ?_).2.2.2.1 3 0 ?_).2 0 ?_ ?_ ?_),
    goes_of_runs ((h.2 1 (sRing [] 3) ?_ ?_).2.2.2.2 0 0x80000444 ?_ ?_ ?_),
    goes_of_runs (((h.2 1 sIdle ?_ ?_).1 ?_ ?_ ?_).1),
    goes_of_runs (((h.2 1 sIdle ?_ ?_).1 ?_ ?_ ?_).2.1),
    goes_of_runs (((h.2 1 sIdle ?_ ?_).1 ?_ ?_ ?_).2.2.1),
    goes_of_runs (((h.2 1 sIdle ?_ ?_).1 ?_ ?_ ?_).2.2.2.1),
    goes_of_runs (((h.2 1 sIdle ?_ ?_).1 ?_ ?_ ?_).2.2.2.2.1),
    goes_of_runs (((h.2 1 sIdle ?_ ?_).1 ?_ ?_ ?_).2.2.2.2.2 3 ?_ ?_)⟩ <;>
  first
  | decide +kernel
  | (unfold Accepted; decide +kernel)
  | (unfold AllOn; decide +kernel)

theorem witness_CoreLoad (h : Obligations.CoreLoad) :
    Goes (.loadWindow 1 255) (sSwap true) ∧
    Goes (.loadWindow 1 69) (sLoad 0) ∧
    Goes (.loadWindow 1 70) (sLoad 0) ∧
    Goes (.loadWindow 1 91) (sLoad 3) ∧
    Goes (.watchdogExpiry 1 0 none) (sLoad 0) ∧
    Goes (.coreRestartDone 1 0) (sLoad 0) ∧
    Goes (.shedTimeout 1 255 320 9) (sLoad 1) := by
  refine ⟨goes_of_runs ((h 1 (sSwap true) ?_ ?_ ?_).1 255 ?_ ?_),
    goes_of_runs (((h 1 (sLoad 0) ?_ ?_ ?_).2.1 69 ?_ ?_).2.1 ?_ ?_),
    goes_of_runs (((h 1 (sLoad 0) ?_ ?_ ?_).2.1 70 ?_ ?_).2.2 ?_ ?_),
    goes_of_runs (((h 1 (sLoad 3) ?_ ?_ ?_).2.1 91 ?_ ?_).1 ?_ ?_),
    goes_of_runs ((h 1 (sLoad 0) ?_ ?_ ?_).2.2.2.1 0 ?_ ?_),
    goes_of_refuses ((h 1 (sLoad 0) ?_ ?_ ?_).2.2.2.2 0 ⟨0x0140, false, ⟨3, 5, false, [], 0, 0⟩, 5, true, true, false⟩ ?_),
    goes_of_refuses ((h 1 (sLoad 1) ?_ ?_ ?_).2.2.1 255 0x140 9 ⟨0x0140, false, ⟨255, 9, false, [], 0, 0⟩, 5, true, true, false⟩ ?_ ?_ ?_ ?_)⟩ <;>
  decide +kernel

theorem witness_CanReception (h : Obligations.CanReception) :
    Goes (.canFrameReceived 1 0 false 0x700 false [0x10, 100, 5]) sCan ∧
    Goes (.canFrameReceived 1 0 false 0x700 true [0x22, 5]) sCan ∧
    Goes (.canFrameReceived 1 3 false 0x701 true [0x14, 0, 5]) sCan := by
  refine ⟨((h 1 sCan 0 false 0x700 [0x10, 100, 5] 0 ?_ ?_ ?_ ?_ ?_).1).elim fun _ x => ⟨_, x.1⟩,
    ((h 1 sCan 0 false 0x700 [0x22, 5] 0 ?_ ?_ ?_ ?_ ?_).2.2 canReceiving ?_ ?_ ?_).elim fun _ x => ⟨_, x.1⟩,
    ((h 1 sCan 3 false 0x701 [0x14, 0, 5] 15 ?_ ?_ ?_ ?_ ?_).2.1 ?_ ?_ ?_ ?_).elim fun _ x => ⟨_, x.1⟩⟩ <;>
  decide +kernel

theorem witness_CanTransmission (h : Obligations.CanTransmission) :
    Goes (.canTpTimeout 1 0) sCanLate ∧
    Goes (.canTpTimeout 1 15) sCanWaits ∧
    Goes (.canFrameSent 1 15) sCan ∧
    Goes (.canFrameSent 1 1) sCan := by
  refine ⟨((h 1 sCanLate 0 ?_ ?_).1 canReceiving ?_ ?_ ?_).elim fun _ x => ⟨_, x.1⟩,
    ((h 1 sCanWaits 15 ?_ ?_).2.1 { canSending with waitFc := true } ?_ ?_ ?_ ?_).elim fun _ x => ⟨_, x.1⟩,
    (((h 1 sCan 15 ?_ ?_).2.2 ?_ ?_ ?_).1 canSending ?_ ?_ ?_ ?_).elim fun _ x => ⟨_, x.1⟩,
    (((h 1 sCan 1 ?_ ?_).2.2 ?_ ?_ ?_).2 ⟨241, 5, 9, 0, 0, false, [7]⟩ [] ?_ ?_ ?_).elim fun _ x => ⟨_, x.1⟩⟩ <;>
  first
  | decide +kernel
  | (intro x e; cases e; done)

theorem witness_CanControllers (h : Obligations.CanControllers) :
    Goes (.canBusOff 1 0) sCan ∧
    Goes (.canRejoin 1 1) sCan ∧
    Goes (.canRestartWrite 1 0) sCan ∧
    Goes (.canRestartWrite 1 1) sCan ∧
    Goes (.canBindWrite 1 0 true 0) sCan ∧
    Goes (.canBindWrite 1 2 true 0) sCan ∧
    Goes (.canBindWrite 1 0 false 0x80000700) sCan ∧
    Goes (.canBindWrite 1 1 false 0x80000700) sCan := by
  refine ⟨(((h 1 sCan ?_ ?_).1 0).1).elim fun _ x => ⟨_, x.1⟩,
    (((h 1 sCan ?_ ?_).1 1).2.1 ?_ ?_).elim fun _ x => ⟨_, x.1⟩,
    (((h 1 sCan ?_ ?_).1 0).2.2 ?_).elim fun _ x => ⟨_, x.1⟩,
    (((h 1 sCan ?_ ?_).1 1).2.2 ?_).elim fun _ x => ⟨_, x.1⟩,
    (((h 1 sCan ?_ ?_).2 0 0 ?_).1 ?_).elim fun _ x => ⟨_, x.1⟩,
    (((h 1 sCan ?_ ?_).2 2 0 ?_).2.1 ?_ ?_).elim fun _ x => ⟨_, x.1⟩,
    (((h 1 sCan ?_ ?_).2 0 0x80000700 ?_).2.2.1 ?_ ?_ ?_).elim fun _ x => ⟨_, x.1⟩,
    (((h 1 sCan ?_ ?_).2 1 0x80000700 ?_).2.2.2 ?_ ?_).elim fun _ x => ⟨_, x.1⟩⟩ <;>
  first
  | decide +kernel
  | (unfold AllOn; decide +kernel)

theorem witness_DmaTransfers (h : Obligations.DmaTransfers) :
    Goes (.dmaGrantWrite 1 0 0) sDma ∧
    Goes (.dmaGrantWrite 1 2 0) sDma ∧
    Goes (.dmaStartWrite 1 3 2 0) sDma ∧
    Goes (.dmaStartWrite 1 3 3 0) sDma ∧
    Goes (.dmaAbortWrite 1 3 0 0) sDma ∧
    Goes (.dmaAbortWrite 1 3 5 0) sDma ∧
    Goes (.dmaStartWrite 1 0 0 0) sDma ∧
    Goes (.dmaAbortWrite 1 0 0 0) sDma ∧
    Goes (.dmaBurstDone 1 false true) sDma ∧
    Goes (.dmaBurstDone 1 false false) sDma ∧
    Goes (.dmaBurstDone 1 false false) sDmaRetries ∧
    Goes (.dmaBurstDone 1 true true) sDma ∧
    Goes (.dmaRetry 1 5) sDma := by
  refine ⟨goes_of_runs (((h 1 0 sDma ?_ ?_).1 0).2.1 ?_),
    goes_of_runs (((h 1 2 sDma ?_ ?_).1 0).1 ?_),
    goes_of_runs ((((h 1 2 sDma ?_ ?_).1 0).2.2.1 3 ?_ ?_ ?_).2 ?_),
    goes_of_runs ((((h 1 3 sDma ?_ ?_).1 0).2.2.1 3 ?_ ?_ ?_).1 8 ?_),
    goes_of_runs ((((h 1 0 sDma ?_ ?_).1 0).2.2.2.1 3 reads ?_ ?_ ?_ ?_).2 ?_ ?_),
    goes_of_runs ((((h 1 5 sDma ?_ ?_).1 0).2.2.2.1 3 retries ?_ ?_ ?_ ?_).1 ?_ ?_ ?_),
    goes_of_runs ((((h 1 0 sDma ?_ ?_).1 0).2.2.2.2 0 ?_).1),
    goes_of_runs ((((h 1 0 sDma ?_ ?_).1 0).2.2.2.2 0 ?_).2),
    goes_of_runs (((h 1 0 sDma ?_ ?_).2 reads ?_ ?_).1 ?_ ?_ ?_),
    goes_of_runs ((((h 1 0 sDma ?_ ?_).2 reads ?_ ?_).2.2.1 ?_ ?_).2 ?_),
    goes_of_runs ((((h 1 0 sDmaRetries ?_ ?_).2 reads ?_ ?_).2.2.1 ?_ ?_).1 ?_),
    goes_of_runs (((h 1 1 sDma ?_ ?_).2 writes ?_ ?_).2.1 ?_ ?_ ?_ ?_ ?_),
    goes_of_runs (((h 1 5 sDma ?_ ?_).2 retries ?_ ?_).2.2.2 1001 ?_ ?_)⟩ <;>
  decide +kernel

theorem witness_Interrupts (h : Obligations.Interrupts) :
    Goes (.intcRequest 1 0 false) (sIntc 0) ∧
    Goes (.intcRequest 1 5 true) (sIntc 0) ∧
    Goes (.intcRequest 1 388 false) (sIntc 0) ∧
    Goes (.intcAccept 1 0) (sIntc 0) ∧
    Goes (.intcClaimRead 1 0) (sIntc 1) ∧
    Goes (.intcClaimRead 1 3) (sIntc 0) ∧
    Goes (.intcCompleteWrite 1 0 0) (sIntc 0) ∧
    Goes (.intcCompleteWrite 1 3 388) (sIntc 0) ∧
    Goes (.intcHoldSetWrite 1 0) (sIntc 0) ∧
    Goes (.intcHoldClrWrite 1 31) (sIntc 0) ∧
    Goes (.intcEnSetWrite 1 510) (sIntc 0) ∧
    Goes (.intcEnClrWrite 1 0) (sIntc 0) ∧
    Goes (.intcGroupOpen 1 31) (sIntc 0) ∧
    Goes (.msixCoalRelease 1 0 0) (sIntc 0) ∧
    Goes (.msixCoalRelease 1 3 7) (sIntc 0) ∧
    Goes (.msixUnmask 1 255 7) (sIntc 0) := by
  refine ⟨goes_of_runs (((h 1 (sIntc 0) ?_ ?_).1 0 ?_).2.1 ?_),
    goes_of_runs (((h 1 (sIntc 0) ?_ ?_).1 5 ?_).1 ?_ ?_),
    goes_of_runs (((h 1 (sIntc 0) ?_ ?_).1 388 ?_).2.2 ?_),
    goes_of_runs ((((h 1 (sIntc 0) ?_ ?_).2.1 0).1 5 ?_).1 ?_),
    goes_of_runs ((((h 1 (sIntc 1) ?_ ?_).2.1 0).1 5 ?_).2 ?_),
    goes_of_runs (((h 1 (sIntc 0) ?_ ?_).2.1 3).2.1 ?_),
    goes_of_runs ((((h 1 (sIntc 0) ?_ ?_).2.1 0).2.2 0 ?_).2 ?_),
    goes_of_runs ((((h 1 (sIntc 0) ?_ ?_).2.1 3).2.2 388 ?_).1 ?_),
    goes_of_runs (((h 1 (sIntc 0) ?_ ?_).2.2.1 0 ?_ ?_).1),
    goes_of_runs (((h 1 (sIntc 0) ?_ ?_).2.2.1 31 ?_ ?_).2),
    goes_of_runs (((h 1 (sIntc 0) ?_ ?_).2.2.2.1 510 ?_).1),
    goes_of_runs (((h 1 (sIntc 0) ?_ ?_).2.2.2.1 0 ?_).2),
    goes_of_runs ((h 1 (sIntc 0) ?_ ?_).2.2.2.2.1 31 5 ?_ ?_),
    goes_of_runs (((h 1 (sIntc 0) ?_ ?_).2.2.2.2.2 0 0).1 5 ?_ ?_),
    goes_of_runs (((h 1 (sIntc 0) ?_ ?_).2.2.2.2.2 3 7).1 5 ?_ ?_),
    goes_of_runs (((h 1 (sIntc 0) ?_ ?_).2.2.2.2.2 255 7).2)⟩ <;>
  first
  | decide +kernel
  | exact Or.inr rfl

theorem witness_StartUp (h : Obligations.StartUp) :
    Goes (.resetRelease 0) sHeld ∧
    Goes (.supplyFault 1 false) s0 ∧
    Goes (.firmwareReady 1) s0 ∧
    Goes (.firmwareReady 1) sNoImage ∧
    Goes (.fwSwap (safe [])) sImages ∧
    Goes (.fwCommit (safe [])) sImages ∧
    Goes (.fwStatus (safe [])) sImages ∧
    Goes (.fwCommit (safe [])) sCommit ∧
    Goes (.fwLoad (safe [0, 8, 3, BitVec.toNat (crc32 (bytesOf chunk)), 5, 6])) sImages ∧
    Goes (.startupPut (safe [0x8A0A3C50, 100, 0x8A0A3C50, 100])) sImages ∧
    Goes (.flashWriteDone 1 none) sCommit ∧
    Goes (.swapQuiesceEnd 1) (sSwap false) ∧
    Goes (.swapTimeout 1) (sSwap false) ∧
    Goes (.swapImageReady 1) (sSwap true) ∧
    Goes (.seatedOpen 1) s0 ∧
    Goes (.leaveOpen 1) (sLeaves 0) ∧
    Goes (.leaveClosed 1) (sLeaves 0) ∧
    Goes (.leaveOpen 1) (sLeaves 1) ∧
    Goes (.leaveClosed 1) (sLeaves 1) := by
  refine ⟨goes_of_runs ((h.1 sHeld).2.1 0 ?_ ?_ ?_),
    goes_of_runs ((h.1 s0).1 1 false ?_),
    goes_of_runs (((h.1 s0).2.2 1 ?_ ?_).1 0 ?_ ?_),
    goes_of_runs (((h.1 sNoImage).2.2 1 ?_ ?_).2 ?_),
    goes_of_runs ((h.2.1.1 (safe []) sImages).2.1 ?_ ?_ ?_ ?_ ?_ ?_ ?_),
    goes_of_refuses (((h.2.1.1 (safe []) sImages).2.2.1 ?_).1 ?_),
    goes_of_answers ((h.2.1.1 (safe []) sImages).2.2.2.1 ?_),
    goes_of_runs (((h.2.1.1 (safe []) sCommit).2.2.1 ?_).2 ?_),
    goes_of_runs ((h.2.1.1 (safe [0, 8, 3, crc32 (bytesOf chunk) |>.toNat, 5, 6]) sImages).1 ?_ ?_ ?_ ?_ ?_ ?_ ?_ ?_ ?_ ?_ ?_),
    goes_of_runs ((h.2.1.1 (safe [0x8A0A3C50,100,0x8A0A3C50,100]) sImages).2.2.2.2 ?_ ?_ ?_ ?_ ?_),
    goes_of_answers ((h.2.1.2 1 sCommit ?_).2 (safe []) 1 5 [] ?_),
    goes_of_runs (((h.2.1.2 1 (sSwap false) ?_).1 ⟨900, false, safe []⟩ ?_).1 ?_ ?_),
    goes_of_refuses (((h.2.1.2 1 (sSwap false) ?_).1 ⟨900, false, safe []⟩ ?_).2.2),
    goes_of_answers (((h.2.1.2 1 (sSwap true) ?_).1 ⟨900, true, safe []⟩ ?_).2.1 ?_),
    goes_of_runs ((h.2.2 1 s0 ?_).1),
    goes_of_runs ((h.2.2 1 (sLeaves 0) ?_).2.2.1 ?_ ?_ ?_ ?_ ?_ ?_ ?_),
    goes_of_runs ((h.2.2 1 (sLeaves 0) ?_).2.2.2.2 ?_ ?_),
    goes_of_runs ((h.2.2 1 (sLeaves 1) ?_).2.1 ?_),
    goes_of_runs ((h.2.2 1 (sLeaves 1) ?_).2.2.2.1 ?_)⟩ <;>
  first
  | decide +kernel
  | (unfold Accepted; decide +kernel)
  | exact lanes_off (by decide +kernel)
  | exact contexts_stopped (by decide +kernel)

theorem witness_PowerAndClock (h : Obligations.PowerAndClock) :
    Goes (.pwrCtrlGoWrite 1 0) sC ∧
    Goes (.pwrCtrlGoWrite 1 0) (regs [(PWR_STATUS_STATE, 1)] sC) ∧
    Goes (.powerStatus ({ safe [] with rspLen := 564 })) sC ∧
    Goes (.powerRequest (safe [0])) sC ∧
    Goes (.powerVote (safe [0])) sC ∧
    Goes (.powerRequest (safe [0])) (regs [(PWR_STATUS_STATE, 1)] sC) ∧
    Goes (.pmbusTimeout) (sSleep (.onWait 1)) ∧
    Goes (.pmbusAck false) (sSleep (.onWait 1)) ∧
    Goes (.pmbusTimeout) (sSleep (.onWait 2)) ∧
    Goes (.standbyBoostsOff 1) (sSleep (.boosts 2)) ∧
    Goes (.wakeEvent 1 1) (sSleep (.boosts 2)) ∧
    Goes (.entryWindowOpen 1) (sSleep (.saved 2)) ∧
    Goes (.pmbusAck false) (sSleep (.offWait 2)) ∧
    Goes (.pmbusTimeout) (sSleep (.offWait 2)) ∧
    Goes (.wakeEvent 1 1) (sSleep (.asleep 2)) ∧
    Goes (.entryWindowEnd false) (sSleep (.window 3)) ∧
    Goes (.wakeEvent 1 4) (sSleep (.asleep 3)) ∧
    Goes (.domainSwitchOpen 1 133) (sDomain 133 (.isolated 601) false) ∧
    Goes (.domainSwitchOpen 1 0) (sDomain 0 (.isolated 601) true) ∧
    Goes (.domainSwitchOpen 1 142) (sDomain 142 (.isolated 601) true) ∧
    Goes (.domainRailGood 1 142) (sDomain 142 .rising true) ∧
    Goes (.domainSwitchOpen 1 44) (sDomain 44 (.isolated 601) true) ∧
    Goes (.domainRailGood 1 0) (sDomain 0 .rising true) ∧
    Goes (.rtcSecond 1) (sClock ⟨2024, 2, 28, 23, 59, 59⟩ true) ∧
    Goes (.rtcApply 1) (sClock ⟨2024, 2, 28, 23, 59, 59⟩ true) ∧
    Goes (.islandBrownOut 1) (sClock ⟨2024, 2, 28, 23, 59, 59⟩ true) ∧
    Goes (.islandSourceChange 1 false) (sClock ⟨2024, 2, 28, 23, 59, 59⟩ true) ∧
    Goes (.rtcTimeRead 1) (sClock ⟨2024, 2, 28, 23, 59, 59⟩ true) ∧
    Goes (.rtcTimeWrite 1 0) (sClock ⟨2024, 2, 28, 23, 59, 59⟩ true) ∧
    Goes (.rtcDateWrite 1 0) (sClock ⟨2024, 2, 28, 23, 59, 59⟩ true) ∧
    Goes (.rtcDateWrite 1 0x80000000) (sClock ⟨2024, 2, 28, 23, 59, 59⟩ true) ∧
    Goes (.rtcSet (safe [0, 0])) (sClock ⟨2024, 2, 28, 23, 59, 59⟩ true) ∧
    Goes (.rtcGet (safe [])) (sClock ⟨2024, 2, 28, 23, 59, 59⟩ true) ∧
    Goes (.rtcSecond 1) (sClock ⟨2399, 12, 31, 23, 59, 59⟩ false) ∧
    Goes (.rtcApply 1) (sClock ⟨2399, 12, 31, 23, 59, 59⟩ false) ∧
    Goes (.rtcSecond 1) (sClock ⟨2000,1,1,0,0,58⟩ true) := by
  refine ⟨goes_of_runs ((h.1.1.1 1 0 sC ?_ ?_).1 1 0x410 ?_),
    goes_of_runs ((h.1.1.1 1 0 (regs [(PWR_STATUS_STATE, 1)] sC) ?_ ?_).2 ?_ ?_),
    goes_of_answers ((h.1.1.2 ({ safe [] with rspLen := 564 }) sC).2.1 ?_),
    goes_of_refuses (((h.1.1.2 (safe [0]) sC).1 ?_ ?_).1 1 0x410 ?_),
    goes_of_answers ((h.1.1.2 (safe [0]) sC).2.2 ?_ ?_ ?_),
    goes_of_runs (((h.1.1.2 (safe [0]) (regs [(PWR_STATUS_STATE, 1)] sC)).1 ?_ ?_).2 ?_ ?_),
    goes_of_runs ((h.1.2.1 1 1 (sSleep (.onWait 1))).2.2.2.2.2.1 ?_),
    goes_of_runs ((h.1.2.1 1 1 (sSleep (.onWait 1))).2.2.2.2.2.2.2 1 ?_),
    goes_of_runs ((h.1.2.1 1 1 (sSleep (.onWait 2))).2.2.2.2.2.2.1 ?_),
    goes_of_runs ((h.1.2.1 1 2 (sSleep (.boosts 2))).1 ?_ ?_ ?_ ?_ ?_),
    goes_of_runs (((h.1.2.1 1 2 (sSleep (.boosts 2))).2.2.2.1 1 ?_ ?_).1 ?_ ?_),
    goes_of_runs ((h.1.2.1 1 2 (sSleep (.saved 2))).2.1 ?_ ?_),
    goes_of_runs (((h.1.2.1 1 2 (sSleep (.offWait 2))).2.2.2.2.1 ?_).1 false),
    goes_of_runs (((h.1.2.1 1 2 (sSleep (.offWait 2))).2.2.2.2.1 ?_).2),
    goes_of_runs ((((h.1.2.1 1 2 (sSleep (.asleep 2))).2.2.2.1 1 ?_ ?_).2 ?_).1 ?_),
    goes_of_runs ((h.1.2.1 1 3 (sSleep (.window 3))).2.2.1 ?_),
    goes_of_runs ((((h.1.2.1 1 3 (sSleep (.asleep 3))).2.2.2.1 4 ?_ ?_).2 ?_).2 ?_),
    goes_of_runs (((h.1.2.2 1 133 (sDomain 133 (.isolated 601) false) ?_ ?_ ?_).1 601 ?_ ?_).1 ?_),
    goes_of_runs (((h.1.2.2 1 0 (sDomain 0 (.isolated 601) true) ?_ ?_ ?_).1 601 ?_ ?_).2 ?_ ?_),
    goes_of_runs (((h.1.2.2 1 142 (sDomain 142 (.isolated 601) true) ?_ ?_ ?_).1 601 ?_ ?_).2 ?_ ?_),
    goes_of_runs ((h.1.2.2 1 142 (sDomain 142 .rising true) ?_ ?_ ?_).2 ?_ ?_ ?_),
    goes_of_runs (((h.1.2.2 1 44 (sDomain 44 (.isolated 601) true) ?_ ?_ ?_).1 601 ?_ ?_).2 ?_ ?_),
    goes_of_runs ((h.1.2.2 1 0 (sDomain 0 .rising true) ?_ ?_ ?_).2 ?_ ?_ ?_),
    goes_of_runs (((h.2 1 (sClock ⟨2024, 2, 28, 23, 59, 59⟩ true)).1 ?_).2.1 2024 2 28 ?_ ?_),
    goes_of_answers ((((h.2 1 (sClock ⟨2024, 2, 28, 23, 59, 59⟩ true)).1 ?_).2.2.2.1 ?_).1 23 59 59 (safe [0,0]) ?_ ?_ ?_ ?_),
    goes_of_runs (((h.2 1 (sClock ⟨2024, 2, 28, 23, 59, 59⟩ true)).1 ?_).2.2.2.2.1),
    goes_of_runs (((h.2 1 (sClock ⟨2024, 2, 28, 23, 59, 59⟩ true)).1 ?_).2.2.2.2.2 false),
    goes_of_runs (((h.2 1 (sClock ⟨2024, 2, 28, 23, 59, 59⟩ true)).2.1 ?_).1),
    goes_of_runs ((((h.2 1 (sClock ⟨2024, 2, 28, 23, 59, 59⟩ true)).2.1 ?_).2 0 ?_).1),
    goes_of_runs ((((h.2 1 (sClock ⟨2024, 2, 28, 23, 59, 59⟩ true)).2.1 ?_).2 0 ?_).2.1 ?_),
    goes_of_runs ((((h.2 1 (sClock ⟨2024, 2, 28, 23, 59, 59⟩ true)).2.1 ?_).2 0x80000000 ?_).2.2 ?_),
    goes_of_runs (((h.2 1 (sClock ⟨2024, 2, 28, 23, 59, 59⟩ true)).2.2 (safe [0,0])).1 ?_ ?_ ?_),
    (((h.2 1 (sClock ⟨2024, 2, 28, 23, 59, 59⟩ true)).2.2 (safe [])).2 ?_).elim fun _ x => goes_of_answers x,
    goes_of_runs (((h.2 1 (sClock ⟨2399, 12, 31, 23, 59, 59⟩ false)).1 ?_).2.2.1 ?_),
    goes_of_refuses ((((h.2 1 (sClock ⟨2399, 12, 31, 23, 59, 59⟩ false)).1 ?_).2.2.2.1 ?_).2 (safe [0,0]) ?_ ?_),
    goes_of_runs (((h.2 1 (sClock ⟨2000,1,1,0,0,58⟩ true)).1 ?_).1 ?_)⟩ <;>
  first
  | decide +kernel
  | (unfold Accepted; decide +kernel)
  | (unfold AllOn; decide +kernel)
  | exact others_kept (by decide +kernel)

theorem witness_FaultRecords (h : Obligations.FaultRecords) :
    Goes (.faultRecord 1) (sBook none) ∧
    Goes (.fieldBookWrite 1 true) (sBook none) ∧
    Goes (.fieldBookWrite 1 true) (sBook (some record)) ∧
    Goes (.fieldBookScanDone 1) (sScan 0) ∧
    Goes (.faultClear 0 (safe [2 ^ 31, 0, 1])) (sScan 0) ∧
    Goes (.faultClear 0 (safe [0, 0, 16])) (sScan 0) ∧
    Goes (.fieldBookRead (safe [7, 0, 5])) (sScan 1) := by
  refine ⟨goes_of_runs ((h (sBook none)).1 1 ⟨0x0501, 0x20, 9, 0, 990, false⟩ [] ?_ ?_ ?_ ?_ ?_ ?_ ?_),
    goes_of_runs (((h (sBook none)).2.1 1 record [] ?_ ?_ ?_ ?_).1 ?_ ?_),
    goes_of_runs (((h (sBook (some record))).2.1 1 record [] ?_ ?_ ?_ ?_).2 ?_ ?_ ?_),
    goes_of_runs ((h (sScan 0)).2.2.1 1 bookSlot bookSlot ?_ ?_ ?_ ?_ ?_ ?_),
    goes_of_answers ((((h (sScan 0)).2.2.2 (safe [2^31, 0, 1])).2 0 ?_ ?_ ?_).1 31 ?_ ?_ ?_ ?_ ?_ ?_ ?_),
    goes_of_answers ((((h (sScan 0)).2.2.2 (safe [0,0,16])).2 0 ?_ ?_ ?_).2 ?_ ?_ ?_ ?_ ?_),
    goes_of_answers (((h (sScan 1)).2.2.2 (safe [7, 0, 5])).1 ?_ ?_ ?_ ?_ ?_)⟩ <;>
  first
  | decide +kernel
  | (unfold Accepted; decide +kernel)
  | exact flags_clear CLI_HL_STATUS_SESSION _ (fun _ => ⟨rfl, rfl⟩) (by decide) (by decide +kernel)

theorem witness_PairedWrites (h : Obligations.PairedWrites) :
    Goes (.pairedWriteValue 1 0 0) (sSlot 1000) ∧
    Goes (.pairedWriteComplement 1 0 0) (sSlot 1000) ∧
    Goes (.pairedWriteExpiry 1) (sSlot 1000) ∧
    Goes (.pairedWriteComplement 1 18 0) (sSlot 1000) ∧
    Goes (.pairedWriteComplement 1 18 (~~~0x03840064)) (sSlot 1000) ∧
    Goes (.pairedWriteComplement 1 18 0) (sSlot 936) := by
  refine ⟨goes_of_runs (((h 1 0 (sSlot 1000) ?_ ?_).1 0).1),
    goes_of_runs (((h 1 0 (sSlot 1000) ?_ ?_).1 0).2.1 ?_),
    goes_of_runs ((h 1 0 (sSlot 1000) ?_ ?_).2),
    goes_of_runs ((((h 1 18 (sSlot 1000) ?_ ?_).1 0).2.2 ⟨0x03840064, 1000, false⟩ ?_).2.1 ?_ ?_ ?_),
    goes_of_runs ((((h 1 18 (sSlot 1000) ?_ ?_).1 (~~~0x03840064)).2.2 ⟨0x03840064, 1000, false⟩ ?_).2.2 15 ?_ ?_ ?_ ?_ ?_ ?_),
    goes_of_runs ((((h 1 18 (sSlot 936) ?_ ?_).1 0).2.2 ⟨0x03840064, 936, false⟩ ?_).1 ?_)⟩ <;>
  first
  | decide +kernel
  | exact Or.inr (by decide +kernel)

theorem witness_RegisterAccesses (h : Obligations.RegisterAccesses) :
    Goes (.registerWrite 1 255 true 0 0 0) s0 ∧
    Goes (.readClearRead 1 3 true 0 0) s0 ∧
    Goes (.registerWrite 1 3 false 0 0 0) s0 ∧
    Goes (.registerWrite 1 0 true 8191 0 0) s0 ∧
    Goes (.readClearRead 1 0 true 8191 0) s0 ∧
    Goes (.registerWrite 1 0 false 0 0 0) s0 ∧
    Goes (.registerWrite 1 0 true (BitVec.ofNat 14 (HL_SHED_CFG / 4)) 15 0) s0 ∧
    Goes (.readClearRead 1 0 true (BitVec.ofNat 14 (HL_LOAD / 4)) 15) s0 ∧
    Goes (.whlInCfgWrite 1 0 0) s0 ∧
    Goes (.whlDirCfgWrite 1 0) s0 ∧
    Goes (.whlDirCfgWrite 1 0x04030201) s0 ∧
    Goes (.angBandWrite 1 0 0x00C80064) s0 ∧
    Goes (.seqQuotaWrite 1 0 0) s0 ∧
    Goes (.plsOwnerWrite 1 0 0) s0 ∧
    Goes (.whlInCfgWrite 1 3 0) sLocked ∧
    Goes (.angBandWrite 1 0 0) sLocked ∧
    Goes (.seqQuotaWrite 1 3 0) sQuotas ∧
    Goes (.plsOwnerWrite 1 0 0) sQuotas := by
  refine ⟨goes_of_runs ((((h 1 s0 ?_ ?_).1 255 0 0 0).1 ?_).1),
    goes_of_runs ((((h 1 s0 ?_ ?_).1 3 0 0 0).1 ?_).2),
    ⟨_, (((h 1 s0 ?_ ?_).1 3 0 0 0).2.1 ?_).1⟩,
    goes_of_runs ((((h 1 s0 ?_ ?_).1 0 0x1FFF 0 0).2.2.1 true ?_ ?_).1),
    goes_of_runs ((((h 1 s0 ?_ ?_).1 0 0x1FFF 0 0).2.2.1 true ?_ ?_).2),
    goes_of_runs (((h 1 s0 ?_ ?_).1 0 0 0 0).2.2.2 false ?_ ?_ ?_),
    goes_of_runs ((h 1 s0 ?_ ?_).2.1 0),
    goes_of_runs ((h 1 s0 ?_ ?_).2.2.1),
    goes_of_runs (((h 1 s0 ?_ ?_).2.2.2.1 0 0).1 ?_),
    goes_of_runs (((h 1 s0 ?_ ?_).2.2.2.1 0 0).2.2.2.1 ?_),
    goes_of_runs (((h 1 s0 ?_ ?_).2.2.2.1 0 0x04030201).2.2.1 ?_ ?_ ?_),
    goes_of_runs (((h 1 s0 ?_ ?_).2.2.2.1 0 0x00C80064).2.2.2.2.2 ?_ ?_),
    goes_of_runs (((h 1 s0 ?_ ?_).2.2.2.2.1 0 0).1 ?_ ?_),
    goes_of_runs (((h 1 s0 ?_ ?_).2.2.2.2.2 0 0).1 ?_),
    goes_of_runs (((h 1 sLocked ?_ ?_).2.2.2.1 3 0).2.1 ?_),
    goes_of_runs (((h 1 sLocked ?_ ?_).2.2.2.1 0 0).2.2.2.2.1 ?_),
    goes_of_runs (((h 1 sQuotas ?_ ?_).2.2.2.2.1 3 0).2 ?_),
    goes_of_runs (((h 1 sQuotas ?_ ?_).2.2.2.2.2 0 0).2 ?_)⟩ <;>
  decide +kernel

theorem witness_WheelCommands (h : Obligations.WheelCommands) :
    Goes (.loadWheel wheelMsg true) sRest ∧
    Goes (.resync (msg [])) sRest ∧
    Goes (.firingTableClear (msg [])) sRest ∧
    Goes (.resync (msg [])) sSighted ∧
    Goes (.loadStations (msg [2, 0, 256]) true) sRest ∧
    Goes (.learnClosure (msg [264])) sTurns ∧
    Goes (.closureMapGet (msg [1])) sRest ∧
    Goes (.closureMapPut (msg ([0x032A0000, 0] ++ List.replicate 12 0))) sRestTwelve := by
  refine ⟨goes_of_answers ((h wheelMsg sRest).1 ?_ ?_ ?_ ?_ ?_),
    goes_of_answers (((h (msg []) sRest).2.1 w60 ?_ ?_ ?_).1 ?_),
    goes_of_answers ((h (msg []) sRest).2.2.2.2.2.2 ?_),
    goes_of_answers (((h (msg []) sSighted).2.1 w60 ?_ ?_ ?_).2 ?_ ?_ ?_),
    goes_of_answers ((h (msg [2, 0, 0x100]) sRest).2.2.1 ?_ ?_ ?_ ?_ ?_ ?_ ?_ ?_),
    goes_of_runs ((h (msg [0x108]) sTurns).2.2.2.1 w60 ?_ ?_ ?_ ?_ ?_ ?_ ?_ ?_ ?_ ?_ ?_),
    goes_of_answers ((h (msg [1]) sRest).2.2.2.2.1 w60 ?_ ?_ ?_),
    goes_of_runs ((h (msg ([0x032A0000, 0] ++ List.replicate 12 0)) sRestTwelve).2.2.2.2.2.1 wTwelve ?_ ?_ ?_ ?_ ?_ ?_ ?_ ?_ ?_ ?_)⟩ <;>
  first
  | decide +kernel
  | (unfold Accepted; decide +kernel)

set_option maxRecDepth 10000 in
theorem witness_PulseCommands (h : Obligations.PulseCommands) :
    Goes (.loadPulseImage imageMsg) (sOwned 0) ∧
    Goes (.pulseStart (msg [3])) (sOwned 0) ∧
    Goes (.pulseStop (msg [0xFFFF0003])) (sOwned 0) ∧
    Goes (.pulseSwitch (msg [3])) (sOwned 1) ∧
    Goes (.pulseQueueGet (msg [0x00010003])) (sOwned 0) ∧
    Goes (.pulseParamPut (msg [0x07FF0103, 7])) (sOwned 0) ∧
    Goes (.pulseParamPut (msg [0x07FF0103, 7])) sOwnedLate ∧
    Goes (.pulseParamGet (msg [0x07FF0103])) (sOwned 0) ∧
    Goes (.pulseQueuePut (msg [0x00010003, 5])) (sOwned 0) := by
  refine ⟨goes_of_answers ((h imageMsg (sOwned 0) ?_).1 ?_ ?_ ?_ ?_ ?_),
    goes_of_answers ((h (msg [3]) (sOwned 0) ?_).2.2.1 ?_ ?_ ?_),
    goes_of_answers ((h (msg [0xFFFF0003]) (sOwned 0) ?_).2.2.2.1 ?_ ?_ ?_ ?_ ?_),
    goes_of_runs ((h (msg [3]) (sOwned 1) ?_).2.1 ?_ ?_ ?_ ?_),
    goes_of_answers (((h (msg [0x00010003]) (sOwned 0) ?_).2.2.2.2.2 ?_ ?_ ?_).2 ?_ ?_),
    goes_of_answers (((h (msg [0x07FF0103, 7]) (sOwned 0) ?_).2.2.2.2.1 ?_ ?_ ?_ ?_).1 ?_ ?_ |>.1 ?_),
    goes_of_runs (((h (msg [0x07FF0103, 7]) sOwnedLate ?_).2.2.2.2.1 ?_ ?_ ?_ ?_).1 ?_ ?_ |>.2 ?_),
    goes_of_answers (((h (msg [0x07FF0103]) (sOwned 0) ?_).2.2.2.2.1 ?_ ?_ ?_ ?_).2 ?_),
    goes_of_answers (((h (msg [0x00010003, 5]) (sOwned 0) ?_).2.2.2.2.2 ?_ ?_ ?_).1 ?_ ?_ ?_)⟩ <;>
  first
  | decide +kernel
  | (unfold Accepted; decide +kernel)
  | exact lanes_off (by decide +kernel)

theorem witness_EventCommands (h : Obligations.EventCommands) :
    Goes (.armEvent armMsg true) sRest ∧
    Goes (.cancelEvent (msg [4]) true) (sEvents .waiting 0) ∧
    Goes (.cancelEvent (msg [4]) false) (sEvents .waiting 0) ∧
    Goes (.eventQuery (msg [4]) true) (sEvents .waiting 0) ∧
    Goes (.cancelEvent (msg [4]) true) (sEvents .running 1) ∧
    Goes (.updateEvent (msg [4, 0, 100, 0]) true) (sEvents .waiting 0) ∧
    Goes (.bankSwitch (msg [0, 65535]) true) sRest ∧
    Goes (.bankClear (msg [0]) true) sRest ∧
    Goes (.safetyCut (msg [1, 1]) true) sPlain ∧
    Goes (.safetyRelease (msg [1, 1]) true) sPlain := by
  refine ⟨goes_of_answers ((h armMsg sRest).1 w60 0 ?_ ?_ ?_ ?_ ?_ ?_ ?_ ?_),
    goes_of_answers (((h (msg [4]) (sEvents .waiting 0)).2.1 dWaiting ?_ ?_ ?_ ?_ ?_).1 ?_ |>.1),
    goes_of_refuses (((h (msg [4]) (sEvents .waiting 0)).2.1 dWaiting ?_ ?_ ?_ ?_ ?_).1 ?_ |>.2),
    goes_of_answers ((h (msg [4]) (sEvents .waiting 0)).2.2.2.1 dWaiting ?_ ?_ ?_),
    goes_of_refuses (((h (msg [4]) (sEvents .running 1)).2.1 dRunning ?_ ?_ ?_ ?_ ?_).2 ?_ ?_),
    goes_of_answers ((h (msg [4, 0, 100, 0]) (sEvents .waiting 0)).2.2.1 dWaiting w60 ?_ ?_ ?_ ?_ ?_ ?_ ?_ ?_),
    goes_of_answers ((h (msg [0, 65535]) sRest).2.2.2.2.1 ?_ ?_ ?_ ?_ ?_),
    goes_of_answers ((h (msg [0]) sRest).2.2.2.2.2.1 ?_ ?_ ?_ ?_),
    goes_of_answers ((h (msg [1,1]) sPlain).2.2.2.2.2.2.1 ?_ ?_ ?_ ?_),
    goes_of_answers ((h (msg [1,1]) sPlain).2.2.2.2.2.2.2 ?_ ?_)⟩ <;>
  first
  | decide +kernel
  | (unfold Accepted; decide +kernel)
  | exact lanes_off (by decide +kernel)
  | exact Or.inl ⟨by decide +kernel, by decide +kernel⟩


theorem witness_StepRunsFront (h : Obligations.StepRunsFront) :
    step { s0 with pending := [.vrArmTimeout 1 0, .coast 1] } = exec (.vrArmTimeout 1 0) { s0 with pending := [.coast 1] } ∧ step s0 = .next s0 :=
  ⟨h.1 _ _ _ rfl, h.2 _ rfl⟩

/-- The state after `c` from `s`, or `s` where it stops. -/
def next (c : Instr) (s : State) : State :=
  match exec c s with
  | .next t => t
  | _ => s

theorem witness_StepKeepsSound (h : Obligations.StepKeepsSound) : Sound (next (.vrArmTimeout 1 3) { sCrank with pending := [] }) :=
  h { sCrank with pending := [.vrArmTimeout 1 3] } _ (by unfold Sound; decide +kernel) (by rfl)

theorem witness_FlashContents (h : Obligations.FlashContents) :
    (next (.vrArmTimeout 1 3) sCrank).boot.preferred = sCrank.boot.preferred ∧ sHeld.boot.counter ≤ (next (.wakeEvent 1 3) { sHeld with pending := [] }).boot.counter :=
  ⟨(h.1 (.vrArmTimeout 1 3) sCrank _ (by decide +kernel) (by simp) (by simp) (by rfl)).2.2.1,
    h.2 { sHeld with pending := [.wakeEvent 1 3] } _ (by unfold Sound; decide +kernel) (by rfl)⟩

theorem witness_StoredWords (h : Obligations.StoredWords) :
    (next (.vrArmTimeout 1 3) sCrank).acq.sample = sCrank.acq.sample ∧ Goes (.pairedWriteExpiry 1) (sSlot 936) :=
  ⟨(h (.vrArmTimeout 1 3) sCrank _ (by decide +kernel) (by rfl)).1 rfl rfl,
    ⟨_, by
      have := (h (.pairedWriteExpiry 1) (sSlot 936) (next (.pairedWriteExpiry 1) (sSlot 936)) (by decide +kernel) (by rfl)).2 rfl (by decide +kernel)
      rfl⟩⟩

/-- A `TRIM_RESET` of client 0, the SAFETY client, waits. -/
def sFirst : State := { sC with host := { sC.host with clients := [(0, { requests := [⟨0x0169, false, safe [1, 0], 5, true, true, false⟩] })] } }

/-- The clauses in their order: no firmware, not its turn, no session, a session below the opcode's version, a class that the opcode is not open
to, and a word too few. -/
theorem witness_CommonChecks (h : Obligations.CommonChecks) :
    let m := msg [0, 0]
    let one := msg [0]
    let closing := fun (m : Msg) (status detail : Nat) (s : State) => exec (.trimReset m) s = .next (respond 0x0169 m status detail [] s)
    exec (.trimReset m) s0 = .next s0 ∧
      exec (.trimReset m) sFirst = .next sFirst ∧
      closing m 0x17 0 (regs [(GLB_BOOT_FW_READY, 1)] s0) ∧
      closing m 0x1A 0 (regs [(CLI_HL_STATUS_VERSION 3, 0x21)] sC) ∧
      exec (.fieldBookRead (msg [7, 0, 31])) sC = .next (respond 0x0310 (msg [7, 0, 31]) 0x15 0 [] sC) ∧
      closing m 0x02 0 (regs [(HL_CLIENT_CLASS 3, 2)] sC) ∧
      closing one 0x0B 0xFF (regs [(CLI_HL_STATUS_VERSION 3, 0x22)] sC) := by
  intro m one closing
  refine ⟨(h (.trimReset m) _ m _ s0 rfl rfl ?_).1 ?_ ?_,
    (h (.trimReset m) _ m _ sFirst rfl rfl ?_).2.1 ?_,
    ((h (.trimReset m) _ m _ _ rfl rfl ?_).2.2 ?_ ?_).1 ?_ ?_,
    ((h (.trimReset m) _ m _ _ rfl rfl ?_).2.2 ?_ ?_).2.1 ?_ ?_ ?_,
    (((h (.fieldBookRead _) _ _ _ _ rfl rfl ?_).2.2 ?_ ?_).2.2 ?_ ?_ ?_).1 ?_ ?_,
    ((((h (.trimReset m) _ m _ _ rfl rfl ?_).2.2 ?_ ?_).2.2 ?_ ?_ ?_).2 ?_).1 ?_ ?_ ?_,
    ((((h (.trimReset one) _ one _ _ rfl rfl ?_).2.2 ?_ ?_).2.2 ?_ ?_ ?_).2 ?_).2 2 ?_ ?_ ?_⟩ <;>
  decide +kernel

theorem witness_StepsGoOn (h : Obligations.StepsGoOn) : ∃ t, step { sMon none 8 0 with pending := [.coast 1] } = .next t ∧ t.pending = [] :=
  h _ (by unfold Sound; decide +kernel)

end Sys2Proof.Tests
end

section
namespace Sys2Proof.Machine

/-! ### What one command keeps -/

/-- The commands that change paired-write slots or the contents of flash, or bring a full reset (register reference R535, R536, start-up
R430, R432, R440). -/
def changesStored (c : Instr) : Bool :=
  match c with
  | .perst .. | .hotReset .. | .functionLevelReset .. | .supplyFault .. | .firmwareReady .. | .swapImageReady ..
  | .entryWindowEnd .. | .wakeEvent .. | .pmbusAck .. | .pmbusTimeout .. | .pairedWriteValue .. | .pairedWriteComplement ..
  | .pairedWriteExpiry .. | .registerWrite .. | .fwLoad .. | .flashWriteDone .. => true
  | _ => false

/-- A command that neither stores samples nor changes what is stored leaves every kept part. -/
theorem exec_still {c : Instr} {s t : State} (hm : storesSamples c = false) (hc : changesStored c = false) (h : exec c s = .next t) :
    t.still = s.still := by
  cases c with
  | trackerDisagree | crankEdge | camEdge | camWindowExpiry | coast | frozenInput | pulseStakeFire | acqAngleTrigger
  | acqTimeTrigger | conversionDone | knockWindowOpen | knockTrigger | knockWindowClose | loadWheel | resync => nomatch hm
  | perst | hotReset | functionLevelReset | supplyFault | firmwareReady | swapImageReady | entryWindowEnd | wakeEvent
  | pmbusAck | pmbusTimeout | pairedWriteValue | pairedWriteComplement | pairedWriteExpiry | registerWrite | fwLoad
  | flashWriteDone => nomatch hc
  | add | sub | and | or | xor | shl | shr | mul16 | ldp | stp | waita | waitt | waite | stk | capt | adct | qin | qout | br
  | brz | brn | brc | yield | halt =>
    exact instruction_still h
  | pace => exact execPace_still (h := h) ..
  | stakeFire => exact execStakeFire_still (h := h) ..
  | profileFrame => exact execProfileFrame_still (h := h) ..
  | statusReturnFrame => exact execStatusReturnFrame_still (h := h) ..
  | laneFault => exact execLaneFault_still (h := h) ..
  | vrArmTimeout => exact execVrArmTimeout_still (h := h) ..
  | chainWait => exact execChainWait_still (h := h) ..
  | benchmarkCrossing => exact execBenchmarkCrossing_still (h := h) ..
  | closureLearnEnd => exact execClosureLearnEnd_still (h := h) ..
  | pulseWake => exact execPulseWake_still (h := h) ..
  | waitLimitExpiry => exact execWaitLimitExpiry_still (h := h) ..
  | pulseBankExchange => exact execPulseBankExchange_still (h := h) ..
  | phaseExitTime => exact execPhaseExitTime_still (h := h) ..
  | windowComparatorCrossing => exact execWindowComparatorCrossing_still (h := h) ..
  | regulationMinTime => exact execRegulationMinTime_still (h := h) ..
  | timeOnlyToggle => exact execTimeOnlyToggle_still (h := h) ..
  | decayEnd => exact execDecayEnd_still (h := h) ..
  | dutyLimitReached => exact execDutyLimitReached_still (h := h) ..
  | plausTimeout => exact execPlausTimeout_still (h := h) ..
  | profileStoreDone => exact execProfileStoreDone_still (h := h) ..
  | senseCalRun => exact execSenseCalRun_still (h := h) ..
  | senseCalDone => exact execSenseCalDone_still (h := h) ..
  | senseCalTimeout => exact execSenseCalTimeout_still (h := h) ..
  | boostReadyChange => exact execBoostReadyChange_still (h := h) ..
  | boostPrechargeTimeout => exact execBoostPrechargeTimeout_still (h := h) ..
  | boostFail => exact execBoostFail_still (h := h) ..
  | boostDischargeEnd => exact execBoostDischargeEnd_still (h := h) ..
  | clampEngage => exact execClampEngage_still (h := h) ..
  | clampRelease => exact execClampRelease_still (h := h) ..
  | boostWaitExpiry => exact execBoostWaitExpiry_still (h := h) ..
  | rampViolation => exact execRampViolation_still (h := h) ..
  | desaturation => exact execDesaturation_still (h := h) ..
  | offStateTest => exact execOffStateTest_still (h := h) ..
  | offStateTestResult => exact execOffStateTestResult_still (h := h) ..
  | openLoadCheck => exact execOpenLoadCheck_still (h := h) ..
  | channelThermal => exact execChannelThermal_still (h := h) ..
  | substrateThermal => exact execSubstrateThermal_still (h := h) ..
  | retryRelease => exact execRetryRelease_still (h := h) ..
  | closingKink => exact execClosingKink_still (h := h) ..
  | closingWindowEnd => exact execClosingWindowEnd_still (h := h) ..
  | inrushEnd => exact execInrushEnd_still (h := h) ..
  | auxShort => exact execAuxShort_still (h := h) ..
  | auxOpenLoad => exact execAuxOpenLoad_still (h := h) ..
  | auxBackfeed => exact execAuxBackfeed_still (h := h) ..
  | auxThermal => exact execAuxThermal_still (h := h) ..
  | tieTrainingDone => exact execTieTrainingDone_still (h := h) ..
  | tieTrainingTimeout => exact execTieTrainingTimeout_still (h := h) ..
  | tieStateFrame => exact execTieStateFrame_still (h := h) ..
  | backgroundBlock => exact execBackgroundBlock_still (h := h) ..
  | tieSilence => exact execTieSilence_still (h := h) ..
  | resignEdge => exact execResignEdge_still (h := h) ..
  | resignRelease => exact execResignRelease_still (h := h) ..
  | resignStuck => exact execResignStuck_still (h := h) ..
  | isolationClose => exact execIsolationClose_still (h := h) ..
  | benchmarkEdge => exact execBenchmarkEdge_still (h := h) ..
  | benchmarkPulseMissing => exact execBenchmarkPulseMissing_still (h := h) ..
  | benchmarkListenEnd => exact execBenchmarkListenEnd_still (h := h) ..
  | benchmarkClaim => exact execBenchmarkClaim_still (h := h) ..
  | quietHandoverResign => exact execQuietHandoverResign_still (h := h) ..
  | handoverTimeout => exact execHandoverTimeout_still (h := h) ..
  | referenceSettled => exact execReferenceSettled_still (h := h) ..
  | extRefRange => exact execExtRefRange_still (h := h) ..
  | monitorViolation => exact execMonitorViolation_still (h := h) ..
  | monitorRecover => exact execMonitorRecover_still (h := h) ..
  | monitorAutoTest => exact execMonitorAutoTest_still (h := h) ..
  | monitorTestStep => exact execMonitorTestStep_still (h := h) ..
  | timerMatch => exact execTimerMatch_still (h := h) ..
  | timerCapture => exact execTimerCapture_still (h := h) ..
  | pinEngineTick => exact execPinEngineTick_still (h := h) ..
  | positionInputChange => exact execPositionInputChange_still (h := h) ..
  | positionIndex => exact execPositionIndex_still (h := h) ..
  | sentFrame => exact execSentFrame_still (h := h) ..
  | ssiFrameStart => exact execSsiFrameStart_still (h := h) ..
  | ssiFrameDone => exact execSsiFrameDone_still (h := h) ..
  | positionSourceLost => exact execPositionSourceLost_still (h := h) ..
  | doorbell => exact execDoorbell_still (h := h) ..
  | requestRead => exact execRequestRead_still (h := h) ..
  | indirectFetchDone => exact execIndirectFetchDone_still (h := h) ..
  | heldNoticeWrite => exact execHeldNoticeWrite_still (h := h) ..
  | faultRecord => exact execFaultRecord_still (h := h) ..
  | leaseExpiry => exact execLeaseExpiry_still (h := h) ..
  | dataLinkDown => exact execDataLinkDown_still (h := h) ..
  | vfEnableClear => exact execVfEnableClear_still (h := h) ..
  | loadWindow => exact execLoadWindow_still (h := h) ..
  | shedTimeout => exact execShedTimeout_still (h := h) ..
  | watchdogExpiry => exact execWatchdogExpiry_still (h := h) ..
  | coreRestartDone => exact execCoreRestartDone_still (h := h) ..
  | canFrameReceived => exact execCanFrameReceived_still (h := h) ..
  | canTpTimeout => exact execCanTpTimeout_still (h := h) ..
  | canBusOff => exact execCanBusOff_still (h := h) ..
  | canRejoin => exact execCanRejoin_still (h := h) ..
  | dmaBurstDone => exact execDmaBurstDone_still (h := h) ..
  | dmaRetry => exact execDmaRetry_still (h := h) ..
  | intcRequest => exact execIntcRequest_still (h := h) ..
  | intcAccept => exact execIntcAccept_still (h := h) ..
  | intcGroupOpen => exact execIntcGroupOpen_still (h := h) ..
  | msixCoalRelease => exact execMsixCoalRelease_still (h := h) ..
  | msixUnmask => exact execMsixUnmask_still (h := h) ..
  | resetRelease => exact execResetRelease_still (h := h) ..
  | swapQuiesceEnd => exact execSwapQuiesceEnd_still (h := h) ..
  | swapTimeout => exact execSwapTimeout_still (h := h) ..
  | standbyBoostsOff => exact execStandbyBoostsOff_still (h := h) ..
  | entryWindowOpen => exact execEntryWindowOpen_still (h := h) ..
  | domainSwitchOpen => exact execDomainSwitchOpen_still (h := h) ..
  | domainRailGood => exact execDomainRailGood_still (h := h) ..
  | rtcSecond => exact execRtcSecond_still (h := h) ..
  | rtcApply => exact execRtcApply_still (h := h) ..
  | islandBrownOut => exact execIslandBrownOut_still (h := h) ..
  | fieldBookWrite => exact execFieldBookWrite_still (h := h) ..
  | fieldBookScanDone => exact execFieldBookScanDone_still (h := h) ..
  | seatedOpen => exact execSeatedOpen_still (h := h) ..
  | leaveOpen => exact execLeaveOpen_still (h := h) ..
  | leaveClosed => exact execLeaveClosed_still (h := h) ..
  | readClearRead => exact execReadClearRead_still (h := h) ..
  | whlInCfgWrite => exact execWhlInCfgWrite_still (h := h) ..
  | whlDirCfgWrite => exact execWhlDirCfgWrite_still (h := h) ..
  | angBandWrite => exact execAngBandWrite_still (h := h) ..
  | seqQuotaWrite => exact execSeqQuotaWrite_still (h := h) ..
  | plsOwnerWrite => exact execPlsOwnerWrite_still (h := h) ..
  | drvPairWrite => exact execDrvPairWrite_still (h := h) ..
  | drvChCfgWrite => exact execDrvChCfgWrite_still (h := h) ..
  | bstCfgWrite => exact execBstCfgWrite_still (h := h) ..
  | prtLatchWrite => exact execPrtLatchWrite_still (h := h) ..
  | auxLatchWrite => exact execAuxLatchWrite_still (h := h) ..
  | pairCfgWrite => exact execPairCfgWrite_still (h := h) ..
  | acqRefWrite => exact execAcqRefWrite_still (h := h) ..
  | acqUrgGoWrite => exact execAcqUrgGoWrite_still (h := h) ..
  | tmrStartWrite => exact execTmrStartWrite_still (h := h) ..
  | tmrStopWrite => exact execTmrStopWrite_still (h := h) ..
  | peRunWrite => exact execPeRunWrite_still (h := h) ..
  | peTxWrite => exact execPeTxWrite_still (h := h) ..
  | peRxRead => exact execPeRxRead_still (h := h) ..
  | posCountWrite => exact execPosCountWrite_still (h := h) ..
  | cliReqResumeWrite => exact execCliReqResumeWrite_still (h := h) ..
  | cliRspHeadWrite => exact execCliRspHeadWrite_still (h := h) ..
  | cliFltHeadWrite => exact execCliFltHeadWrite_still (h := h) ..
  | cliRingCfgWrite => exact execCliRingCfgWrite_still (h := h) ..
  | cliKeepaliveWrite => exact execCliKeepaliveWrite_still (h := h) ..
  | cliPwrVoteWrite => exact execCliPwrVoteWrite_still (h := h) ..
  | hlClientWrite => exact execHlClientWrite_still (h := h) ..
  | hlOwnWrite => exact execHlOwnWrite_still (h := h) ..
  | canBindWrite => exact execCanBindWrite_still (h := h) ..
  | canRestartWrite => exact execCanRestartWrite_still (h := h) ..
  | dmaStartWrite => exact execDmaStartWrite_still (h := h) ..
  | dmaAbortWrite => exact execDmaAbortWrite_still (h := h) ..
  | dmaGrantWrite => exact execDmaGrantWrite_still (h := h) ..
  | intcClaimRead => exact execIntcClaimRead_still (h := h) ..
  | intcCompleteWrite => exact execIntcCompleteWrite_still (h := h) ..
  | intcHoldSetWrite => exact execIntcHoldSetWrite_still (h := h) ..
  | intcHoldClrWrite => exact execIntcHoldClrWrite_still (h := h) ..
  | intcEnSetWrite => exact execIntcEnSetWrite_still (h := h) ..
  | intcEnClrWrite => exact execIntcEnClrWrite_still (h := h) ..
  | pwrCtrlGoWrite => exact execPwrCtrlGoWrite_still (h := h) ..
  | rtcTimeRead => exact execRtcTimeRead_still (h := h) ..
  | rtcTimeWrite => exact execRtcTimeWrite_still (h := h) ..
  | rtcDateWrite => exact execRtcDateWrite_still (h := h) ..
  | hello => exact execHello_still (h := h) ..
  | goodbye => exact execGoodbye_still (h := h) ..
  | echo => exact execEcho_still (h := h) ..
  | loadStations => exact execLoadStations_still (h := h) ..
  | learnClosure => exact execLearnClosure_still (h := h) ..
  | closureMapGet => exact execClosureMapGet_still (h := h) ..
  | closureMapPut => exact execClosureMapPut_still (h := h) ..
  | firingTableClear => exact execFiringTableClear_still (h := h) ..
  | loadPulseImage => exact execLoadPulseImage_still (h := h) ..
  | pulseSwitch => exact execPulseSwitch_still (h := h) ..
  | pulseStart => exact execPulseStart_still (h := h) ..
  | pulseStop => exact execPulseStop_still (h := h) ..
  | pulseParamPut => exact execPulseParamPut_still (h := h) ..
  | pulseParamGet => exact execPulseParamGet_still (h := h) ..
  | pulseQueuePut => exact execPulseQueuePut_still (h := h) ..
  | pulseQueueGet => exact execPulseQueueGet_still (h := h) ..
  | profilePut => exact execProfilePut_still (h := h) ..
  | profileGet => exact execProfileGet_still (h := h) ..
  | channelConfig => exact execChannelConfig_still (h := h) ..
  | senseCal => exact execSenseCal_still (h := h) ..
  | boostConfig => exact execBoostConfig_still (h := h) ..
  | protectConfig => exact execProtectConfig_still (h := h) ..
  | protectClear => exact execProtectClear_still (h := h) ..
  | boostStatus => exact execBoostStatus_still (h := h) ..
  | closingConfig => exact execClosingConfig_still (h := h) ..
  | trimReset => exact execTrimReset_still (h := h) ..
  | closingStatus => exact execClosingStatus_still (h := h) ..
  | auxConfig => exact execAuxConfig_still (h := h) ..
  | auxClear => exact execAuxClear_still (h := h) ..
  | auxQuery => exact execAuxQuery_still (h := h) ..
  | pairConfig => exact execPairConfig_still (h := h) ..
  | pairStatus => exact execPairStatus_still (h := h) ..
  | pairHandover => exact execPairHandover_still (h := h) ..
  | acqListPut => exact execAcqListPut_still (h := h) ..
  | acqListCtrl => exact execAcqListCtrl_still (h := h) ..
  | acqUrgent => exact execAcqUrgent_still (h := h) ..
  | acqRefSet => exact execAcqRefSet_still (h := h) ..
  | monConfig => exact execMonConfig_still (h := h) ..
  | monSelftest => exact execMonSelftest_still (h := h) ..
  | acqStatus => exact execAcqStatus_still (h := h) ..
  | armEvent => exact execArmEvent_still (h := h) ..
  | cancelEvent => exact execCancelEvent_still (h := h) ..
  | updateEvent => exact execUpdateEvent_still (h := h) ..
  | bankSwitch => exact execBankSwitch_still (h := h) ..
  | bankClear => exact execBankClear_still (h := h) ..
  | safetyCut => exact execSafetyCut_still (h := h) ..
  | safetyRelease => exact execSafetyRelease_still (h := h) ..
  | eventQuery => exact execEventQuery_still (h := h) ..
  | fieldBookRead => exact execFieldBookRead_still (h := h) ..
  | faultClear => exact execFaultClear_still (h := h) ..
  | powerRequest => exact execPowerRequest_still (h := h) ..
  | powerStatus => exact execPowerStatus_still (h := h) ..
  | powerVote => exact execPowerVote_still (h := h) ..
  | rtcSet => exact execRtcSet_still (h := h) ..
  | rtcGet => exact execRtcGet_still (h := h) ..
  | fwSwap => exact execFwSwap_still (h := h) ..
  | fwCommit => exact execFwCommit_still (h := h) ..
  | fwStatus => exact execFwStatus_still (h := h) ..
  | startupPut => exact execStartupPut_still (h := h) ..
  | canFrameSent => exact execCanFrameSent_still (h := h) ..
  | resignLineRise => exact execResignLineRise_still (h := h) ..
  | benchmarkLineRelease => exact execBenchmarkLineRelease_still (h := h) ..
  | islandSourceChange => exact execIslandSourceChange_still (h := h) ..
  | monitorThresholdCrossing => exact execMonitorThresholdCrossing_still (h := h) ..
  | pcieConfigReady => exact execPcieConfigReady_still (h := h) ..

/-- A command that may store samples keeps the memory's canonical form, and the other kept parts as they are. -/
theorem exec_firm {c : Instr} {s t : State} (hm : storesSamples c = true) (hs : Memory.wf s = true) (h : exec c s = .next t) :
    t.still.firm = s.still.firm := by
  cases c with
  | trackerDisagree => exact execTrackerDisagree_firm (h := h) (hs := hs) ..
  | crankEdge => exact execCrankEdge_firm (h := h) (hs := hs) ..
  | camEdge => exact execCamEdge_firm (h := h) (hs := hs) ..
  | camWindowExpiry => exact execCamWindowExpiry_firm (h := h) (hs := hs) ..
  | coast => exact execCoast_firm (h := h) (hs := hs) ..
  | frozenInput => exact execFrozenInput_firm (h := h) (hs := hs) ..
  | pulseStakeFire => exact execPulseStakeFire_firm (h := h) (hs := hs) ..
  | acqAngleTrigger => exact execAcqAngleTrigger_firm (h := h) (hs := hs) ..
  | acqTimeTrigger => exact execAcqTimeTrigger_firm (h := h) (hs := hs) ..
  | conversionDone => exact execConversionDone_firm (h := h) (hs := hs) ..
  | knockWindowOpen => exact execKnockWindowOpen_firm (h := h) (hs := hs) ..
  | knockTrigger => exact execKnockTrigger_firm (h := h) (hs := hs) ..
  | knockWindowClose => exact execKnockWindowClose_firm (h := h) (hs := hs) ..
  | loadWheel => exact execLoadWheel_firm (h := h) (hs := hs) ..
  | resync => exact execResync_firm (h := h) (hs := hs) ..
  | _ => nomatch hm

/-- A command that changes what is stored keeps it sound. -/
theorem exec_keeps_of_changesStored {c : Instr} {s t : State} (hc : changesStored c = true) (h : exec c s = .next t) :
    Keeps s.still t.still := by
  cases c with
  | perst => exact execPerst_keeps (h := h) ..
  | hotReset => exact execHotReset_keeps (h := h) ..
  | functionLevelReset => exact execFunctionLevelReset_keeps (h := h) ..
  | supplyFault => exact execSupplyFault_keeps (h := h) ..
  | firmwareReady => exact execFirmwareReady_keeps (h := h) ..
  | swapImageReady => exact execSwapImageReady_keeps (h := h) ..
  | entryWindowEnd => exact execEntryWindowEnd_keeps (h := h) ..
  | wakeEvent => exact execWakeEvent_keeps (h := h) ..
  | pmbusAck => exact execPmbusAck_keeps (h := h) ..
  | pmbusTimeout => exact execPmbusTimeout_keeps (h := h) ..
  | pairedWriteValue => exact execPairedWriteValue_keeps (h := h) ..
  | pairedWriteComplement => exact execPairedWriteComplement_keeps (h := h) ..
  | pairedWriteExpiry => exact execPairedWriteExpiry_keeps (h := h) ..
  | registerWrite => exact execRegisterWrite_keeps (h := h) ..
  | fwLoad => exact execFwLoad_keeps (h := h) ..
  | flashWriteDone => exact execFlashWriteDone_keeps (h := h) ..
  | _ => nomatch hc

/-- What every command keeps of a state whose sample memory has its canonical form. -/
theorem exec_keeps {c : Instr} {s t : State} (hs : Memory.wf s = true) (h : exec c s = .next t) : Keeps s.still t.still := by
  cases hc : changesStored c with
  | true => exact exec_keeps_of_changesStored hc h
  | false =>
    cases hm : storesSamples c with
    | true => exact .of_firm (exec_firm hm hs h)
    | false => exact .of_eq (exec_still hm hc h)

/-- Soundness speaks of kept parts alone, and a command keeps it (register reference R9, acquisition R316). -/
theorem exec_sound {c : Instr} {s t : State} (hs : Sound s) (h : exec c s = .next t) : Sound t :=
  (exec_keeps hs.1 h).sound hs.1 hs.2

/-- Soundness does not turn on the queue. -/
theorem sound_pending {s : State} (l : List Instr) (hs : Sound s) : Sound { s with pending := l } := hs

/-- Settles O56: an idle step changes nothing, and the command of any other step keeps a sound state sound. -/
theorem stepKeepsSound : Obligations.StepKeepsSound := by
  intro s t hs h
  cases hp : s.pending with
  | nil =>
    rw [step_idle hp] at h
    cases h
    exact hs
  | cons c rest =>
    rw [step_front hp] at h
    exact exec_sound (sound_pending rest hs) h

end Sys2Proof.Machine
end

section
open Sys2Proof Sys2Proof.Machine

/-! ### Registers that a chain of updates leaves -/

theorem OnlyRegs.of_regs {s t : State} (h : t.regs = s.regs) (l : List Nat) : OnlyRegs s t l := fun f _ => rd_congr h f

theorem OnlyRegs.refl (s : State) (l : List Nat) : OnlyRegs s s l := .of_regs rfl l

theorem OnlyRegs.setSlots {s t : State} {l : List Nat} (h : OnlyRegs s t l) (x : Tbl PwSlot) :
    OnlyRegs s { t with slots := x } l := h

theorem OnlyRegs.wr {s t : State} {l : List Nat} {f : Fld} (h : OnlyRegs s t l) (v : Nat) (hf : f.key / 32 ∈ l) :
    OnlyRegs s (wr f v t) l := by
  intro g hg
  have hne : g.key ≠ f.key := fun e => hg (e ▸ hf)
  rw [rd_wr_ne v t hne, h g hg]

theorem OnlyRegs.wrB {s t : State} {l : List Nat} {f : Fld} (h : OnlyRegs s t l) (b : Bool) (hf : f.key / 32 ∈ l) :
    OnlyRegs s (wrB f b t) l := h.wr _ hf

theorem OnlyRegs.flag {s t : State} {l : List Nat} {f : Fld} (h : OnlyRegs s t l) (hf : f.key / 32 ∈ l) :
    OnlyRegs s (flag f t) l := h.wr 1 hf

theorem OnlyRegs.bump {s t : State} {l : List Nat} {f : Fld} (h : OnlyRegs s t l) (n : Nat) (hf : f.key / 32 ∈ l) :
    OnlyRegs s (bump f n t) l := h.wr _ hf

theorem OnlyRegs.showPend {s t : State} {l : List Nat} (h : OnlyRegs s t l) (hl : CLI_REG_STATUS 0 ∈ l) :
    OnlyRegs s (showPend t) l := h.wrB _ hl

end

section
namespace Sys2Proof

/-- An entry of a table whose values are mapped is its image. -/
theorem Tbl.find_map {α β : Type} (f : α → β) (m : Tbl α) (k : Nat) :
    Tbl.find (m.map fun p => (p.1, f p.2)) k = (Tbl.find m k).map f := by
  induction m with
  | nil => rfl
  | cons p m ih =>
    obtain ⟨j, v⟩ := p
    by_cases e : j = k
    · simp [Tbl.find, e]
    · simpa [Tbl.find, e] using ih

namespace Machine
variable {s : State}

/-- A command that is an event runs, in a steady interval, as its action on the state in its cycle. -/
theorem runs_of_event {c : Instr} {dt : Nat} {f : State → State} {P : State → Prop} (he : exec c s = event dt f s)
    (h : steady dt s = true) (hP : P (f (tick dt s))) : Runs c s P :=
  ⟨_, he.trans (event_steady h f), hP⟩

/-! ### The slots of paired writes -/

@[simp] theorem showPend_slots (s : State) : (showPend s).slots = s.slots := rfl

/-- With no commit and no reset in the cycle, a half of a pair reaches the module. -/
theorem pairedHalf_of_barred_nil (f : State → State) (h : s.barred = []) : pairedHalf f s = f s := by simp [pairedHalf, h]

/-- A value write holds its word, the cycle's number with it, in its register's slot. -/
theorem find_valueWrite_self (off : Nat) (x : Word) (s : State) :
    Tbl.find (valueWrite off x s).slots off = some ⟨x, s.cyc, false⟩ := Tbl.find_insert_self _ _ _

theorem find_valueWrite_ne {off o : Nat} (x : Word) (s : State) (h : o ≠ off) :
    Tbl.find (valueWrite off x s).slots o = Tbl.find s.slots o := Tbl.find_insert_ne _ _ h

theorem onlyRegs_valueWrite (off : Nat) (x : Word) {t : State} (h : OnlyRegs s t [CLI_REG_STATUS 0]) :
    OnlyRegs s (valueWrite off x t) [CLI_REG_STATUS 0] :=
  (h.setSlots _).showPend (by decide)

/-- A slot as it stands in cycle `now`: it expires once it has been open for 65 cycles. -/
def expireSlot (now : Nat) (p : PwSlot) : PwSlot := { p with expired := p.expired || decide (p.since + 65 ≤ now) }

/-- Every slot expires that has been open for 65 cycles. -/
def expireSlots (s : State) : State := showPend { s with slots := s.slots.map fun p => (p.1, expireSlot s.cyc p.2) }

theorem find_expireSlots (o : Nat) (s : State) :
    Tbl.find (expireSlots s).slots o = (Tbl.find s.slots o).map (expireSlot s.cyc) := Tbl.find_map _ _ _

theorem onlyRegs_expireSlots {t : State} (h : OnlyRegs s t [CLI_REG_STATUS 0]) : OnlyRegs s (expireSlots t) [CLI_REG_STATUS 0] :=
  (h.setSlots _).showPend (by decide)

theorem pairedOff_lt (k : Fin 19) : pairedOff k < 2 ^ 16 := by revert k; decide

/-! ### Rejected complements (register reference R536) -/

/-- In `t` the slot at `off` is empty, and its complement counts as rejected for `cause` since `s`, with no other register changed. -/
def PairRejected (off cause : Nat) (s t : State) : Prop :=
  Tbl.find t.slots off = none ∧ isSet t (CLI_REG_STATUS_PW_REJ 0) = true ∧
    rd t (CLI_PW_LAST_CAUSE 0) = cause ∧ rd t (CLI_PW_LAST_OFFSET 0) = off ∧
      rd t (CLI_REG_STATUS_PW_REJECTS 0) = min (CLI_REG_STATUS_PW_REJECTS 0).max (rd s (CLI_REG_STATUS_PW_REJECTS 0) + 1) ∧
        OnlyRegs s t [CLI_REG_STATUS 0, CLI_PW_LAST 0]

/-- In a cycle in which software has written no counter, the rejection is counted. -/
theorem pairedReject_eq {off cause : Nat} (hw : s.sw = []) :
    pairedReject off cause s = flag (CLI_REG_STATUS_PW_REJ 0) (bump (CLI_REG_STATUS_PW_REJECTS 0) 1
      (wr (CLI_PW_LAST_OFFSET 0) off (wr (CLI_PW_LAST_CAUSE 0) cause (showPend { s with slots := Tbl.erase s.slots off })))) := by
  simp [pairedReject, count, showPend, hw]

/-- In a cycle in which software has written no counter, `pairedReject` rejects as the register reference says. -/
theorem pairedReject_rejected {off cause : Nat} (ho : off < 2 ^ 16) (hc : cause < 4) (hw : s.sw = []) :
    PairRejected off cause s (pairedReject off cause s) := by
  rw [pairedReject_eq hw]
  refine ⟨Tbl.find_erase_self _ _, isSet_flag_self _ (by decide), ?_, ?_, ?_, ?_⟩
  · rw [rd_flag_ne _ (by decide), rd_bump_ne _ _ (by decide), rd_wr_ne _ _ (by decide), rd_wr_lt _ hc]
  · rw [rd_flag_ne _ (by decide), rd_bump_ne _ _ (by decide), rd_wr_lt _ ho]
  · rw [rd_flag_ne _ (by decide), rd_bump_self, rd_wr_ne _ _ (by decide), rd_wr_ne _ _ (by decide), showPend, rd_wrB_ne _ _ (by decide)]
    rfl
  · have h : OnlyRegs s (showPend { s with slots := Tbl.erase s.slots off }) [CLI_REG_STATUS 0, CLI_PW_LAST 0] :=
      (OnlyRegs.refl s _).setSlots _ |>.showPend (by decide)
    exact (((h.wr _ (by decide)).wr _ (by decide)).bump _ (by decide)).flag (by decide)

theorem PairRejected.of_tick {off cause dt : Nat} {t : State} (h : PairRejected off cause (tick dt s) t) :
    PairRejected off cause s t := by
  simpa [PairRejected, OnlyRegs] using h

/-! ### What a complement write does (register reference R535, R536) -/

theorem complementWrite_orphan {off : Nat} (x : Word) (h : Tbl.find s.slots off = none) :
    complementWrite off x s = pairedReject off 3 s := by simp [complementWrite, h]

theorem complementWrite_late {off : Nat} {p : PwSlot} (x : Word) (hp : Tbl.find s.slots off = some p)
    (h : p.expired = true ∨ p.since + 64 < s.cyc) : complementWrite off x s = pairedReject off 1 s := by
  simp [complementWrite, hp, h]

section
variable {off : Nat} {p : PwSlot} {x : Word} (hp : Tbl.find s.slots off = some p) (he : p.expired = false)
  (hl : s.cyc ≤ p.since + 64)
include hp he hl

theorem complementWrite_mismatch (hm : pairMatches off p.value x = false) : complementWrite off x s = pairedReject off 2 s := by
  simp [complementWrite, hp, he, hm, Nat.not_lt.mpr hl]

/-- The complement that matches empties the slot, and the register takes the fields of the value in the next cycle. -/
theorem complementWrite_match (hm : pairMatches off p.value x = true) (hb : s.barred = []) :
    complementWrite off x s =
      inNextCycle (pairedApply off (p.value &&& fieldMask (globalFields off))) (showPend { s with slots := Tbl.erase s.slots off }) := by
  have hb' : (showPend { s with slots := Tbl.erase s.slots off }).barred = [] := hb
  simp [complementWrite, hp, he, hm, Nat.not_lt.mpr hl, hb']

end

/-- A word and its complement match in every register. -/
theorem pairMatches_not (off : Nat) (v : Word) : pairMatches off v (~~~v) = true := by
  have h : v ^^^ ~~~v = BitVec.allOnes 32 := by
    ext i hi
    rw [BitVec.getElem_xor, BitVec.getElem_not, BitVec.getElem_allOnes, Bool.xor_not_self]
  rw [pairMatches, h, BitVec.allOnes_and, beq_self_eq_true]

/-! ### Monitor thresholds (acquisition R332) -/

theorem pairedOff_monitor {k : Fin 19} {i : Fin 16} (h : k.val = 3 + i.val) : pairedOff k = MON_THR i := by
  revert k i; decide

theorem fieldMask_monThr (i : Fin 16) : fieldMask (globalFields (MON_THR i)) = 0x03FF03FF#32 := by revert i; decide +kernel

/-- A completed pair of a monitor sets its thresholds. -/
theorem pairedApply_monThr (i : Fin 16) : pairedApply (MON_THR i) = monThresholds i := by
  have h0 : MON_THR i ≠ DRV_CH_EN0 := by revert i; decide
  have h1 : MON_THR i ≠ DRV_CH_EN1 := by revert i; decide
  have h2 : MON_THR i ≠ AUX_EN := by revert i; decide
  have hi : (MON_THR i - MON_THR 0) / 16 = i := by revert i; decide
  funext x s
  simp [pairedApply, h0, h1, h2, hi]

theorem bits_lt (x : Word) (hi lo : Nat) : bits x hi lo < 2 ^ (hi + 1 - lo) := Nat.mod_lt _ (Nat.two_pow_pos _)

/-- The state in which the value `v` of a completed pair is the threshold word of monitor `i`. -/
def withThresholds (i : Nat) (v : Word) (s : State) : State :=
  wr (MON_THR_HIGH i) (bits v 25 16) (wr (MON_THR_LOW i) (bits v 9 0) s)

theorem monThresholds_of_ok {x : Word} (i : Nat) (h : monThrOk x = true) (s : State) :
    monThresholds i x s = withThresholds i x s := by simp [monThresholds, withThresholds, h]

theorem rd_withThresholds_high (i : Nat) (v : Word) (s : State) : rd (withThresholds i v s) (MON_THR_HIGH i) = bits v 25 16 :=
  rd_wr_lt _ (bits_lt v 25 16)

theorem rd_withThresholds_low (i : Nat) (v : Word) (s : State) : rd (withThresholds i v s) (MON_THR_LOW i) = bits v 9 0 := by
  have h : (MON_THR_LOW i).key ≠ (MON_THR_HIGH i).key := by simp [Fld.key, MON_THR_LOW, MON_THR_HIGH]
  rw [withThresholds, rd_wr_ne _ _ h, rd_wr_lt _ (bits_lt v 9 0)]

theorem onlyRegs_withThresholds {i : Nat} {l : List Nat} {t : State} (v : Word) (h : OnlyRegs s t l) (hl : MON_THR i ∈ l) :
    OnlyRegs s (withThresholds i v t) l := by
  have hlow : (MON_THR_LOW i).key / 32 = MON_THR i := by simp [Fld.key, MON_THR_LOW]
  have hhigh : (MON_THR_HIGH i).key / 32 = MON_THR i := by simp only [Fld.key, MON_THR_HIGH]; omega
  exact (h.wr _ (hlow ▸ hl)).wr _ (hhigh ▸ hl)

/-- The completed pair of a monitor empties the slot and sets the thresholds. -/
theorem complementWrite_monThr {i : Fin 16} {p : PwSlot} (hp : Tbl.find s.slots (MON_THR i) = some p) (he : p.expired = false)
    (hl : s.cyc ≤ p.since + 64) (hv : p.value &&& 0x03FF03FF#32 = p.value) (ht : monThrOk p.value = true) (hb : s.barred = []) :
    complementWrite (MON_THR i) (~~~p.value) s =
      inNextCycle (withThresholds i p.value) (showPend { s with slots := Tbl.erase s.slots (MON_THR i) }) := by
  rw [complementWrite_match hp he hl (pairMatches_not _ _) hb, fieldMask_monThr, hv, pairedApply_monThr]
  congr 1
  funext u
  exact monThresholds_of_ok i ht u

/-! ### The commands in a steady interval -/

section
variable {dt : Nat} {k : Fin 19} {x : Word} {P : State → Prop} (hs : steady dt s = true) (hdt : 0 < dt)
include hs hdt

theorem runs_pairedWriteValue (h : P (valueWrite (pairedOff k) x (tick dt s))) : Runs (.pairedWriteValue dt k x) s P :=
  runs_of_event rfl hs ((pairedHalf_of_barred_nil _ (tick_barred (Nat.ne_of_gt hdt) s)).symm ▸ h)

theorem runs_pairedWriteComplement (h : P (complementWrite (pairedOff k) x (tick dt s))) :
    Runs (.pairedWriteComplement dt k x) s P :=
  runs_of_event rfl hs ((pairedHalf_of_barred_nil _ (tick_barred (Nat.ne_of_gt hdt) s)).symm ▸ h)

theorem runs_rejected {cause : Nat} (hc : cause < 4)
    (h : complementWrite (pairedOff k) x (tick dt s) = pairedReject (pairedOff k) cause (tick dt s)) :
    Runs (.pairedWriteComplement dt k x) s (PairRejected (pairedOff k) cause s) := by
  refine runs_pairedWriteComplement hs hdt ?_
  rw [h]
  exact (pairedReject_rejected (pairedOff_lt k) hc (tick_sw (Nat.ne_of_gt hdt) s)).of_tick

end

theorem runs_pairedWriteExpiry {dt : Nat} {P : State → Prop} (hs : steady dt s = true) (h : P (expireSlots (tick dt s))) :
    Runs (.pairedWriteExpiry dt) s P :=
  runs_of_event rfl hs h

/-- The complement of a monitor's thresholds in time makes them the monitor's. -/
theorem runs_monThr_pair {dt : Nat} {k : Fin 19} {i : Fin 16} {p : PwSlot} (hs : steady dt s = true) (hdt : 0 < dt)
    (hk : k.val = 3 + i.val) (hp : Tbl.find s.slots (pairedOff k) = some p) (he : p.expired = false)
    (hl : s.cyc + dt ≤ p.since + 64) (hv : p.value &&& 0x03FF03FF#32 = p.value) (ht : monThrOk p.value = true) :
    Runs (.pairedWriteComplement dt k (~~~p.value)) s (fun t => Tbl.find t.slots (pairedOff k) = none ∧
      rd t (MON_THR_LOW i) = bits p.value 9 0 ∧ rd t (MON_THR_HIGH i) = bits p.value 25 16 ∧ t.cyc = s.cyc + dt ∧
        OnlyRegs s t [MON_THR i, CLI_REG_STATUS 0]) := by
  refine runs_pairedWriteComplement hs hdt ?_
  rw [pairedOff_monitor hk] at hp ⊢
  rw [complementWrite_monThr (by rwa [tick_slots]) he (by rwa [tick_cyc]) hv ht (tick_barred (Nat.ne_of_gt hdt) s)]
  have hpend : OnlyRegs s (showPend { tick dt s with slots := Tbl.erase (tick dt s).slots (MON_THR i) })
      [MON_THR i, CLI_REG_STATUS 0] := ((OnlyRegs.of_regs (tick_regs s dt) _).setSlots _).showPend (by simp)
  exact ⟨Tbl.find_erase_self _ _, rd_withThresholds_low .., rd_withThresholds_high .., tick_cyc dt s,
    onlyRegs_withThresholds p.value hpend (by simp)⟩

/-- Settles O49, a clause for each half of a pair and one for the expiry. -/
theorem pairedWrites : Obligations.PairedWrites := by
  intro dt k s hs hdt off now rejects
  have hslots : (tick dt s).slots = s.slots := tick_slots s dt
  have hnow : (tick dt s).cyc = now := tick_cyc dt s
  have hregs : OnlyRegs s (tick dt s) [CLI_REG_STATUS 0] := .of_regs (tick_regs s dt) _
  refine ⟨fun x => ⟨?value, ?orphan, fun p hp => ?_⟩, ?expiry⟩
  case value =>
    refine runs_pairedWriteValue hs hdt ⟨?_, fun o ho => ?_, onlyRegs_valueWrite _ x hregs⟩
    · rw [find_valueWrite_self, hnow]
    · rw [find_valueWrite_ne x _ ho, hslots]
  case orphan => exact fun hn => runs_rejected hs hdt (by decide) (complementWrite_orphan x (hslots ▸ hn))
  case expiry =>
    refine runs_pairedWriteExpiry hs ⟨onlyRegs_expireSlots hregs, fun o p hp => ?_⟩
    rw [find_expireSlots, hslots, hp, hnow]
    rfl
  have hp' : Tbl.find (tick dt s).slots off = some p := hslots ▸ hp
  refine ⟨fun hlate => ?late, fun he hl hm => ?mismatch, ?matching⟩
  case late => exact runs_rejected hs hdt (by decide) (complementWrite_late x hp' (hnow ▸ hlate))
  case mismatch => exact runs_rejected hs hdt (by decide) (complementWrite_mismatch hp' he (hnow ▸ hl) hm)
  case matching =>
    rintro i hk he hl hv rfl ht
    exact runs_monThr_pair hs hdt hk hp he hl hv ht

end Machine
end Sys2Proof
end

section
namespace Sys2Proof.Machine
variable {s : State}

/-! ### Changes of the trackers -/

@[simp] theorem rd_onAngle (f : Angle → Angle) (s : State) (g : Fld) : rd (onAngle f s) g = rd s g := rfl
@[simp] theorem onAngle_cyc (f : Angle → Angle) (s : State) : (onAngle f s).cyc = s.cyc := rfl
@[simp] theorem onAngle_seq (f : Angle → Angle) (s : State) : (onAngle f s).seq = s.seq := rfl
@[simp] theorem onAngle_out (f : Angle → Angle) (s : State) : (onAngle f s).out = s.out := rfl
@[simp] theorem onAngle_regs (f : Angle → Angle) (s : State) : (onAngle f s).regs = s.regs := rfl
@[simp] theorem onAngle_angle (f : Angle → Angle) (s : State) : (onAngle f s).angle = f s.angle := rfl

/-! ### The wait at the stake (angle R93) -/

/-- The shares still to come at the end of an interval are those that the interval leaves to come. -/
theorem sharePending_zero_tick (dt : Nat) (s : State) : sharePending 0 (tick dt s) = sharePending dt s := by
  simp [sharePending]

/-- A steady interval ends in a cycle in which nothing happens but the events themselves. -/
theorem steady_zero_tick {dt : Nat} (h : steady dt s = true) : steady 0 (tick dt s) = true := by
  obtain ⟨hawake, hshare, -⟩ := steady_iff.1 h
  exact steady_zero ((awake_tick dt s).trans hawake) ((sharePending_zero_tick dt s).trans hshare)

/-- The chain's wait at its stake is counted and noted. -/
def noteWait (s : State) : State := countWait (onAngle (fun a => { a with waited := true }) s)

/-- What `CHAIN_WAIT` does in its cycle. -/
def waitAtStake (s : State) : State := if synced s && atStake s && !s.angle.waited then noteWait s else s

theorem exec_chainWait_steady {dt : Nat} (h : steady dt s = true) :
    exec (.chainWait dt) s = .next (waitAtStake (tick dt s)) := event_steady h waitAtStake

theorem exec_chainWait_of_atStake {dt : Nat} (h : steady dt s = true) (hsync : synced s = true)
    (hstake : atStake (tick dt s) = true) (hw : s.angle.waited = false) :
    exec (.chainWait dt) s = .next (noteWait (tick dt s)) := by
  have hsync' : synced (tick dt s) = true := by rwa [synced, syncState, rd_tick]
  simp [exec_chainWait_steady h, waitAtStake, hsync', hstake, hw]

/-- A wait that is noted is not counted again. -/
theorem exec_chainWait_of_waited (h : steady 0 s = true) (hw : s.angle.waited = true) : exec (.chainWait 0) s = .next s := by
  simp [exec_chainWait_steady h, waitAtStake, tick, hw]

@[simp] theorem noteWait_waited (s : State) : (noteWait s).angle.waited = true := by simp [noteWait, countWait]

theorem steady_zero_noteWait (s : State) : steady 0 (noteWait s) = steady 0 s := by
  simp [steady, awake, sharePending, settles, noteWait, countWait, onAngle]

/-- In a cycle in which software has written no counter, the wait is one count of `ANG_WAITS` and no other change of a register. -/
theorem noteWait_counts (h : s.sw = []) :
    rd (noteWait s) ANG_WAITS_WAITS = min ANG_WAITS_WAITS.max (rd s ANG_WAITS_WAITS + 1) ∧
      OnlyRegs s (noteWait s) [ANG_WAITS_WAITS.off] := by
  have heq : noteWait s = bump ANG_WAITS_WAITS 1 (onAngle (fun a => { a with waited := true }) s) := by
    simp [noteWait, countWait, count, onAngle, h]
  rw [heq]
  exact ⟨rd_bump_self _ _, OnlyRegs.bump (.of_regs rfl _) 1 (by decide)⟩

theorem chainWaits : Clauses.ChainWaits := by
  intro dt s h hdt hsync hstake hw
  obtain ⟨hcount, honly⟩ := noteWait_counts (tick_sw (Nat.ne_of_gt hdt) s)
  refine ⟨_, exec_chainWait_of_atStake h hsync hstake hw, ?_, noteWait_waited _, ?_, ?_⟩
  · rw [hcount, rd_tick]
  · exact fun f hf => (honly f hf).trans (rd_tick dt s f)
  · exact exec_chainWait_of_waited ((steady_zero_noteWait _).trans (steady_zero_tick h)) (noteWait_waited _)

/-! ### The firing pattern table at a benchmark crossing (angle R110) -/

/-- The learning counts of the first `n` bands go to 0. -/
def clearCounts (n : Nat) (s : State) : State := (List.range n).foldl (fun s b => wr (fpCycles b) 0 s) s

theorem clearCounts_succ (n : Nat) (s : State) : clearCounts (n + 1) s = wr (fpCycles n) 0 (clearCounts n s) := by
  simp [clearCounts, List.range_succ]

theorem clearFiring_eq (s : State) :
    clearFiring s = clearCounts 8 (onAngle (fun a => { a with firing := [], clearTable := false }) s) := rfl

theorem fpCycles_key_ne {b n : Nat} (hn : n < 8) (hb : b < n) : (fpCycles b).key ≠ (fpCycles n).key := by
  have h : ∀ n : Fin 8, ∀ b : Fin n.val, (fpCycles b).key ≠ (fpCycles n).key := by decide
  exact h ⟨n, hn⟩ ⟨b, hb⟩

theorem rd_clearCounts_band {n b : Nat} (hn : n ≤ 8) (hb : b < n) : rd (clearCounts n s) (fpCycles b) = 0 := by
  induction n with
  | zero => omega
  | succ n ih =>
    rw [clearCounts_succ]
    by_cases hbn : b = n
    · subst hbn; simp
    · have hlt : b < n := by omega
      rw [rd_wr_ne _ _ (fpCycles_key_ne hn hlt), ih (by omega) hlt]

theorem rd_clearCounts_ne {g : Fld} {n : Nat} (h : ∀ b < n, g.key ≠ (fpCycles b).key) : rd (clearCounts n s) g = rd s g := by
  induction n with
  | zero => rfl
  | succ n ih => rw [clearCounts_succ, rd_wr_ne _ _ (h n (by omega)), ih fun b hb => h b (by omega)]

theorem cycle_key_ne_band : ∀ b < 8, SEQ_CYCLE_CYCLE.key ≠ (fpCycles b).key := by decide

/-- Every learning count is 0 in a table that is cleared. -/
theorem rd_clearFiring_band {b : Nat} (hb : b < 8) : rd (clearFiring s) (fpCycles b) = 0 :=
  rd_clearCounts_band (Nat.le_refl 8) hb

/-- Clearing the table changes no field but the learning counts. -/
theorem rd_clearFiring_ne {g : Fld} (h : ∀ b < 8, g.key ≠ (fpCycles b).key) : rd (clearFiring s) g = rd s g :=
  rd_clearCounts_ne h

/-- Clearing counts changes nothing but registers. -/
theorem clearCounts_frame (n : Nat) (s : State) : ∃ r u, clearCounts n s = { s with regs := r, was := u } := by
  induction n with
  | zero => exact ⟨_, _, rfl⟩
  | succ n ih =>
    obtain ⟨r, u, h⟩ := ih
    exact ⟨_, _, by rw [clearCounts_succ, h, wr]⟩

/-- Clearing the table changes nothing but registers and the table. -/
theorem clearFiring_frame (s : State) :
    ∃ r u, clearFiring s = { s with regs := r, was := u, angle := { s.angle with firing := [], clearTable := false } } :=
  clearCounts_frame 8 _

@[simp] theorem clearFiring_cyc (s : State) : (clearFiring s).cyc = s.cyc := by
  obtain ⟨_, _, h⟩ := clearFiring_frame s; rw [h]

@[simp] theorem clearFiring_out (s : State) : (clearFiring s).out = s.out := by
  obtain ⟨_, _, h⟩ := clearFiring_frame s; rw [h]

@[simp] theorem clearFiring_seq (s : State) : (clearFiring s).seq = s.seq := by
  obtain ⟨_, _, h⟩ := clearFiring_frame s; rw [h]

@[simp] theorem clearFiring_angle (s : State) :
    (clearFiring s).angle = { s.angle with firing := [], clearTable := false } := by
  obtain ⟨_, _, h⟩ := clearFiring_frame s; rw [h]

theorem firingCrossing_of_clearTable (w : Wheel) (h : s.angle.clearTable = true) :
    firingCrossing w s = onAngle (fun a => { a with cycleGood := !limping s }) (clearFiring s) := by
  simp [firingCrossing, h]

/-! ### The benchmark line (pairing R311) -/

@[simp] theorem benchmarkPulse_cyc (s : State) : (benchmarkPulse s).cyc = s.cyc := by simp only [benchmarkPulse]; split <;> rfl
@[simp] theorem benchmarkPulse_regs (s : State) : (benchmarkPulse s).regs = s.regs := by simp only [benchmarkPulse]; split <;> rfl
@[simp] theorem benchmarkPulse_seq (s : State) : (benchmarkPulse s).seq = s.seq := by simp only [benchmarkPulse]; split <;> rfl
@[simp] theorem benchmarkPulse_angle (s : State) : (benchmarkPulse s).angle = s.angle := by simp only [benchmarkPulse]; split <;> rfl

/-- The holder that drives the engine pulls the line low for 400 cycles from the cycle of its stake, from now on where none is loaded. -/
theorem benchmarkPulse_out (s : State) :
    (benchmarkPulse s).out = if isSet s PAIR_STATUS_BM_HOLDER && driving s then
      .benchmarkLow (s.tie.bmFall.getD s.cyc) (s.tie.bmFall.getD s.cyc + 400) :: s.out else s.out := by
  unfold benchmarkPulse
  exact apply_ite State.out _ _ _

/-! ### The crossing itself (scheduling R150, R153) -/

/-- A fold whose every step keeps the state keeps it. -/
theorem foldl_of_step_id {f : State → Nat → State} (h : ∀ c, f s c = s) (l : List Nat) : l.foldl f s = s := by
  induction l with
  | nil => rfl
  | cons c l ih => rw [List.foldl_cons, h c, ih]

/-- With no exchange of banks pending, a crossing exchanges none. -/
theorem switchBanks_of_none_pending (n : Nat)
    (h : ∀ c, isSet s (CLI_BANK_AHEAD_PEND c) = false ∧ isSet s (CLI_BANK_ASTERN_PEND c) = false) : switchBanks n s = s := by
  refine foldl_of_step_id (fun c => ?_) _
  simp [switchBank, bankFields, (h c).1, (h c).2]

/-- The chain's wraps are counted, and the holder of the benchmark role drives its line. -/
def countWraps (s : State) : State := benchmarkPulse (onAngle (fun a => { a with wraps := chainNow s / (turn * unit) }) s)

/-- `SEQ_CYCLE` counts on after it, and the settings that wait for a crossing take effect. -/
def passBenchmark (s : State) : State :=
  crossingSettings (wr SEQ_CYCLE_CYCLE ((rd (countWraps s) SEQ_CYCLE_CYCLE + 1) % 2 ^ 32) (countWraps s))

theorem passBenchmark_regs (s : State) :
    (passBenchmark s).regs = (wr SEQ_CYCLE_CYCLE ((rd s SEQ_CYCLE_CYCLE + 1) % 2 ^ 32) s).regs := by
  simp [passBenchmark, countWraps, crossingSettings, wr_regs, rd]

theorem rd_passBenchmark_cycle (s : State) : rd (passBenchmark s) SEQ_CYCLE_CYCLE = (rd s SEQ_CYCLE_CYCLE + 1) % 2 ^ 32 := by
  rw [rd_congr (passBenchmark_regs s)]
  exact rd_wr_lt s (Nat.mod_lt _ (by decide))

theorem rd_passBenchmark_ne {g : Fld} (h : g.key ≠ SEQ_CYCLE_CYCLE.key) : rd (passBenchmark s) g = rd s g := by
  rw [rd_congr (passBenchmark_regs s), rd_wr_ne _ _ h]

@[simp] theorem passBenchmark_cyc (s : State) : (passBenchmark s).cyc = s.cyc := by
  simp [passBenchmark, countWraps, crossingSettings]

@[simp] theorem passBenchmark_angle (s : State) :
    (passBenchmark s).angle = { s.angle with wraps := chainNow s / (turn * unit) } := by
  simp [passBenchmark, countWraps, crossingSettings]

/-- The settings of the registers are those in effect after a crossing. -/
theorem passBenchmark_seq (s : State) :
    (passBenchmark s).seq = { s.seq with
      reviewD := rd s SEQ_CFG_REVIEW_D, defLate := rd s SEQ_CFG_DEF_LATE
      slips := (rd s DRV_BANK_SLIP_BANK0, rd s DRV_BANK_SLIP_BANK1) } := by
  have h : ∀ g : Fld, g.key ≠ SEQ_CYCLE_CYCLE.key → rd (passBenchmark s) g = rd s g := fun _ => rd_passBenchmark_ne
  rw [← h SEQ_CFG_REVIEW_D (by decide), ← h SEQ_CFG_DEF_LATE (by decide), ← h DRV_BANK_SLIP_BANK0 (by decide),
    ← h DRV_BANK_SLIP_BANK1 (by decide)]
  simp [passBenchmark, countWraps, crossingSettings, rd]

theorem passBenchmark_out (s : State) :
    (passBenchmark s).out = if isSet s PAIR_STATUS_BM_HOLDER && driving s then
      .benchmarkLow (s.tie.bmFall.getD s.cyc) (s.tie.bmFall.getD s.cyc + 400) :: s.out else s.out :=
  benchmarkPulse_out _

theorem banksPending_key_ne (c : Nat) :
    (CLI_BANK_AHEAD_PEND c).key ≠ SEQ_CYCLE_CYCLE.key ∧ (CLI_BANK_ASTERN_PEND c).key ≠ SEQ_CYCLE_CYCLE.key := by
  simp only [Fld.key, CLI_BANK_AHEAD_PEND, CLI_BANK_ASTERN_PEND, SEQ_CYCLE_CYCLE, CLI_BANK, clientBase, SEQ_CYCLE]
  omega

/-- Passing benchmark sets and clears no pending exchange of banks. -/
theorem isSet_passBenchmark_banks (c : Nat) :
    isSet (passBenchmark s) (CLI_BANK_AHEAD_PEND c) = isSet s (CLI_BANK_AHEAD_PEND c) ∧
      isSet (passBenchmark s) (CLI_BANK_ASTERN_PEND c) = isSet s (CLI_BANK_ASTERN_PEND c) := by
  obtain ⟨hahead, hastern⟩ := banksPending_key_ne c
  simp only [isSet, rd_passBenchmark_ne hahead, rd_passBenchmark_ne hastern, and_self]

/-- A crossing with no exchange of banks pending and a clear of the table asked for. -/
theorem benchmark_eq {w : Wheel} (hc : crossed s = true) (hw : s.angle.wheel = some w) (ht : s.angle.clearTable = true)
    (hb : ∀ c, isSet s (CLI_BANK_AHEAD_PEND c) = false ∧ isSet s (CLI_BANK_ASTERN_PEND c) = false) :
    benchmark s =
      onAngle (fun a => { a with cycleGood := !limping (passBenchmark s) }) (clearFiring (passBenchmark s)) := by
  have hbanks : ∀ n, switchBanks n (passBenchmark s) = passBenchmark s := fun n =>
    switchBanks_of_none_pending n fun c => by
      rw [(isSet_passBenchmark_banks c).1, (isSet_passBenchmark_banks c).2]; exact hb c
  have hwheel : (passBenchmark s).angle.wheel = some w := by rw [passBenchmark_angle]; exact hw
  have htable : (passBenchmark s).angle.clearTable = true := by rw [passBenchmark_angle]; exact ht
  have hcross : benchmark s = firingCrossing w (passBenchmark s) := by
    simp only [benchmark, hc, Bool.not_true, Bool.false_eq_true, if_false, ← countWraps.eq_1, ← passBenchmark.eq_1,
      hbanks, hwheel]
  rw [hcross, firingCrossing_of_clearTable w htable]

/-- The chain's value turns on its course and the cycle alone. -/
theorem chainNow_congr {t : State} (hcyc : t.cyc = s.cyc) (hcourses : t.angle.courses = s.angle.courses) :
    chainNow t = chainNow s := by
  simp [chainNow, chainAt, hcyc, hcourses]

/-- A crossing is over once the chain's wraps are counted. -/
theorem crossed_of_counted (h : s.angle.wraps = chainNow s / (turn * unit)) : crossed s = false := by
  simp [crossed, h]

theorem benchmarkCrossings : Clauses.BenchmarkCrossings := by
  intro dt s w h hc hw hb ht
  have hb' : ∀ c, isSet (tick dt s) (CLI_BANK_AHEAD_PEND c) = false ∧ isSet (tick dt s) (CLI_BANK_ASTERN_PEND c) = false := by
    simpa using hb
  refine runs_of_event rfl h ?_
  rw [benchmark_eq hc (by simpa using hw) (by simpa using ht) hb']
  refine ⟨?cycle, ?late, ?slips, ?table, ?cleared, ?counts, ?counted, ?line⟩
  case cycle => rw [rd_onAngle, rd_clearFiring_ne cycle_key_ne_band, rd_passBenchmark_cycle, rd_tick]
  case late => simp [passBenchmark_seq]
  case slips => simp [passBenchmark_seq]
  case table => rw [onAngle_angle, clearFiring_angle]
  case cleared => rw [onAngle_angle, clearFiring_angle]
  case counts => exact fun b hb => (rd_onAngle _ _ _).trans (rd_clearFiring_band hb)
  case counted =>
    refine crossed_of_counted ?_
    rw [chainNow_congr (s := tick dt s) (by simp) (by simp)]
    simp only [onAngle_angle, clearFiring_angle, passBenchmark_angle]
  case line => simp [passBenchmark_out, driving]

/-! ### The end of closure learning (angle R102, R103) -/

/-- Closure learning is no longer in progress, and flagged as over. -/
def learnClosed (s : State) : State :=
  flag ANG_STATUS_LEARN_DONE (wrB ANG_STATUS_CL_LEARNING false (onAngle (fun a => { a with learn := none }) s))

/-- The maps of `maps` that keep their range, as they wait for the next tooth position 0 or P. -/
def newWaits (w : Wheel) (maps : List (Nat × Option ClosureMap)) : List MapWait :=
  maps.filterMap (fun (i, x) => x.map (fun c => { input := i, key := w.key, map := c, cmd := none }))

/-- The maps of `new` wait behind those that do already. -/
def addWaits (new : List MapWait) (s : State) : State := onAngle (fun a => { a with mapNext := a.mapNext ++ new }) s

/-- Where every map keeps its range, every one waits. -/
theorem newWaits_map {maps : List (Nat × Option ClosureMap)} (w : Wheel) (h : maps.all (fun x => x.2.isSome) = true) :
    (newWaits w maps).map (fun x => (x.input, some x.map)) = maps := by
  induction maps with
  | nil => rfl
  | cons x maps ih =>
    obtain ⟨i, c⟩ := x
    rw [List.all_cons, Bool.and_eq_true] at h
    obtain ⟨c, rfl⟩ := Option.isSome_iff_exists.1 h.1
    simpa [newWaits] using ih h.2

/-- What shows that closure learning is over: its two flags, and no other register. -/
theorem learnClosed_flags (s : State) :
    isSet (learnClosed s) ANG_STATUS_LEARN_DONE = true ∧ isSet (learnClosed s) ANG_STATUS_CL_LEARNING = false ∧
      OnlyRegs s (learnClosed s) [ANG_STATUS_LEARN_DONE.off] := by
  refine ⟨isSet_flag_self _ (by decide), ?_, .flag (.wrB (.of_regs rfl _) false (by decide)) (by decide)⟩
  rw [learnClosed, isSet_flag_ne _ (by decide), isSet_wrB_self _ _ (by decide)]

/-- A state whose quality fields read as those of `s` gives its answer. -/
theorem learnAnswer_congr {t : State} (h : ∀ i, rd t (qualFld i) = rd s (qualFld i)) (maps : List (Nat × Option ClosureMap)) :
    learnAnswer t maps = learnAnswer s maps := by
  simp [learnAnswer, h]

/-- The flags of learning lie apart from the quality fields. -/
theorem rd_learnClosed_qualFld (i : Nat) (s : State) : rd (learnClosed s) (qualFld i) = rd s (qualFld i) := by
  have hdone : (qualFld i).key ≠ ANG_STATUS_LEARN_DONE.key := by unfold qualFld; split <;> decide
  have hlearning : (qualFld i).key ≠ ANG_STATUS_CL_LEARNING.key := by unfold qualFld; split <;> decide
  rw [learnClosed, rd_flag_ne _ hdone, rd_wrB_ne _ _ hlearning]
  rfl

section
variable {l : Learn} {w : Wheel} (hl : s.angle.learn = some l) (hw : s.angle.wheel = some w)
include hl hw

/-- Learning that was aborted answers its condition and leaves the maps. -/
theorem learnEnd_aborted {code : Nat} (ho : l.outcome = some code) (hc : code ≠ 0) :
    learnEnd s = respond 0x0140 l.cmd code 0 [] (learnClosed s) := by
  simp [learnEnd, hl, hw, ho, hc, refuse, learnClosed]

/-- Learning that is complete, every map in its range, answers the qualities and puts the maps in the queue. -/
theorem learnEnd_complete (ho : l.outcome = some 0) (hm : (learned w l).all (fun x => x.2.isSome) = true) :
    learnEnd s = respond 0x0140 l.cmd 0 0 [learnAnswer s (learned w l)]
      (addWaits (newWaits w (learned w l)) (learnClosed s)) := by
  have hnone : (learned w l).any (fun x => x.2.isNone) = false := by
    simpa [List.any_eq_false, ← Option.isSome_iff_ne_none, List.all_eq_true] using hm
  rw [← learnAnswer_congr (t := addWaits (newWaits w (learned w l)) (learnClosed s)) fun i => rd_learnClosed_qualFld i s]
  simp [learnEnd, hl, hw, ho, hnone, learnClosed, addWaits, newWaits]

end

theorem closureLearningEnds : Clauses.ClosureLearningEnds := by
  intro dt s l w h hl hw flags waits
  have hl' : (tick dt s).angle.learn = some l := by rwa [tick_angle]
  have hw' : (tick dt s).angle.wheel = some w := by rwa [tick_angle]
  have hflags : flags (learnClosed (tick dt s)) := by
    obtain ⟨hdone, hlearning, honly⟩ := learnClosed_flags (tick dt s)
    exact ⟨hdone, hlearning, fun f hf => (honly f hf).trans (rd_tick dt s f)⟩
  refine ⟨fun ho hm => ⟨addWaits (newWaits w (learned w l)) (learnClosed (tick dt s)), ?complete, hflags, ?waiting, ?angle⟩,
    fun code ho hc => ⟨_, ?aborted, hflags, ?kept⟩⟩
  case complete =>
    refine (event_steady h learnEnd).trans (congrArg _ ((learnEnd_complete hl' hw' ho hm).trans ?_))
    rw [learnAnswer_congr fun i => rd_tick dt s (qualFld i)]
  case aborted => exact (event_steady h learnEnd).trans (congrArg _ (learnEnd_aborted hl' hw' ho hc))
  case waiting =>
    simp only [waits, addWaits, learnClosed, onAngle_angle, flag_angle, wrB_angle, tick_angle, List.map_append, newWaits_map w hm]
  case angle => simp [addWaits, learnClosed]
  case kept => simp [learnClosed]

/-! ### The obligation -/

/-- Settles O15, a clause each for waits, for benchmark crossings and for the end of learning. -/
theorem chainCourse : Obligations.ChainCourse := ⟨chainWaits, benchmarkCrossings, closureLearningEnds⟩

end Sys2Proof.Machine
end

section
namespace Sys2Proof.Machine
variable {s : State} {m : Msg}

/-! ### Bits of a number -/

theorem bitOf_eq_testBit (x i : Nat) : bitOf x i = x.testBit i := by
  rw [Nat.testBit_eq_decide_div_mod_eq]; rfl

/-- A power of two whose bit is clear adds that bit and no other. -/
theorem testBit_add_two_pow {x i : Nat} (h : x.testBit i = false) (j : Nat) :
    (x + 2 ^ i).testBit j = (x.testBit j || decide (j = i)) := by
  induction i generalizing x j with
  | zero =>
    rw [Nat.testBit_zero, decide_eq_false_iff_not] at h
    cases j with
    | zero =>
      have hodd : (x + 1) % 2 = 1 := by omega
      simp [Nat.testBit_zero, hodd]
    | succ j =>
      have hhalf : (x + 1) / 2 = x / 2 := by omega
      simp [Nat.testBit_succ, hhalf]
  | succ i ih =>
    rw [Nat.testBit_succ] at h
    cases j with
    | zero => simp [Nat.testBit_zero, Nat.pow_succ, Nat.add_mul_mod_self_right]
    | succ j =>
      have hhalf : (x + 2 ^ (i + 1)) / 2 = x / 2 + 2 ^ i := by omega
      simp [Nat.testBit_succ, hhalf, ih h]

/-- A bit that is set is set, and no other bit changes. -/
theorem bitOf_setBit_true (x i j : Nat) : bitOf (setBit x i true) j = (bitOf x j || decide (j = i)) := by
  by_cases h : bitOf x i = true
  · by_cases e : j = i <;> simp [setBit, h, e]
  · rw [Bool.not_eq_true, bitOf_eq_testBit] at h
    simpa [setBit, bitOf_eq_testBit, h] using testBit_add_two_pow h j

/-- The bits of a list, set one by one. -/
theorem bitOf_foldl_setBit_true (l : List Nat) (x j : Nat) :
    bitOf (l.foldl (fun x o => setBit x o true) x) j = (bitOf x j || l.contains j) := by
  induction l generalizing x with
  | nil => simp
  | cons o l ih => simp [ih, bitOf_setBit_true, Bool.or_assoc]

/-! ### Descriptors and what their freeing leaves (scheduling R118, R146) -/

@[simp] theorem desc_setDesc_self (i : Nat) (d : Desc) (s : State) : desc (setDesc i d s) i = some d := by
  simp [desc, setDesc]

theorem otherDescs_setDesc (i : Nat) (d : Desc) (s : State) : OtherDescs s (setDesc i d s) i :=
  fun _ h => Tbl.find_insert_ne _ _ h

@[simp] theorem setDesc_regs (i : Nat) (d : Desc) (s : State) : (setDesc i d s).regs = s.regs := rfl

/-- A change of one pair that keeps whether it is halted halts no pair and restarts none. -/
theorem pairAt_onPair_halted {f : Pair → Pair} (hf : ∀ x, (f x).halted = x.halted) (p q : Nat) (s : State) :
    (pairAt (onPair p f s) q).halted = (pairAt s q).halted := by
  by_cases h : q = p
  · subst h; simp [pairAt, onPair, hf]
  · simp [pairAt, onPair, Tbl.get_set_ne _ _ _ _ h]

@[simp] theorem withdraw_regs (i : Nat) (s : State) : (withdraw i s).regs = s.regs := by
  unfold withdraw
  split
  · rfl
  · split <;> rfl

section
variable {i : Nat} {d : Desc}

/-- Of the Sequencer, a withdrawal changes the lists of the descriptor's pair. -/
theorem withdraw_seq (hd : desc s i = some d) : (withdraw i s).seq =
    (onPair d.pair (fun p => { p.forget i with link := p.link.filter (fun f => f.serial != d.serial) }) s).seq := by
  simp only [withdraw, hd]
  split <;> rfl

theorem pairAt_withdraw_halted (hd : desc s i = some d) (p : Nat) :
    (pairAt (withdraw i s) p).halted = (pairAt s p).halted := by
  rw [pairAt, withdraw_seq hd, ← pairAt]
  exact pairAt_onPair_halted (f := fun q => { q.forget i with link := _ }) (fun _ => rfl) d.pair p s

/-- A descriptor whose pair runs is freed: nothing of it stays, and its client gets its unit of quota back. -/
theorem freeDesc_eq (hd : desc s i = some d) (hf : d.frozen s = false) :
    freeDesc i s = wr (CLI_SEQ_USE_USED d.client) (rd s (CLI_SEQ_USE_USED d.client) - 1)
      { withdraw i s with seq := { (withdraw i s).seq with descs := Tbl.erase s.seq.descs i } } := by
  have hr : rd (withdraw i s) (CLI_SEQ_USE_USED d.client) = rd s (CLI_SEQ_USE_USED d.client) := rd_congr (withdraw_regs i s) _
  have hdescs : (withdraw i s).seq.descs = s.seq.descs := by rw [withdraw_seq hd]; rfl
  simp only [freeDesc, hd, hf, Bool.false_eq_true, if_false, ← hr, ← hdescs]
  rfl

theorem desc_freeDesc_self (hd : desc s i = some d) (hf : d.frozen s = false) : desc (freeDesc i s) i = none := by
  simp [freeDesc_eq hd hf, desc]

theorem rd_freeDesc_used (hd : desc s i = some d) (hf : d.frozen s = false) :
    rd (freeDesc i s) (CLI_SEQ_USE_USED d.client) = (rd s (CLI_SEQ_USE_USED d.client) - 1) % 65536 := by
  rw [freeDesc_eq hd hf, rd_wr_self]; rfl

theorem freeDesc_of_none (hd : desc s i = none) : freeDesc i s = s := by simp [freeDesc, hd]

theorem freeDesc_of_frozen (hd : desc s i = some d) (hf : d.frozen s = true) : freeDesc i s = s := by
  simp [freeDesc, hd, hf]

/-- `freeDesc` does nothing, or its descriptor is stored on a pair that runs. -/
theorem freeDesc_cases (i : Nat) (s : State) :
    freeDesc i s = s ∨ ∃ d, desc s i = some d ∧ d.frozen s = false := by
  cases hd : desc s i with
  | none => exact .inl (freeDesc_of_none hd)
  | some d =>
    cases hf : d.frozen s with
    | true => exact .inl (freeDesc_of_frozen hd hf)
    | false => exact .inr ⟨d, rfl, hf⟩

theorem otherDescs_freeDesc (i : Nat) (s : State) : OtherDescs s (freeDesc i s) i := by
  intro k hk
  obtain h | ⟨d, hd, hf⟩ := freeDesc_cases i s
  · rw [h]
  · rw [freeDesc_eq hd hf]
    exact Tbl.find_erase_ne _ hk

theorem frozen_freeDesc (e : Desc) (i : Nat) (s : State) : e.frozen (freeDesc i s) = e.frozen s := by
  obtain h | ⟨d, hd, hf⟩ := freeDesc_cases i s
  · rw [h]
  · rw [freeDesc_eq hd hf]
    exact pairAt_withdraw_halted hd e.pair

/-- The descriptors of `l` are freed one after the other. -/
def freeAll (l : List Nat) (s : State) : State := l.foldl (fun s i => freeDesc i s) s

theorem desc_freeAll_of_none (l : List Nat) (hd : desc s i = none) : desc (freeAll l s) i = none := by
  induction l generalizing s with
  | nil => exact hd
  | cons j l ih =>
    refine ih ?_
    by_cases h : i = j
    · subst h
      exact (congrArg (desc · i) (freeDesc_of_none hd)).trans hd
    · exact (otherDescs_freeDesc j s i h).trans hd

/-- Every listed descriptor whose pair runs is free in the end. -/
theorem desc_freeAll {l : List Nat} (hi : i ∈ l) (hd : desc s i = some d) (hf : d.frozen s = false) :
    desc (freeAll l s) i = none := by
  induction l generalizing s with
  | nil => nomatch hi
  | cons j l ih =>
    by_cases h : i = j
    · subst h
      exact desc_freeAll_of_none l (desc_freeDesc_self hd hf)
    · have hl : i ∈ l := (List.mem_cons.1 hi).resolve_left h
      exact ih hl ((otherDescs_freeDesc j s i h).trans hd) ((frozen_freeDesc d j s).trans hf)

end

/-! ### Faults and accepted commands -/

theorem detects_raise (code source : Nat) (detail : Word) (action : Nat) (s : State) :
    Detects (raise code source detail action s) code := by simp [Detects, raise]

/-- A command that is accepted has its own effect. -/
theorem command_of_accepted {code : Nat} (ha : Accepted code m s) (f : State → State) : command code m f s = .next (f s) := by
  obtain ⟨hserves, hturn, hcheck⟩ := ha
  exact command_accepted hserves hturn hcheck f

/-- A message with sound reserved fields acts on the descriptor it names, where that is the sender's. -/
theorem onOwnDesc_own {code : Nat} {masks : List Word} {d : Desc} (f : Nat → Desc → State → State) (hr : reservedBad m masks = none)
    (hd : desc s (word m 0).toNat = some d) (hc : d.client = m.client) :
    onOwnDesc code masks m f s = f (word m 0).toNat d s := by simp [onOwnDesc, hr, hd, hc]

/-! ### Admission (scheduling R118, R120) -/

/-- Descriptor `d` is stored at index `i` in its place, a serial number is used up, and the client's use counts it. -/
def admitted (w : Wheel) (m : Msg) (i : Nat) (d : Desc) (s : State) : State :=
  let t := setDesc i { d with place := admitPlace s w d } s
  wr (CLI_SEQ_USE_USED m.client) (rd s (CLI_SEQ_USE_USED m.client) + 1)
    { t with seq := { t.seq with nextSerial := serialAfter s.seq.nextSerial } }

section
variable (w : Wheel) (i : Nat) (d : Desc)

theorem admitDesc_eq (s : State) : admitDesc w m i d s = respond 0x0210 m 0 0 [wd i] (admitted w m i d s) := rfl

theorem desc_admitted_self : desc (admitted w m i d s) i = some { d with place := admitPlace s w d } :=
  Tbl.find_insert_self _ _ _

theorem otherDescs_admitted : OtherDescs s (admitted w m i d s) i := fun _ h => Tbl.find_insert_ne _ _ h

theorem admitted_nextSerial : (admitted w m i d s).seq.nextSerial = serialAfter s.seq.nextSerial := rfl

theorem rd_admitted_used :
    rd (admitted w m i d s) (CLI_SEQ_USE_USED m.client) = (rd s (CLI_SEQ_USE_USED m.client) + 1) % 65536 := by
  rw [admitted, rd_wr_self]; rfl

theorem used_register (c : Nat) : (CLI_SEQ_USE_USED c).key / 32 = CLI_SEQ_USE c := by
  simp only [Fld.key, CLI_SEQ_USE_USED]; omega

theorem onlyRegs_admitted : OnlyRegs s (admitted w m i d s) [CLI_SEQ_USE m.client] :=
  OnlyRegs.wr (.of_regs rfl _) _ (by rw [used_register]; exact List.mem_singleton_self _)

end

/-- A message that passes every check of Table 4-5 admits its descriptor at the free index that the model chooses (log entry 98). -/
theorem exec_armEvent_admits {w : Wheel} {k : Nat} (ha : Accepted 0x0210 m s)
    (hv : (bitOf (word m 0).toNat 16 = false ∧ bitOf (word m 0).toNat 17 = false) ∨ 0x20 ≤ versionOf s m.client)
    (hl : m.words.length = 6) (hr : reservedBad m armMasks = none) (hw : s.angle.wheel = some w) (hs : s.angle.stations ≠ [])
    (hc : admitCheck s w m (askedDesc s w m) = none) (hk : freeIndex s = some k) :
    exec (.armEvent m true) s = .next (respond 0x0210 m 0 0 [wd k] (admitted w m k (askedDesc s w m) s)) := by
  have hversion : ((bitOf (word m 0).toNat 16 || bitOf (word m 0).toNat 17) && decide (versionOf s m.client < 0x20)) = false := by
    obtain ⟨hbank, hset⟩ | hnew := hv
    · simp [hbank, hset]
    · simp [Nat.not_lt.mpr hnew]
  change execArmEvent m true s = _
  rw [execArmEvent, command_of_accepted ha]
  simp [armEvent, hversion, hl, hr, hw, hs, hc, hk, admitDesc_eq]

/-! ### Descriptors named by index (scheduling R147, R148, command reference R523) -/

section
variable {d : Desc} (hd : desc s (word m 0).toNat = some d) (hr : reservedBad m [0x0000FFFF] = none)
include hd hr

theorem exec_eventQuery (ha : Accepted 0x0240 m s) :
    exec (.eventQuery m true) s = .next (respond 0x0240 m 0 0 d.words s) := by
  change execEventQuery m true s = _
  rw [execEventQuery, command_of_accepted ha]
  simp only [hr, hd, Bool.not_true, Bool.false_eq_true, if_false]

section
variable (hown : d.client = m.client) (hrun : d.frozen s = false) (ha : Accepted 0x0211 m s)
include hown hrun ha

theorem exec_cancelEvent_free (hfixed : d.stage.fixed = false) :
    exec (.cancelEvent m true) s = .next (ok 0x0211 m (freeDesc (word m 0).toNat s)) := by
  change execCancelEvent m true s = _
  rw [execCancelEvent, command_of_accepted ha, onOwnDesc_own _ hr hd hown]
  simp [hrun, hfixed]

/-- A cancel whose pairs fail at hop 2 cancels nothing (architecture R24). -/
theorem exec_cancelEvent_unsound (hfixed : d.stage.fixed = false) :
    exec (.cancelEvent m false) s = .next (hop2 0x0211 (word m 0).toNat m s) := by
  change execCancelEvent m false s = _
  rw [execCancelEvent, command_of_accepted ha, onOwnDesc_own _ hr hd hown]
  simp [hrun, hfixed]

/-- A cancel of a recurring event that is Armed or Running makes the occurrence in hand its last. -/
theorem exec_cancelEvent_defer (hfixed : d.stage.fixed = true) (hrec : d.recurring = true) :
    exec (.cancelEvent m true) s =
      .next (refuse 0x0211 m 0x020B (setDesc (word m 0).toNat { d with lastOne := true } s)) := by
  change execCancelEvent m true s = _
  rw [execCancelEvent, command_of_accepted ha, onOwnDesc_own _ hr hd hown]
  simp [hrun, hfixed, hrec]

end
end

/-- A Waiting descriptor takes the values of an update at once. -/
theorem exec_updateEvent_waiting {d : Desc} {w : Wheel} (hd : desc s (word m 0).toNat = some d) (hown : d.client = m.client)
    (hwait : d.stage = .waiting) (hlock : d.toothLocked = false)
    (hr : reservedBad m [0x0000FFFF, 0xFFFFFFF8, 0xFFFFFFFF, 0xFFFFFF00] = none) (hc : updateCheck s m d = none)
    (hw : s.angle.wheel = some w) (ha : Accepted 0x0212 m s) :
    exec (.updateEvent m true) s = .next (ok 0x0212 m (setDesc (word m 0).toNat
      { d with
        endAngle := ofSigned 24 (s.angle.stations.getD (bits (word m 1) 7 3) 0 + signed 24 (bits (word m 1) 31 8))
        duration := (word m 2).toNat
        armLead := leadOf w (bits (word m 3) 31 8) } s)) := by
  change execUpdateEvent m true s = _
  rw [execUpdateEvent, command_of_accepted ha]
  simp only [hd, hlock, Bool.false_eq_true, if_false]
  rw [onOwnDesc_own _ hr hd hown]
  simp [hc, hw, hlock, Desc.takes, hwait]

/-! ### Banks (scheduling R149 to R151) -/

section
variable (c : Nat) (astern : Bool)

/-- The pending bit, the active bank and the cycle of a set are three fields. -/
theorem bankFields_keys :
    (bankFields c astern).1.key ≠ (bankFields c astern).2.2.key ∧ (bankFields c astern).2.1.key ≠ (bankFields c astern).1.key ∧
      (bankFields c astern).2.1.key ≠ (bankFields c astern).2.2.key := by
  cases astern <;>
    simp [bankFields, Fld.key, CLI_BANK_AHEAD_PEND, CLI_BANK_ASTERN_PEND, CLI_BANK_AHEAD_ACTIVE, CLI_BANK_ASTERN_ACTIVE,
      CLI_SWITCH_AHEAD_CYCLE, CLI_SWITCH_ASTERN_CYCLE, CLI_BANK, CLI_SWITCH_AHEAD, CLI_SWITCH_ASTERN, clientBase] <;> omega

theorem bankFields_pend_width : 0 < (bankFields c astern).1.w := by cases astern <;> exact Nat.one_pos

theorem bankFields_cycle_width : (bankFields c astern).2.2.w = 32 := by cases astern <;> rfl

/-- A switch of the set's banks waits for cycle `n`. -/
def switchAsked (n : Nat) (s : State) : State :=
  wr (bankFields c astern).2.2 n (wrB (bankFields c astern).1 true s)

theorem isSet_switchAsked_pend (n : Nat) : isSet (switchAsked c astern n s) (bankFields c astern).1 = true := by
  obtain ⟨hpend, _, _⟩ := bankFields_keys c astern
  rw [switchAsked, isSet_wr_ne _ _ hpend, isSet_wrB_self _ _ (bankFields_pend_width c astern)]

theorem rd_switchAsked_cycle {n : Nat} (h : n < 2 ^ 32) : rd (switchAsked c astern n s) (bankFields c astern).2.2 = n :=
  rd_wr_lt _ (by rwa [bankFields_cycle_width])

theorem rd_switchAsked_active (n : Nat) :
    rd (switchAsked c astern n s) (bankFields c astern).2.1 = rd s (bankFields c astern).2.1 := by
  obtain ⟨_, hpend, hcycle⟩ := bankFields_keys c astern
  rw [switchAsked, rd_wr_ne _ _ hcycle, rd_wrB_ne _ _ hpend]

end

/-- A switch to a cycle at most 65,535 ahead waits for it. -/
theorem exec_bankSwitch {gap : Nat} (ha : Accepted 0x0220 m s) (hr : reservedBad m [1, 0xFFFFFFFF] = none)
    (hgap : gap = ((word m 1).toNat + 2 ^ 32 - rd s SEQ_CYCLE_CYCLE) % 2 ^ 32) (hahead : gap ≠ 0) (hnear : gap ≤ 65535)
    (hpend : isSet s (bankFields m.client (bitOf (word m 0).toNat 0)).1 = false) :
    exec (.bankSwitch m true) s =
      .next (ok 0x0220 m (switchAsked m.client (bitOf (word m 0).toNat 0) (word m 1).toNat s)) := by
  have hspan : ¬(gap = 0 ∨ 65535 < gap) := by omega
  change execBankSwitch m true s = _
  rw [execBankSwitch, command_of_accepted ha]
  simp only [hr, ← hgap, hspan, hpend, Bool.not_true, Bool.false_eq_true, if_false]
  rfl

/-- The stored descriptors of a set's shadow bank whose pair runs. -/
def shadowDescs (c : Nat) (astern : Bool) (s : State) : Tbl Desc :=
  s.seq.descs.filter (fun x =>
    x.2.client == c && x.2.astern == astern && x.2.bank != rd s (bankFields c astern).2.1 && !x.2.frozen s)

theorem shadowDescs_run {c : Nat} {astern : Bool} {x : Nat × Desc} (h : x ∈ shadowDescs c astern s) : x.2.frozen s = false := by
  have hx := (List.mem_filter.1 h).2
  rw [Bool.and_eq_true] at hx
  simpa using hx.2

/-- What `BANK_CLEAR` does to a list of descriptors none of which has its times fixed: it frees them. -/
theorem clearDescs_eq_freeAll {l : Tbl Desc} (h : l.all (fun x => !x.2.stage.fixed) = true) (s : State) :
    l.foldl (fun s x => if x.2.stage.fixed then setDesc x.1 { x.2 with lastOne := true } s else freeDesc x.1 s) s =
      freeAll (l.map Prod.fst) s := by
  induction l generalizing s with
  | nil => rfl
  | cons x l ih =>
    rw [List.all_cons, Bool.and_eq_true, Bool.not_eq_true'] at h
    obtain ⟨hx, hl⟩ := h
    rw [List.foldl_cons, hx, ih hl]
    rfl

theorem exec_bankClear (ha : Accepted 0x0221 m s) (hr : reservedBad m [1] = none)
    (hpend : isSet s (bankFields m.client (bitOf (word m 0).toNat 0)).1 = false)
    (h : (shadowDescs m.client (bitOf (word m 0).toNat 0) s).all (fun x => !x.2.stage.fixed) = true) :
    exec (.bankClear m true) s =
      .next (respond 0x0221 m 0 0 [wd (shadowDescs m.client (bitOf (word m 0).toNat 0) s).length]
        (freeAll ((shadowDescs m.client (bitOf (word m 0).toNat 0) s).map Prod.fst) s)) := by
  change execBankClear m true s = _
  rw [← clearDescs_eq_freeAll h, execBankClear, command_of_accepted ha]
  simp only [hr, hpend, Bool.not_true, Bool.false_eq_true, if_false]
  rfl

/-! ### The SAFETY cut-off (scheduling R144, R145) -/

/-- With no event Armed or Running, there is none to cut. -/
theorem cutAll_of_none_fixed (f : Desc → Bool) (type reason : Nat) (h : s.seq.descs.all (fun x => !x.2.stage.fixed) = true) :
    cutAll f type reason s = s := by
  have hnone : s.seq.descs.filter (fun p => p.2.stage.fixed && f p.2) = [] := by
    rw [List.filter_eq_nil_iff]
    intro p hp
    have hp : p.2.stage.fixed = false := by simpa using List.all_eq_true.1 h p hp
    simp [hp]
  rw [cutAll, hnone]; rfl

theorem dropStakes_seq (p : Nat) (f : PStake → Bool) (s : State) : (dropStakes p f s).seq = s.seq := by
  unfold dropStakes; split <;> rfl

/-- A lane that is OFF does not fall. -/
theorem pulseOutOff_of_lane_off {o : Nat} (fast : Bool) (h : (laneAt s o).on = false) : pulseOutOff o fast s = s := by
  simp [pulseOutOff, h]

/-- Where the lane is OFF, a cut of pulse programs takes stakes alone. -/
theorem pulseCut_seq {o : Nat} (h : (laneAt s o).on = false) : (pulseCut o s).seq = s.seq := by
  rw [pulseCut, pulseOutOff_of_lane_off _ (by rwa [laneAt, dropStakes_seq]), dropStakes_seq]

theorem pulseCutAll_seq (l : List Nat) (h : ∀ o, (laneAt s o).on = false) : (pulseCutAll l s).seq = s.seq := by
  induction l generalizing s with
  | nil => rfl
  | cons o l ih =>
    have hseq : (pulseCut o s).seq = s.seq := pulseCut_seq (h o)
    exact (ih fun k => by rw [laneAt, hseq]; exact h k).trans hseq

theorem bitOf_inhibitOutputs (l : List Nat) (o : Nat) (s : State) :
    bitOf (inhibitOutputs l s).seq.inhibit o = (bitOf s.seq.inhibit o || l.contains o) := bitOf_foldl_setBit_true l _ o

theorem inhibitOutputs_descs (l : List Nat) (s : State) : (inhibitOutputs l s).seq.descs = s.seq.descs := rfl

theorem askRelease_inhibit (l : List Nat) (s : State) : (askRelease l s).seq.inhibit = s.seq.inhibit := rfl

theorem askRelease_regs (l : List Nat) (s : State) : (askRelease l s).regs = s.regs := rfl

theorem bitOf_askRelease (l : List Nat) (o : Nat) (s : State) :
    bitOf (askRelease l s).seq.release o = (bitOf s.seq.release o || l.contains o) := bitOf_foldl_setBit_true l _ o

/-- The outputs of `l` are inhibited, their pulse programs cut, and F_0114 is raised: a cut that ends no event. -/
def cutQuiet (l : List Nat) (ran : Bool) (s : State) : State :=
  raise 0x0114 0x65 0 (actEvent + if ran then actOff else 0) (pulseCutAll l (inhibitOutputs l s))

theorem cutQuiet_seq (l : List Nat) (ran : Bool) (h : ∀ o, (laneAt s o).on = false) :
    (cutQuiet l ran s).seq = (inhibitOutputs l s).seq := by
  rw [cutQuiet, raise_seq]
  exact pulseCutAll_seq l h

section
variable (hr : reservedBad m [0xFFFFFFFF, 0xFFFF000F] = none)
include hr

theorem exec_safetyCut_quiet (ha : Accepted 0x0230 m s) (h : s.seq.descs.all (fun x => !x.2.stage.fixed) = true) :
    exec (.safetyCut m true) s =
      .next (ok 0x0230 m (cutQuiet (cutOutputs s m) ((cutOutputs s m).any (fun o => (laneAt s o).on)) s)) := by
  have hcut : ∀ f l, cutAll f ntCutSafety 0 (inhibitOutputs l s) = inhibitOutputs l s := fun f l =>
    cutAll_of_none_fixed (s := inhibitOutputs l s) f _ _ h
  change execSafetyCut m true s = _
  rw [execSafetyCut, command_of_accepted ha]
  simp only [safetyCut, hr, hcut, Bool.not_true, Bool.false_eq_true, if_false]
  rfl

theorem exec_safetyRelease (ha : Accepted 0x0231 m s) :
    exec (.safetyRelease m true) s = .next (ok 0x0231 m (askRelease (releaseNames s m) s)) := by
  change execSafetyRelease m true s = _
  rw [execSafetyRelease, command_of_accepted ha]
  simp only [hr, Bool.not_true, Bool.false_eq_true, if_false]

end

/-! ### The obligation -/

/-- Settles O53, from the law of each of the eight commands. Which free index an admission takes is the model's choice (log entry 98), and
so is what commands do on halted pairs and with reserved bits (log entry 45). -/
theorem eventCommands : Obligations.EventCommands := by
  intro m s i
  refine ⟨?arm, ?cancel, ?update, ?query, ?switch, ?clear, ?cut, ?release⟩
  case arm =>
    intro w k ha hv hl hr hw hs hc hk
    exact ⟨_, exec_armEvent_admits ha hv hl hr hw hs hc hk, otherDescs_admitted w k _, admitted_nextSerial w k _,
      rd_admitted_used w k _, onlyRegs_admitted w k _, _, desc_admitted_self w k _, rfl, rfl, rfl, rfl, rfl, rfl, rfl, rfl, rfl⟩
  case cancel =>
    intro d hd hown hrun hr ha
    refine ⟨fun hfixed => ⟨⟨_, exec_cancelEvent_free hd hr hown hrun ha hfixed, ?freed⟩,
      _, exec_cancelEvent_unsound hd hr hown hrun ha hfixed, detects_raise 0x0202 .., rfl⟩,
      fun hfixed hrec => ⟨_, exec_cancelEvent_defer hd hr hown hrun ha hfixed hrec, ?deferred⟩⟩
    case freed => exact ⟨desc_freeDesc_self hd hrun, otherDescs_freeDesc i s, hown ▸ rd_freeDesc_used hd hrun⟩
    case deferred => exact ⟨desc_setDesc_self i _ s, otherDescs_setDesc i _ s, setDesc_regs i _ s⟩
  case update =>
    intro d w hd hown hwait hlock hr hc hw ha
    exact ⟨_, exec_updateEvent_waiting hd hown hwait hlock hr hc hw ha, otherDescs_setDesc i _ s, setDesc_regs i _ s,
      desc_setDesc_self i _ s⟩
  case query => exact fun d hd hr ha => ⟨_, exec_eventQuery hd hr ha, rfl⟩
  case switch =>
    intro b gap ha hr hahead hnear hpend
    exact ⟨_, exec_bankSwitch ha hr rfl hahead hnear hpend, isSet_switchAsked_pend _ _ _,
      rd_switchAsked_cycle _ _ (word m 1).isLt, rd_switchAsked_active _ _ _⟩
  case clear =>
    intro astern b l ha hr hpend hfixed
    exact ⟨_, exec_bankClear ha hr hpend hfixed, fun x hx hd =>
      desc_freeAll (List.mem_map_of_mem hx) hd (shadowDescs_run hx)⟩
  case cut =>
    intro ha hr hlanes hfixed
    refine ⟨_, exec_safetyCut_quiet hr ha hfixed, detects_raise 0x0114 .., ?_⟩
    rw [cutQuiet_seq _ _ hlanes]
    exact ⟨inhibitOutputs_descs _ s, fun o _ => bitOf_inhibitOutputs _ o s⟩
  case release =>
    exact fun ha hr => ⟨_, exec_safetyRelease hr ha, askRelease_inhibit _ s, askRelease_regs _ s, fun o _ => bitOf_askRelease _ o s⟩

end Sys2Proof.Machine
end

section
namespace Sys2Proof.Machine
variable {s : State} {f : Fld} {c k x d : Nat}

/-! ### Where the fields of a closing channel lie (closing Table 8-8) -/

/-- The keys of the fields that a measurement reads or writes. -/
theorem closingKeys (c : Nat) :
    (CD_TRIM_STATE c).key = 1024 * c + 126622 ∧ (CD_TRIM_MISS_RUN c).key = 1024 * c + 126618 ∧
    (CD_TRIM_RETURN_STEP c).key = 1024 * c + 126611 ∧ (CD_TRIM_TRIM c).key = 1024 * c + 126592 ∧
    (CD_LAST_WORD c).key = 1024 * c + 126464 ∧ (CD_COUNT_MISSES c).key = 1024 * c + 126720 ∧
    (CD_CFG_GAIN c).key = 1024 * c + 125968 ∧ (CD_CFG_TARGET c).key = 1024 * c + 125952 ∧
    (CD_TRIMLIM_TRIM_LIM c).key = 1024 * c + 126336 := by
  simp only [Fld.key, CD_TRIM_STATE, CD_TRIM_MISS_RUN, CD_TRIM_RETURN_STEP, CD_TRIM_TRIM, CD_LAST_WORD, CD_COUNT_MISSES, CD_CFG_GAIN,
    CD_CFG_TARGET, CD_TRIMLIM_TRIM_LIM, CD_TRIM, CD_LAST, CD_COUNT, CD_CFG, CD_TRIMLIM]
  omega

@[simp] theorem busyKey : CD_STATUS_BUSY.key = 52488 := rfl

/-! ### The configuration in effect, the trim record and the windows as time passes -/

theorem cdField_congr {t : State} (hchan : chan t c = chan s c) (hrd : rd t f = rd s f) : cdField t c f = cdField s c f := by
  simp only [cdField, hchan, hrd]

@[simp] theorem cdField_tick (dt : Nat) : cdField (tick dt s) c f = cdField s c f :=
  cdField_congr (by simp [chan]) (rd_tick dt s f)

@[simp] theorem trimOf_tick (dt : Nat) : trimOf (tick dt s) c = trimOf s c := by simp [trimOf]

@[simp] theorem windowOf_tick (dt : Nat) : windowOf (tick dt s) k = windowOf s k := by simp [windowOf]

@[simp] theorem driving_tick (dt : Nat) : driving (tick dt s) = driving s := by simp [driving]

@[simp] theorem kinkStatus_tick (dt : Nat) : kinkStatus (tick dt s) c d = kinkStatus s c d := by simp [kinkStatus]

@[simp] theorem detectOn_tick (dt : Nat) (v : List (BitVec 12)) (start limit : Nat) :
    detectOn (tick dt s) c v start limit = detectOn s c v start limit := by simp [detectOn]

/-! ### A converter released at the end of its window (closing R260, R265) -/

/-- Converter `k` serves no window any more, and the event of serial `x` holds no reservation on it. -/
def releaseConverter (k x : Nat) (s : State) : State := dropReserve k x (setWindow k none s)

@[simp] theorem windowOf_releaseConverter : windowOf (releaseConverter k x s) k = none := by
  simp [windowOf, releaseConverter, dropReserve, setReserves, setWindow]

theorem rd_releaseConverter (h : f.key ≠ CD_STATUS_BUSY.key) : rd (releaseConverter k x s) f = rd s f :=
  rd_wr_ne _ { s with drive := _ } h

@[simp] theorem releaseConverter_seq : (releaseConverter k x s).seq = s.seq := rfl
@[simp] theorem releaseConverter_faults : (releaseConverter k x s).faults = s.faults := rfl
@[simp] theorem trimOf_releaseConverter : trimOf (releaseConverter k x s) c = trimOf s c := rfl

theorem cdField_releaseConverter (h : f.key ≠ CD_STATUS_BUSY.key) : cdField (releaseConverter k x s) c f = cdField s c f :=
  cdField_congr rfl (rd_releaseConverter h)

@[simp] theorem driving_releaseConverter : driving (releaseConverter k x s) = driving s := by
  rw [driving, rd_releaseConverter (by decide), driving]

/-! ### Faults at most once per engine cycle -/

@[simp] theorem raisePerCycle_regs (code inst source : Nat) (detail : Word) (action : Nat) (s : State) :
    (raisePerCycle code inst source detail action s).regs = s.regs := by simp only [raisePerCycle]; split <;> simp

@[simp] theorem raisePerCycle_drive (code inst source : Nat) (detail : Word) (action : Nat) (s : State) :
    (raisePerCycle code inst source detail action s).drive = s.drive := by simp only [raisePerCycle]; split <;> simp

@[simp] theorem raisePerCycle_waiting (code inst source : Nat) (detail : Word) (action : Nat) (s : State) :
    (raisePerCycle code inst source detail action s).seq.waiting = s.seq.waiting := by simp only [raisePerCycle]; split <;> simp

/-! ### The trim (closing R267, R268, R270, R273) -/

theorem ofSigned_lt (w : Nat) (t : Int) : ofSigned w t < 2 ^ w := by
  have hpos : (0 : Int) < 2 ^ w := Int.pow_pos (by decide)
  have hlo := Int.emod_nonneg t (Int.ne_of_gt hpos)
  have hhi := Int.emod_lt_of_pos t hpos
  rw [ofSigned, Int.toNat_lt hlo]
  exact_mod_cast hhi

/-- A change of a trim record changes no register. -/
@[simp] theorem rd_onTrim (g : Trim → Trim) (s : State) : rd (onTrim c g s) f = rd s f := rfl

@[simp] theorem trimOf_onTrim_self (g : Trim → Trim) (s : State) : trimOf (onTrim c g s) c = g (trimOf s c) := by
  simp [trimOf, onTrim]

@[simp] theorem trimOf_wr (v : Nat) (s : State) : trimOf (wr f v s) c = trimOf s c := rfl

theorem rd_setTrim_self (t : Int) (s : State) : rd (setTrim c t s) (CD_TRIM_TRIM c) = ofSigned 17 t :=
  rd_wr_lt _ (ofSigned_lt 17 t)

@[simp] theorem trimOf_setTrim_exits (t : Int) (s : State) : (trimOf (setTrim c t s) c).exits = (trimOf s c).exits := by
  simp [setTrim]

/-- T of R268 for a delay `d`, rounded but not yet limited. -/
def trimWanted (s : State) (c d : Nat) : Int :=
  roundDiv ((cdField s c (CD_CFG_GAIN c) : Int) * 20 * ((cdField s c (CD_CFG_TARGET c) : Int) - d)) 256

/-- T of R268 within `TRIM_LIM`. -/
def trimLimited (s : State) (c d : Nat) : Int :=
  clampInt (-(cdField s c (CD_TRIMLIM_TRIM_LIM c) : Int)) (cdField s c (CD_TRIMLIM_TRIM_LIM c)) (trimWanted s c d)

/-- T is `t`, the miss count and the return step 0, and the state ACTIVE. -/
def trimActive (c : Nat) (t : Int) (s : State) : State :=
  wr (CD_TRIM_RETURN_STEP c) 0 (wr (CD_TRIM_STATE c) 0 (wr (CD_TRIM_MISS_RUN c) 0 (setTrim c t s)))

/-- R268 sets T and the state; when the limit applies it raises `F_0531`. -/
theorem trimSet_eq (c d : Nat) (s : State) :
    trimSet c d s = if trimLimited s c d = trimWanted s c d then trimActive c (trimLimited s c d) s
      else raisePerCycle 0x0531 c c 0 0 (trimActive c (trimLimited s c d) s) := rfl

theorem trimSet_regs (c d : Nat) (s : State) : (trimSet c d s).regs = (trimActive c (trimLimited s c d) s).regs := by
  rw [trimSet_eq]; split <;> simp

theorem trimSet_drive (c d : Nat) (s : State) : (trimSet c d s).drive = (trimActive c (trimLimited s c d) s).drive := by
  rw [trimSet_eq]; split <;> simp

theorem trimSet_waiting (c d : Nat) (s : State) : (trimSet c d s).seq.waiting = s.seq.waiting := by
  rw [trimSet_eq]; split <;> simp [trimActive, setTrim, onTrim]

theorem rd_trimSet_trim (c d : Nat) (s : State) : rd (trimSet c d s) (CD_TRIM_TRIM c) = ofSigned 17 (trimLimited s c d) := by
  rw [rd_congr (trimSet_regs c d s)]
  simp [trimActive, rd_wr_ne, rd_setTrim_self, closingKeys]

theorem rd_trimSet_missRun (c d : Nat) (s : State) : rd (trimSet c d s) (CD_TRIM_MISS_RUN c) = 0 := by
  rw [rd_congr (trimSet_regs c d s)]
  simp [trimActive, rd_wr_ne, closingKeys]

theorem rd_trimSet_state (c d : Nat) (s : State) : rd (trimSet c d s) (CD_TRIM_STATE c) = 0 := by
  rw [rd_congr (trimSet_regs c d s)]
  simp [trimActive, rd_wr_ne, closingKeys]

theorem trimOf_trimSet_exits (c d : Nat) (s : State) : (trimOf (trimSet c d s) c).exits = (trimOf s c).exits := by
  rw [trimOf, trimSet_drive, ← trimOf]; simp [trimActive]

theorem trimSet_windows (c d : Nat) (s : State) : (trimSet c d s).drive.windows = s.drive.windows := by
  rw [trimSet_drive]; rfl

/-! ### A miss (closing R270) -/

/-- The miss count is `n`, and `CD_COUNT_c.MISSES` counts the miss. -/
def trimMissed (c n : Nat) (s : State) : State := wr (CD_TRIM_MISS_RUN c) n (count (CD_COUNT_MISSES c) 1 s)

/-- Detection is lost: the return of the trim starts, with `F_0530`. -/
def trimReturns (c : Nat) (s : State) : State :=
  raise 0x0530 c 0 actReduced (wr (CD_TRIM_RETURN_STEP c) 0 (wr (CD_TRIM_STATE c) 1
    (onTrim c (fun x => { x with base := trimNow s c }) s)))

theorem trimMiss_held (hstate : rd s (CD_TRIM_STATE c) = 0) (hrun : rd s (CD_TRIM_MISS_RUN c) < 7) :
    trimMiss c s = trimMissed c (rd s (CD_TRIM_MISS_RUN c) + 1) s := by
  have hlt : rd s (CD_TRIM_MISS_RUN c) + 1 < 8 := Nat.succ_lt_succ hrun
  simp only [trimMiss, trimMissed, hstate, hlt, ne_eq, not_true_eq_false, if_false, if_true]

theorem trimMiss_eighth (hstate : rd s (CD_TRIM_STATE c) = 0) (hrun : rd s (CD_TRIM_MISS_RUN c) = 7) :
    trimMiss c s = trimReturns c (trimMissed c 8 s) := by
  simp only [trimMiss, trimMissed, trimReturns, hstate, hrun, ne_eq, not_true_eq_false, if_false, Nat.reduceAdd, Nat.lt_irrefl]

theorem rd_trimMissed_run {n : Nat} (h : n < 16) : rd (trimMissed c n s) (CD_TRIM_MISS_RUN c) = n := rd_wr_lt _ h

/-- In a cycle in which software has written no counter, a miss changes the miss count and `CD_COUNT_c.MISSES` alone. -/
theorem rd_trimMissed_ne {n : Nat} (hsw : s.sw = []) (hrun : f.key ≠ (CD_TRIM_MISS_RUN c).key)
    (hcount : f.key ≠ (CD_COUNT_MISSES c).key) : rd (trimMissed c n s) f = rd s f := by
  rw [trimMissed, rd_wr_ne _ _ hrun, count, if_neg (by simp [hsw]), rd_bump_ne _ _ hcount]

@[simp] theorem trimMissed_faults (n : Nat) : (trimMissed c n s).faults = s.faults := by simp [trimMissed]
@[simp] theorem trimOf_trimMissed (n : Nat) : trimOf (trimMissed c n s) c = trimOf s c := by simp [trimOf, trimMissed]

theorem rd_trimReturns_state : rd (trimReturns c s) (CD_TRIM_STATE c) = 1 := by
  rw [trimReturns, rd_congr (raise_regs _ _ _ _ _), rd_wr_ne _ _ (by simp [closingKeys]), rd_wr_lt]
  simp [CD_TRIM_STATE]

theorem rd_trimReturns_ne (hstate : f.key ≠ (CD_TRIM_STATE c).key) (hstep : f.key ≠ (CD_TRIM_RETURN_STEP c).key) :
    rd (trimReturns c s) f = rd s f := by
  rw [trimReturns, rd_congr (raise_regs _ _ _ _ _), rd_wr_ne _ _ hstep, rd_wr_ne _ _ hstate, rd_onTrim]

theorem trimOf_trimReturns_exits : (trimOf (trimReturns c s) c).exits = (trimOf s c).exits := by
  rw [trimOf, trimReturns, raise_drive, ← trimOf]; simp

theorem trimMiss_seq : (trimMiss c s).seq = s.seq := by
  simp only [trimMiss]; (repeat' split) <;> simp [onTrim]

theorem trimMiss_windows : (trimMiss c s).drive.windows = s.drive.windows := by
  simp only [trimMiss]; (repeat' split) <;> simp [onTrim]

/-! ### The trim loop's answer and the measurement word (closing R262, R269) -/

theorem trimFrom_measured (d : Nat) (he : (trimOf s c).eligible = true) (hs : rd s (CD_TRIM_STATE c) < 3) :
    trimFrom c 0 d s = trimSet c d s := by
  simp [trimFrom, he, Nat.ne_of_lt hs]

theorem trimFrom_notDetected (he : (trimOf s c).eligible = true) (hs : rd s (CD_TRIM_STATE c) = 0) :
    trimFrom c 2 0 s = trimMiss c s := by
  simp [trimFrom, he, hs]

theorem trimFrom_waiting (st d : Nat) : (trimFrom c st d s).seq.waiting = s.seq.waiting := by
  unfold trimFrom; (repeat' split) <;> simp [trimSet_waiting, trimMiss_seq]

theorem trimFrom_windows (st d : Nat) : (trimFrom c st d s).drive.windows = s.drive.windows := by
  unfold trimFrom; (repeat' split) <;> simp [trimSet_windows, trimMiss_windows]

/-- The fields of Table 8-2 lie side by side in the measurement word. -/
theorem closingWord_toNat {status : Nat} (hstatus : status < 16) (he : (trimOf s c).exits < 4) (hs : rd s (CD_TRIM_STATE c) < 4)
    (hd : d < 2 ^ 20) : (closingWord s c status 0 d).toNat =
      status * 2 ^ 28 + (trimOf s c).exits * 2 ^ 22 + rd s (CD_TRIM_STATE c) * 2 ^ 20 + d := by
  have hfits : status * 2 ^ 28 + (trimOf s c).exits * 2 ^ 22 + rd s (CD_TRIM_STATE c) * 2 ^ 20 + d < 2 ^ 32 := by omega
  simp only [closingWord, wd, BitVec.toNat_ofNat, Nat.zero_mul, Nat.add_zero, Nat.mod_eq_of_lt hfits]

theorem releaseWaiting_of_none (word : Word) (h : s.seq.waiting = []) : releaseWaiting c x word s = s := by
  simp only [releaseWaiting, h, List.filter_nil, List.foldl_nil]
  rw [← h]

/-- `CD_LAST_c` shows the measurement word of status `status` and delay `d`. -/
def closingShown (c status d : Nat) (s : State) : State := wr (CD_LAST_WORD c) (closingWord s c status 0 d).toNat s

theorem rd_closingShown_ne (status d : Nat) (h : f.key ≠ (CD_LAST_WORD c).key) : rd (closingShown c status d s) f = rd s f :=
  rd_wr_ne _ s h

@[simp] theorem closingShown_faults (status d : Nat) : (closingShown c status d s).faults = s.faults := by
  rw [closingShown, wr_faults]

theorem rd_closingShown_last {status : Nat} (hstatus : status < 16) (he : (trimOf s c).exits < 4) (hs : rd s (CD_TRIM_STATE c) < 4)
    (hd : d < 2 ^ 20) :
    rd (closingShown c status d s) (CD_LAST_WORD c) / 2 ^ 28 = status ∧
      rd (closingShown c status d s) (CD_LAST_WORD c) % 2 ^ 20 = d := by
  have hword : rd (closingShown c status d s) (CD_LAST_WORD c) = _ :=
    (rd_wr_lt _ (BitVec.isLt _)).trans (closingWord_toNat hstatus he hs hd)
  rw [hword]
  omega

/-- With no notice waiting, a converter's measurement goes to the trim loop and then shows in `CD_LAST_c`. -/
theorem measured_eq {status : Nat} (hdrive : driving s = true) (hw : s.seq.waiting = []) (hst : status ≠ 1) :
    measured c x status 0 d s = closingShown c status d (trimFrom c status d s) := by
  simp only [measured, hdrive, if_true, if_neg hst]
  rw [releaseWaiting_of_none]
  · rfl
  · rw [wr_seq, trimFrom_waiting, hw]

theorem windowOf_measured {status : Nat} (hdrive : driving s = true) (hw : s.seq.waiting = []) (hst : status ≠ 1) :
    windowOf (measured c x status 0 d s) k = windowOf s k := by
  rw [measured_eq hdrive hw hst, windowOf, closingShown, wr_drive, trimFrom_windows, windowOf]

/-! ### What a measurement leaves (closing R262, R268, R270) -/

section
variable (hdrive : driving s = true) (hw : s.seq.waiting = []) (helig : (trimOf s c).eligible = true)
  (hexits : (trimOf s c).exits < 4)
include hdrive hw helig hexits

/-- An eligible measurement inside the plausibility window sets the trim. -/
theorem measured_in_window (hstate : rd s (CD_TRIM_STATE c) < 3) (hd : d < 2 ^ 20) :
    let t := measured c x 0 0 d s
    rd t (CD_LAST_WORD c) / 2 ^ 28 = 0 ∧ rd t (CD_LAST_WORD c) % 2 ^ 20 = d ∧ rd t (CD_TRIM_STATE c) = 0 ∧
      rd t (CD_TRIM_MISS_RUN c) = 0 ∧ rd t (CD_TRIM_TRIM c) = ofSigned 17 (trimLimited s c d) := by
  dsimp only
  rw [measured_eq hdrive hw (by decide), trimFrom_measured d helig hstate]
  have hlast := rd_closingShown_last (s := trimSet c d s) (d := d) (status := 0) (by decide) (by rwa [trimOf_trimSet_exits])
    (by rw [rd_trimSet_state]; decide) hd
  refine ⟨hlast.1, hlast.2, ?_, ?_, ?_⟩
  · rw [rd_closingShown_ne _ _ (by simp [closingKeys]), rd_trimSet_state]
  · rw [rd_closingShown_ne _ _ (by simp [closingKeys]), rd_trimSet_missRun]
  · rw [rd_closingShown_ne _ _ (by simp [closingKeys]), rd_trimSet_trim]

section
variable (hstate : rd s (CD_TRIM_STATE c) = 0) (hsw : s.sw = [])
include hstate hsw

/-- An eligible miss before the eighth in a row is counted, and the trim stays. -/
theorem measured_miss (hrun : rd s (CD_TRIM_MISS_RUN c) < 7) :
    let t := measured c x 2 0 0 s
    rd t (CD_LAST_WORD c) / 2 ^ 28 = 2 ∧ rd t (CD_TRIM_MISS_RUN c) = rd s (CD_TRIM_MISS_RUN c) + 1 ∧
      rd t (CD_TRIM_TRIM c) = rd s (CD_TRIM_TRIM c) ∧ rd t (CD_TRIM_STATE c) = 0 ∧ t.faults = s.faults := by
  dsimp only
  rw [measured_eq hdrive hw (by decide), trimFrom_notDetected helig hstate, trimMiss_held hstate hrun]
  have hst : rd (trimMissed c (rd s (CD_TRIM_MISS_RUN c) + 1) s) (CD_TRIM_STATE c) = 0 := by
    rw [rd_trimMissed_ne hsw (by simp [closingKeys]) (by simp [closingKeys]), hstate]
  have hlast := rd_closingShown_last (s := trimMissed c (rd s (CD_TRIM_MISS_RUN c) + 1) s) (d := 0) (status := 2) (by decide)
    (by rwa [trimOf_trimMissed]) (by rw [hst]; decide) (by decide)
  refine ⟨hlast.1, ?_, ?_, ?_, by rw [closingShown_faults, trimMissed_faults]⟩
  · rw [rd_closingShown_ne _ _ (by simp [closingKeys]), rd_trimMissed_run (by omega)]
  · rw [rd_closingShown_ne _ _ (by simp [closingKeys]), rd_trimMissed_ne hsw (by simp [closingKeys]) (by simp [closingKeys])]
  · rw [rd_closingShown_ne _ _ (by simp [closingKeys]), hst]

/-- The eighth eligible miss in a row starts the return of the trim. -/
theorem measured_eighth_miss (hrun : rd s (CD_TRIM_MISS_RUN c) = 7) :
    let t := measured c x 2 0 0 s
    rd t (CD_LAST_WORD c) / 2 ^ 28 = 2 ∧ rd t (CD_TRIM_MISS_RUN c) = 8 ∧ rd t (CD_TRIM_TRIM c) = rd s (CD_TRIM_TRIM c) ∧
      rd t (CD_TRIM_STATE c) = 1 ∧ Detects t 0x0530 := by
  dsimp only
  rw [measured_eq hdrive hw (by decide), trimFrom_notDetected helig hstate, trimMiss_eighth hstate hrun]
  have hlast := rd_closingShown_last (s := trimReturns c (trimMissed c 8 s)) (d := 0) (status := 2) (by decide)
    (by rwa [trimOf_trimReturns_exits, trimOf_trimMissed]) (by rw [rd_trimReturns_state]; decide) (by decide)
  refine ⟨hlast.1, ?_, ?_, ?_, by rw [Detects, closingShown_faults]; exact detects_raise ..⟩
  · rw [rd_closingShown_ne _ _ (by simp [closingKeys]), rd_trimReturns_ne (by simp [closingKeys]) (by simp [closingKeys]),
      rd_trimMissed_run (by decide)]
  · rw [rd_closingShown_ne _ _ (by simp [closingKeys]), rd_trimReturns_ne (by simp [closingKeys]) (by simp [closingKeys]),
      rd_trimMissed_ne hsw (by simp [closingKeys]) (by simp [closingKeys])]
  · rw [rd_closingShown_ne _ _ (by simp [closingKeys]), rd_trimReturns_state]

end
end

/-! ### The end of a converter's window (closing R260, R265) -/

theorem kinkFound_of_closing {x : Window} {v : List (BitVec 12)} {below p : Nat} (hx : windowOf s k = some x) (hc : x.closing = true)
    (hv : detectOn s x.channel v (max (20 * cdField s x.channel (CD_DET_SETTLE x.channel)) below) (x.length / 20) = some (p, d)) :
    kinkFound k v below s = measured x.channel x.serial (kinkStatus s x.channel d).1 (kinkStatus s x.channel d).2 d
      (releaseConverter k x.serial s) := by
  simp only [kinkFound, hx, hc, if_true, hv]
  rfl

theorem windowOver_of_closing {x : Window} (hx : windowOf s k = some x) (hc : x.closing = true) (hend : x.from_ + x.length ≤ s.cyc) :
    windowOver k s = measured x.channel x.serial 2 0 0 (releaseConverter k x.serial s) := by
  simp only [windowOver, hx, hc, hend, and_self, if_true]
  rfl

theorem trimLimited_releaseConverter : trimLimited (releaseConverter k x s) c d = trimLimited s c d := by
  simp only [trimLimited, trimWanted]
  rw [cdField_releaseConverter (f := CD_CFG_GAIN c), cdField_releaseConverter (f := CD_CFG_TARGET c),
    cdField_releaseConverter (f := CD_TRIMLIM_TRIM_LIM c)] <;> simp [closingKeys]

theorem trimLimited_tick (dt : Nat) : trimLimited (tick dt s) c d = trimLimited s c d := by simp [trimLimited, trimWanted]

/-- R258 to R262, R265, R268 to R270: a kink in a plausible window, and windows without one. -/
theorem closingMeasurements : Clauses.ClosingMeasurements := by
  intro dt k s x hs hdt hdrive hw hx hc c
  have hrd {f : Fld} (h : f.key ≠ CD_STATUS_BUSY.key) : rd (releaseConverter k x.serial (tick dt s)) f = rd s f := by
    rw [rd_releaseConverter h, rd_tick]
  have hstate := hrd (f := CD_TRIM_STATE c) (by simp [closingKeys])
  have hrun := hrd (f := CD_TRIM_MISS_RUN c) (by simp [closingKeys])
  have htrim := hrd (f := CD_TRIM_TRIM c) (by simp [closingKeys])
  have hdrive' : driving (releaseConverter k x.serial (tick dt s)) = true := by simpa using hdrive
  have hw' : (releaseConverter k x.serial (tick dt s)).seq.waiting = [] := by simpa using hw
  have hx' : windowOf (tick dt s) k = some x := by simpa using hx
  refine ⟨fun v below p d hv hplaus hd hs3 hexits helig => ?kink, fun hend helig hs0 hrun8 hexits => ?missed⟩
  case kink =>
    refine runs_of_event rfl hs ?_
    rw [kinkFound_of_closing hx' hc (by simpa using hv), kinkStatus_tick, hplaus]
    obtain ⟨hstatus, hdelay, hactive, hzero, hset⟩ := measured_in_window (x := x.serial) (d := d) hdrive' hw' (by simpa using helig)
      (by simpa using hexits) (by rwa [hstate]) hd
    rw [trimLimited_releaseConverter, trimLimited_tick] at hset
    exact ⟨by rw [windowOf_measured hdrive' hw' (by decide), windowOf_releaseConverter], hstatus, hdelay, hactive, hzero, hset⟩
  case missed =>
    refine runs_of_event rfl hs ?_
    rw [windowOver_of_closing hx' hc (by simpa using hend)]
    have hsw : (releaseConverter k x.serial (tick dt s)).sw = [] := tick_sw (by omega) s
    have hnone : windowOf (measured x.channel x.serial 2 0 0 (releaseConverter k x.serial (tick dt s))) k = none := by
      rw [windowOf_measured hdrive' hw' (by decide), windowOf_releaseConverter]
    by_cases h7 : rd s (CD_TRIM_MISS_RUN c) < 7
    · obtain ⟨hstatus, hmiss, hkept, hactive, hfaults⟩ := measured_miss (x := x.serial) hdrive' hw' (by simpa using helig)
        (by simpa using hexits) (hstate.trans hs0) hsw (by rwa [hrun])
      exact ⟨hnone, hstatus, hmiss.trans (by rw [hrun]), hkept.trans htrim, fun _ => ⟨hactive, hfaults.trans (by simp)⟩, fun h => by omega⟩
    · have h7 : rd s (CD_TRIM_MISS_RUN c) = 7 := by omega
      obtain ⟨hstatus, hmiss, hkept, hreturns, hfault⟩ := measured_eighth_miss (x := x.serial) hdrive' hw' (by simpa using helig)
        (by simpa using hexits) (hstate.trans hs0) hsw (hrun.trans h7)
      exact ⟨hnone, hstatus, hmiss.trans (by rw [h7]), hkept.trans htrim, fun h => by omega, fun _ => ⟨hreturns, hfault⟩⟩

end Sys2Proof.Machine
end

section
open Sys2Proof Sys2Proof.Machine

theorem OnlyRegs.trans {s t u : State} {l : List Nat} (h : OnlyRegs s t l) (k : OnlyRegs t u l) : OnlyRegs s u l :=
  fun f hf => (k f hf).trans (h f hf)

theorem OnlyRegs.mono {s t : State} {l l' : List Nat} (h : OnlyRegs s t l) (hl : l ⊆ l') : OnlyRegs s t l' :=
  fun f hf => h f fun e => hf (hl e)

end

section
namespace Sys2Proof.Machine
variable {s t : State} {fs : List Fld} {f : Fld} {x : Word} {off : Nat} {l : List Nat}

/-! ### Software writes of configuration registers (scope R13) -/

/-- The global register at `off` holds writable configuration fields alone, each with bits of its own. -/
def configOnly (off : Nat) : Bool :=
  (globalFields off).all (fun f => f.key / 32 == off && f.acc == .rw && f.kind == .cfg) &&
    decide ((globalFields off).map Fld.key).Nodup

theorem configOnly_iff : configOnly off = true ↔
    (∀ f ∈ globalFields off, f.key / 32 = off ∧ f.acc = .rw ∧ f.kind = .cfg) ∧ ((globalFields off).map Fld.key).Nodup := by
  simp only [configOnly, Bool.and_eq_true, List.all_eq_true, beq_iff_eq, decide_eq_true_eq, and_assoc]

/-- A software write to a configuration field stores its value under the field's substitution. -/
theorem swField_cfg (v : Nat) (s : State) (hacc : f.acc = .rw) (hkind : f.kind = .cfg) :
    swField f v s = wr f (f.fix.apply v) s := by
  simp only [swField, hacc, hkind]

/-- Software writes of the fields `fs`, each with its bits of `x`. -/
def swFields (fs : List Fld) (x : Word) (s : State) : State := fs.foldl (fun s f => swField f (f.ofWord x) s) s

theorem swFields_cons (g : Fld) (fs : List Fld) (x : Word) (s : State) :
    swFields (g :: fs) x s = swFields fs x (swField g (g.ofWord x) s) := rfl

theorem swWrite_regs (off : Nat) (fs : List Fld) (x : Word) (s : State) : (swWrite off fs x s).regs = (swFields fs x s).regs := rfl

theorem onlyRegs_swFields (hoff : off ∈ l) (hfs : ∀ g ∈ fs, g.key / 32 = off ∧ g.acc = .rw ∧ g.kind = .cfg) (h : OnlyRegs s t l) :
    OnlyRegs s (swFields fs x t) l := by
  induction fs generalizing t with
  | nil => exact h
  | cons g fs ih =>
    obtain ⟨⟨hreg, hacc, hkind⟩, hfs⟩ := List.forall_mem_cons.mp hfs
    rw [swFields_cons, swField_cfg _ _ hacc hkind]
    exact ih hfs (h.wr _ (hreg ▸ hoff))

theorem rd_swFields_ne (hfs : ∀ g ∈ fs, g.acc = .rw ∧ g.kind = .cfg) (hf : f.key ∉ fs.map Fld.key) :
    rd (swFields fs x s) f = rd s f := by
  induction fs generalizing s with
  | nil => rfl
  | cons g fs ih =>
    obtain ⟨⟨hacc, hkind⟩, hfs⟩ := List.forall_mem_cons.mp hfs
    rw [List.map_cons, List.mem_cons, not_or] at hf
    rw [swFields_cons, swField_cfg _ _ hacc hkind, ih hfs hf.2, rd_wr_ne _ _ hf.1]

theorem rd_swFields_mem (hfs : ∀ g ∈ fs, g.acc = .rw ∧ g.kind = .cfg) (hnodup : (fs.map Fld.key).Nodup) (hf : f ∈ fs) :
    rd (swFields fs x s) f = f.fix.apply (f.ofWord x) % 2 ^ f.w := by
  induction fs generalizing s with
  | nil => exact absurd hf List.not_mem_nil
  | cons g fs ih =>
    obtain ⟨⟨hacc, hkind⟩, hrest⟩ := List.forall_mem_cons.mp hfs
    obtain ⟨hg, hkeys⟩ := List.nodup_cons.mp hnodup
    rw [swFields_cons]
    rcases List.mem_cons.mp hf with rfl | hmem
    · rw [rd_swFields_ne hrest hg, swField_cfg _ _ hacc hkind, rd_wr_self]
    · exact ih hrest hkeys hmem

/-- A register of configuration fields alone holds the word written to it. -/
theorem holds_swWrite (h : configOnly off = true) (x : Word) (s : State) : Holds (swWrite off (globalFields off) x s) off x := by
  obtain ⟨hfs, hnodup⟩ := configOnly_iff.mp h
  intro f hf _ _
  rw [rd_congr (swWrite_regs off (globalFields off) x s)]
  exact rd_swFields_mem (fun g hg => (hfs g hg).2) hnodup hf

/-- A write to such a register changes no other one. -/
theorem onlyRegs_swWrite (h : configOnly off = true) (hoff : off ∈ l) (x : Word) (ht : OnlyRegs s t l) :
    OnlyRegs s (swWrite off (globalFields off) x t) l :=
  onlyRegs_swFields hoff (configOnly_iff.mp h).1 ht

/-- A register keeps the word it holds while other registers change. -/
theorem holds_of_onlyRegs (h : configOnly off = true) (ht : Holds s off x) (hl : OnlyRegs s t l) (hoff : off ∉ l) : Holds t off x := by
  intro f hf hacc hkind
  rw [hl f (((configOnly_iff.mp h).1 f hf).1 ▸ hoff), ht f hf hacc hkind]

/-! ### Firmware commits change no register (register reference R538) -/

@[simp] theorem rd_commits (offs : List Nat) (s : State) (f : Fld) : rd (commits offs s) f = rd s f := rfl

theorem holds_commits (offs : List Nat) (h : Holds s off x) : Holds (commits offs s) off x := h

theorem onlyRegs_commits (offs : List Nat) (h : OnlyRegs s t l) : OnlyRegs s (commits offs t) l := h

end Sys2Proof.Machine
end

section
namespace Sys2Proof.Machine
variable {s : State} {m : Msg} {c : Nat}

/-! ### The reset of a trim (closing R273) -/

theorem rd_trimReset_trim (c : Nat) (s : State) : rd (trimReset c s) (CD_TRIM_TRIM c) = 0 := by
  rw [trimReset, rd_wr_ne _ _ (by simp [closingKeys]), rd_wr_ne _ _ (by simp [closingKeys]), rd_wr_ne _ _ (by simp [closingKeys]),
    rd_setTrim_self]
  decide

theorem rd_trimReset_missRun (c : Nat) (s : State) : rd (trimReset c s) (CD_TRIM_MISS_RUN c) = 0 := by
  rw [trimReset, rd_wr_ne _ _ (by simp [closingKeys]), rd_wr_ne _ _ (by simp [closingKeys]), rd_wr_self]
  exact Nat.zero_mod _

theorem rd_trimReset_state (c : Nat) (s : State) :
    rd (trimReset c s) (CD_TRIM_STATE c) = if isSet s (CD_CFG_TRIM_EN c) && isSet s (CD_CFG_ENABLE c) then 0 else 3 := by
  rw [trimReset, rd_wr_lt]
  split <;> exact of_decide_eq_true rfl

theorem onlyRegs_trimReset (c : Nat) (s : State) : OnlyRegs s (trimReset c s) [CD_TRIM c] := by
  have hset : OnlyRegs s (setTrim c 0 s) [CD_TRIM c] := (OnlyRegs.of_regs (t := onTrim c _ s) rfl _).wr _ (by
    simp [closingKeys, CD_TRIM]; omega)
  refine ((hset.wr 0 ?_).wr 0 ?_).wr _ ?_ <;> simp [closingKeys, CD_TRIM] <;> omega

/-! ### `CLOSING_CONFIG` (closing R273, R274) -/

theorem configOnly_closing : ∀ c : Fin 36, configOnly (CD_CFG c) = true ∧ configOnly (CD_DET c) = true ∧
    configOnly (CD_PLAUS c) = true ∧ configOnly (CD_TRIMLIM c) = true := by decide +kernel

/-- The four configuration registers of channel `c` are written. -/
def cdWritten (c : Nat) (cfg det plaus lim : Word) (s : State) : State :=
  swWrite (CD_TRIMLIM c) (globalFields (CD_TRIMLIM c)) lim (swWrite (CD_PLAUS c) (globalFields (CD_PLAUS c)) plaus
    (swWrite (CD_DET c) (globalFields (CD_DET c)) det (swWrite (CD_CFG c) (globalFields (CD_CFG c)) cfg s)))

theorem cdConfigure_eq (c : Nat) (cfg det plaus lim : Word) (s : State) :
    cdConfigure c cfg det plaus lim s =
      if rd (cdWritten c cfg det plaus lim s) (CD_CFG_ENABLE c) = rd s (CD_CFG_ENABLE c) ∧
          rd (cdWritten c cfg det plaus lim s) (CD_CFG_TRIM_EN c) = rd s (CD_CFG_TRIM_EN c) then cdWritten c cfg det plaus lim s
      else trimReset c (cdWritten c cfg det plaus lim s) := rfl

/-- What follows the writes of the configuration is at most a reset of the trim. -/
theorem onlyRegs_cdConfigure_cdWritten (c : Nat) (cfg det plaus lim : Word) (s : State) :
    OnlyRegs (cdWritten c cfg det plaus lim s) (cdConfigure c cfg det plaus lim s) [CD_TRIM c] := by
  rw [cdConfigure_eq]
  split
  · exact .refl _ _
  · exact onlyRegs_trimReset _ _

/-- The registers that a configuration may change lie apart. -/
theorem closingOffsets (c : Nat) : [CD_CFG c, CD_DET c, CD_PLAUS c, CD_TRIMLIM c, CD_TRIM c].Nodup := by
  simp [CD_CFG, CD_DET, CD_PLAUS, CD_TRIMLIM, CD_TRIM]

section
variable (hc : c < 36) (cfg det plaus lim : Word)
include hc

theorem holds_cdWritten (s : State) :
    Holds (cdWritten c cfg det plaus lim s) (CD_CFG c) cfg ∧ Holds (cdWritten c cfg det plaus lim s) (CD_DET c) det ∧
      Holds (cdWritten c cfg det plaus lim s) (CD_PLAUS c) plaus ∧ Holds (cdWritten c cfg det plaus lim s) (CD_TRIMLIM c) lim := by
  obtain ⟨hcfg, hdet, hplaus, hlim⟩ := configOnly_closing ⟨c, hc⟩
  have hafter {off : Nat} {y : Word} {u : State} (hu : Holds u off y) {off' : Nat} (h : configOnly off = true)
      (h' : configOnly off' = true) (hne : off ≠ off') (y' : Word) : Holds (swWrite off' (globalFields off') y' u) off y :=
    holds_of_onlyRegs h hu (onlyRegs_swWrite h' (List.mem_singleton_self _) y' (.refl _ _)) (by simpa using hne)
  have hne := closingOffsets c
  simp only [List.nodup_cons, List.mem_cons, not_or] at hne
  obtain ⟨⟨hcd, hcp, hcl, -⟩, ⟨hdp, hdl, -⟩, ⟨hpl, -⟩, -⟩ := hne
  exact ⟨hafter (hafter (hafter (holds_swWrite hcfg _ _) hcfg hdet hcd _) hcfg hplaus hcp _) hcfg hlim hcl _,
    hafter (hafter (holds_swWrite hdet _ _) hdet hplaus hdp _) hdet hlim hdl _, hafter (holds_swWrite hplaus _ _) hplaus hlim hpl _,
    holds_swWrite hlim _ _⟩

theorem onlyRegs_cdWritten (s : State) :
    OnlyRegs s (cdWritten c cfg det plaus lim s) [CD_CFG c, CD_DET c, CD_PLAUS c, CD_TRIMLIM c, CD_TRIM c] := by
  obtain ⟨hcfg, hdet, hplaus, hlim⟩ := configOnly_closing ⟨c, hc⟩
  exact onlyRegs_swWrite hlim (by simp) _ (onlyRegs_swWrite hplaus (by simp) _ (onlyRegs_swWrite hdet (by simp) _
    (onlyRegs_swWrite hcfg (by simp) _ (.refl _ _))))

theorem holds_cdConfigure (s : State) :
    Holds (cdConfigure c cfg det plaus lim s) (CD_CFG c) cfg ∧ Holds (cdConfigure c cfg det plaus lim s) (CD_DET c) det ∧
      Holds (cdConfigure c cfg det plaus lim s) (CD_PLAUS c) plaus ∧ Holds (cdConfigure c cfg det plaus lim s) (CD_TRIMLIM c) lim := by
  obtain ⟨hcfg, hdet, hplaus, hlim⟩ := configOnly_closing ⟨c, hc⟩
  obtain ⟨hwcfg, hwdet, hwplaus, hwlim⟩ := holds_cdWritten hc cfg det plaus lim s
  have hne := closingOffsets c
  simp only [List.nodup_cons, List.mem_cons, not_or] at hne
  obtain ⟨⟨-, -, -, hct, -⟩, ⟨-, -, hdt, -⟩, ⟨-, hpt, -⟩, ⟨hlt, -⟩, -⟩ := hne
  have hafter {off : Nat} {y : Word} (h : configOnly off = true) (hy : Holds (cdWritten c cfg det plaus lim s) off y)
      (hoff : off ≠ CD_TRIM c) : Holds (cdConfigure c cfg det plaus lim s) off y :=
    holds_of_onlyRegs h hy (onlyRegs_cdConfigure_cdWritten c cfg det plaus lim s) (by simpa using hoff)
  exact ⟨hafter hcfg hwcfg hct, hafter hdet hwdet hdt, hafter hplaus hwplaus hpt, hafter hlim hwlim hlt⟩

theorem onlyRegs_cdConfigure (s : State) :
    OnlyRegs s (cdConfigure c cfg det plaus lim s) [CD_CFG c, CD_DET c, CD_PLAUS c, CD_TRIMLIM c, CD_TRIM c] :=
  (onlyRegs_cdWritten hc cfg det plaus lim s).trans ((onlyRegs_cdConfigure_cdWritten c cfg det plaus lim s).mono (by simp))

end

/-- A change of `ENABLE` or `TRIM_EN` resets the trim. -/
theorem cdConfigure_resets (c : Nat) (cfg det plaus lim : Word) (s : State) :
    let u := cdConfigure c cfg det plaus lim s
    rd u (CD_CFG_ENABLE c) ≠ rd s (CD_CFG_ENABLE c) ∨ rd u (CD_CFG_TRIM_EN c) ≠ rd s (CD_CFG_TRIM_EN c) →
      rd u (CD_TRIM_TRIM c) = 0 ∧ rd u (CD_TRIM_MISS_RUN c) = 0 := by
  dsimp only
  rw [cdConfigure_eq]
  split
  case isTrue h => exact fun hne => hne.elim (absurd h.1) (absurd h.2)
  case isFalse => exact fun _ => ⟨rd_trimReset_trim .., rd_trimReset_missRun ..⟩

theorem exec_closingConfig (ha : Accepted 0x0168 m s) (hc : (word m 0).toNat < 36) (hodd : oddMember s (word m 0).toNat = false)
    (hown : owns s m.client (word m 0).toNat = true) (hok : cdBad (word m 1) (word m 2) (word m 3) (word m 4) = none) :
    exec (.closingConfig m) s = .next (respond 0x0168 m 0 0 [] (commits
      [CD_CFG (word m 0).toNat, CD_DET (word m 0).toNat, CD_PLAUS (word m 0).toNat, CD_TRIMLIM (word m 0).toNat]
      (cdConfigure (word m 0).toNat (word m 1) (word m 2) (word m 3) (word m 4) s))) := by
  change command 0x0168 m (closingConfig m) s = _
  rw [command_of_accepted ha]
  simp only [closingConfig, Nat.not_le.mpr hc, if_false, hodd, hown, hok, Bool.not_true, Bool.false_eq_true, ok]

/-! ### Commands that name one channel (closing R273, command reference R516) -/

/-- A fold in which one element alone acts is that element's action. -/
theorem foldl_of_only {α β : Type} {f : β → α → β} {a : α} {l : List α} (hn : l.Nodup) (ha : a ∈ l)
    (h : ∀ b x, x ≠ a → f b x = b) (b : β) : l.foldl f b = f b a := by
  have hidle : ∀ (l : List α) (b : β), a ∉ l → l.foldl f b = b := by
    intro l b hl
    induction l generalizing b with
    | nil => rfl
    | cons y l ih =>
      rw [List.mem_cons, not_or] at hl
      rw [List.foldl_cons, h _ _ (Ne.symm hl.1), ih _ hl.2]
  obtain ⟨l₁, l₂, rfl⟩ := List.append_of_mem ha
  obtain ⟨-, hn₂, hd⟩ := List.nodup_append.mp hn
  rw [List.foldl_append, hidle l₁ _ (fun h₁ => hd a h₁ a List.mem_cons_self rfl), List.foldl_cons, hidle l₂ _ (List.nodup_cons.mp hn₂).1]

theorem bitOf_two_pow (c i : Nat) : bitOf (2 ^ c) i = decide (c = i) := by rw [bitOf_eq_testBit, Nat.testBit_two_pow]

theorem trimResetItems_one (c : Fin 36) (hodd : oddMember s c = false) (hown : owns s m.client c = true) :
    trimResetItems m (2 ^ c.val) s = ([(c.val, 0)], trimReset c s) := by
  rw [trimResetItems, foldl_of_only (a := c.val) List.nodup_range (List.mem_range.mpr c.isLt)]
  · simp [bitOf_two_pow, hodd, hown, Tbl.insert]
  · intro a i hi
    simp [bitOf_two_pow, Ne.symm hi]

section
variable (c : Fin 36) (hr : reservedBad m [0xFFFFFFFF, 0x0000000F] = none) (hmask : chanMask (word m 0) (word m 1) = 2 ^ c.val)
include hr hmask

theorem exec_trimReset (ha : Accepted 0x0169 m s) (hodd : oddMember s c = false) (hown : owns s m.client c = true) :
    exec (.trimReset m) s = .next (respond 0x0169 m 0 0 (itemsOf 36 [(c.val, 0)]) (trimReset c s)) := by
  change command 0x0169 m (trimResetCmd m) s = _
  rw [command_of_accepted ha]
  simp only [trimResetCmd, hr, hmask, trimResetItems_one c hodd hown]

theorem exec_closingStatus (ha : Accepted 0x016A m s) :
    exec (.closingStatus m) s = .next (respond 0x016A m 0 0
      ([CD_LAST c, CD_TRIM c, CD_COUNT c].map (fun o => wordNow s (globalFields o))) s) := by
  change command 0x016A m (closingStatus m) s = _
  rw [command_of_accepted ha]
  simp only [closingStatus, hr, hmask]
  rw [List.flatMap_eq_foldl, foldl_of_only (a := c.val) List.nodup_range (List.mem_range.mpr c.isLt)]
  · simp [bitOf_two_pow]
  · intro a i hi
    simp [bitOf_two_pow, Ne.symm hi]

end

/-- R273, R274: the configuration of a channel, the reset of its trim and its status. -/
theorem closingConfiguration : Clauses.ClosingConfiguration := by
  intro m s
  refine ⟨fun ha hc hodd hown hok => ?config, fun c hr hmask => ⟨fun ha hodd hown => ?reset, fun ha => ?status⟩⟩
  case config =>
    obtain ⟨hcfg, hdet, hplaus, hlim⟩ := holds_cdConfigure hc (word m 1) (word m 2) (word m 3) (word m 4) s
    refine ⟨_, exec_closingConfig ha hc hodd hown hok, holds_commits _ hcfg, holds_commits _ hdet, holds_commits _ hplaus,
      holds_commits _ hlim, onlyRegs_commits _ (onlyRegs_cdConfigure hc _ _ _ _ s), ?_⟩
    simp only [rd_commits]
    exact cdConfigure_resets _ _ _ _ _ s
  case reset =>
    exact ⟨_, exec_trimReset c hr hmask ha hodd hown, rd_trimReset_trim .., rd_trimReset_missRun .., rd_trimReset_state ..,
      onlyRegs_trimReset c s⟩
  case status => exact ⟨_, exec_closingStatus c hr hmask ha, rfl⟩

/-! ### The obligation -/

/-- Settles O26: a clause for measurements and the trims they set (closing R258 to R270), one for the configuration (R273, R274). -/
theorem closing : Obligations.Closing := ⟨closingMeasurements, closingConfiguration⟩

end Sys2Proof.Machine
end

section
open Sys2Proof Sys2Proof.Machine

theorem OnlyRegs.count {s t : State} {l : List Nat} {f : Fld} (h : OnlyRegs s t l) (n : Nat) (hsw : t.sw = []) (hf : f.key / 32 ∈ l) :
    OnlyRegs s (count f n t) l := by
  rw [Sys2Proof.Machine.count, if_neg (by simp [hsw])]
  exact h.bump n hf

end

section
namespace Sys2Proof.Machine
variable {s t : State} {f : Fld} {n k : Nat}

/-! ### Where the fields of an auxiliary output lie (auxiliary R289) -/

theorem auxStatKeys (n : Nat) :
    (AUX_STAT_LATCH n).key = 512 * n + 54016 ∧ (AUX_STAT_ON n).key = 512 * n + 54018 ∧ (AUX_STAT_CAUSE n).key = 512 * n + 54019 ∧
    (AUX_STAT_RETRIES_LEFT n).key = 512 * n + 54021 ∧ (AUX_STAT_HOT n).key = 512 * n + 54023 ∧
    (AUX_STAT_OPEN n).key = 512 * n + 54024 ∧ (AUX_STAT_BAT n).key = 512 * n + 54025 ∧
    (AUX_STAT_AT_LIMIT n).key = 512 * n + 54026 ∧ (AUX_STAT_INRUSH n).key = 512 * n + 54027 ∧
    (AUX_STAT_WAITING n).key = 512 * n + 54028 ∧ (AUX_STAT_TEMP n).key = 512 * n + 54032 := by
  simp only [Fld.key, AUX_STAT_LATCH, AUX_STAT_ON, AUX_STAT_CAUSE, AUX_STAT_RETRIES_LEFT, AUX_STAT_HOT, AUX_STAT_OPEN, AUX_STAT_BAT,
    AUX_STAT_AT_LIMIT, AUX_STAT_INRUSH, AUX_STAT_WAITING, AUX_STAT_TEMP, AUX_STAT]
  omega

theorem auxCountKeys (n : Nat) :
    (AUX_COUNT_SHORTS n).key = 512 * n + 54168 ∧ (AUX_COUNT_THERMAL n).key = 512 * n + 54160 ∧
    (AUX_COUNT_I2T_ENDS n).key = 512 * n + 54152 ∧ (AUX_COUNT_DROOP_HOLDS n).key = 512 * n + 54148 := by
  simp only [Fld.key, AUX_COUNT_SHORTS, AUX_COUNT_THERMAL, AUX_COUNT_I2T_ENDS, AUX_COUNT_DROOP_HOLDS, AUX_COUNT]
  omega

theorem auxFeedKeys : AUX_FEED_GROUP0.key = 53120 ∧ AUX_FEED_GROUP1.key = 53128 ∧ AUX_FEED_GROUP2.key = 53136 ∧
    AUX_FEED_GROUP3.key = 53144 := ⟨rfl, rfl, rfl, rfl⟩

/-- The registers in which the fields stand. -/
theorem auxRegisters (n : Nat) :
    ((AUX_STAT_LATCH n).key / 32 = AUX_STAT n ∧ (AUX_STAT_ON n).key / 32 = AUX_STAT n ∧ (AUX_STAT_CAUSE n).key / 32 = AUX_STAT n ∧
    (AUX_STAT_HOT n).key / 32 = AUX_STAT n ∧ (AUX_STAT_OPEN n).key / 32 = AUX_STAT n ∧ (AUX_STAT_BAT n).key / 32 = AUX_STAT n ∧
    (AUX_STAT_AT_LIMIT n).key / 32 = AUX_STAT n ∧ (AUX_STAT_INRUSH n).key / 32 = AUX_STAT n ∧
    (AUX_STAT_WAITING n).key / 32 = AUX_STAT n ∧ (AUX_STAT_TEMP n).key / 32 = AUX_STAT n) ∧
    (AUX_COUNT_SHORTS n).key / 32 = AUX_COUNT n ∧ (AUX_COUNT_THERMAL n).key / 32 = AUX_COUNT n ∧
    (AUX_COUNT_I2T_ENDS n).key / 32 = AUX_COUNT n ∧ (AUX_COUNT_DROOP_HOLDS n).key / 32 = AUX_COUNT n := by
  simp only [auxStatKeys, auxCountKeys, AUX_STAT, AUX_COUNT]
  omega

/-! ### What a change of an output leaves, and what leaves the outputs -/

@[simp] theorem rd_onAux (g : Aux → Aux) : rd (onAux n g s) f = rd s f := rfl
@[simp] theorem isSet_onAux (g : Aux → Aux) : isSet (onAux n g s) f = isSet s f := rfl
@[simp] theorem onAux_cyc (g : Aux → Aux) : (onAux n g s).cyc = s.cyc := rfl
@[simp] theorem onAux_sw (g : Aux → Aux) : (onAux n g s).sw = s.sw := rfl
@[simp] theorem onAux_waiters (g : Aux → Aux) : (onAux n g s).drive.waiters = s.drive.waiters := rfl

@[simp] theorem auxAt_onAux_self (g : Aux → Aux) : auxAt (onAux n g s) n = g (auxAt s n) := by simp [auxAt, onAux]

theorem auxAt_onAux_ne (g : Aux → Aux) (h : k ≠ n) : auxAt (onAux n g s) k = auxAt s k := by
  simp [auxAt, onAux, Tbl.get_set_ne _ _ _ _ h]

/-- What a change of one output keeps of an output, it keeps of every output. -/
theorem auxAt_onAux_keeps {β : Type} {p : Aux → β} {g : Aux → Aux} (h : ∀ x, p (g x) = p x) :
    p (auxAt (onAux n g s) k) = p (auxAt s k) := by
  by_cases e : k = n
  · rw [e, auxAt_onAux_self, h]
  · rw [auxAt_onAux_ne g e]

@[simp] theorem auxAt_wr (v : Nat) : auxAt (wr f v s) n = auxAt s n := rfl
@[simp] theorem auxAt_wrB (b : Bool) : auxAt (wrB f b s) n = auxAt s n := rfl
@[simp] theorem auxAt_flag : auxAt (flag f s) n = auxAt s n := rfl
@[simp] theorem auxAt_count (v : Nat) : auxAt (count f v s) n = auxAt s n := by simp [auxAt]
@[simp] theorem auxAt_tick (dt : Nat) : auxAt (tick dt s) n = auxAt s n := by simp [auxAt]

@[simp] theorem auxAt_raise (code source : Nat) (d : Word) (a : Nat) : auxAt (raise code source d a s) n = auxAt s n := rfl
@[simp] theorem rd_raise (code source : Nat) (d : Word) (a : Nat) : rd (raise code source d a s) f = rd s f := rfl
@[simp] theorem isSet_raise (code source : Nat) (d : Word) (a : Nat) : isSet (raise code source d a s) f = isSet s f := rfl

theorem auxField_congr (h : (auxAt t n).cfg = (auxAt s n).cfg) (f : Fld) : auxField t n f = auxField s n f := by
  simp only [auxField, h]

@[simp] theorem auxField_tick (dt : Nat) : auxField (tick dt s) n f = auxField s n f := auxField_congr (by rw [auxAt_tick]) f

/-- In a cycle in which software has written no counter, a count changes its own field alone. -/
theorem rd_count_ne {g : Fld} (v : Nat) (hsw : s.sw = []) (h : g.key ≠ f.key) : rd (count f v s) g = rd s g := by
  rw [count, if_neg (by simp [hsw]), rd_bump_ne v s h]

/-- A condition that has stood for the time asked has lasted. -/
theorem lasted_some {m since : Nat} (h : since + m ≤ s.cyc) : lasted s m (some since) = true := decide_eq_true h

/-! ### The report of a tripped event (R283) -/

section
variable (reason : Nat)

@[simp] theorem auxReport_drive : (auxReport n reason s).drive = s.drive := by simp only [auxReport]; split <;> rfl
@[simp] theorem auxReport_regs : (auxReport n reason s).regs = s.regs := by simp only [auxReport]; split <;> rfl
@[simp] theorem auxReport_cyc : (auxReport n reason s).cyc = s.cyc := by simp only [auxReport]; split <;> rfl
@[simp] theorem auxReport_sw : (auxReport n reason s).sw = s.sw := by simp only [auxReport]; split <;> rfl
@[simp] theorem rd_auxReport : rd (auxReport n reason s) f = rd s f := rd_congr (auxReport_regs reason) f
@[simp] theorem auxAt_auxReport : auxAt (auxReport n reason s) k = auxAt s k := by simp [auxAt]

end

/-! ### Switching off while no output waits for a window (R281) -/

theorem serveWaiters_of_none (h : s.drive.waiters = []) : serveWaiters n s = s := by simp [serveWaiters, h]

theorem filterWaiters_of_none (p : Nat → Bool) (h : s.drive.waiters = []) :
    { s with drive := { s.drive with waiters := s.drive.waiters.filter p } } = s := by
  rw [h, List.filter_nil, ← h]

/-- An output switched off in cycle `now`, where it was `on` until then: nothing that was measured on it lasts. -/
def auxRests (on : Bool) (now : Nat) (x : Aux) : Aux :=
  { x with
    inrush := none, limitSince := none, lowSince := none, idleSince := none, backSince := none
    offAt := if on then some now else x.offAt }

theorem auxSwitchOff_of_none (h : s.drive.waiters = []) :
    auxSwitchOff n s = wrB (AUX_STAT_AT_LIMIT n) false (wrB (AUX_STAT_ON n) false (wrB (AUX_STAT_INRUSH n) false
      (wrB (AUX_STAT_WAITING n) false (onAux n (auxRests (isSet s (AUX_STAT_ON n)) s.cyc) s)))) := by
  simp only [auxSwitchOff]
  rw [filterWaiters_of_none _ (by exact h), serveWaiters_of_none (by exact h)]
  rfl

section
variable (hw : s.drive.waiters = [])
include hw

theorem isSet_auxSwitchOff_on : isSet (auxSwitchOff n s) (AUX_STAT_ON n) = false := by
  rw [auxSwitchOff_of_none hw, isSet_wrB_ne _ _ (by simp [auxStatKeys]), isSet_wrB_self _ _ (by simp [AUX_STAT_ON])]

/-- A switch-off leaves `AUX_COUNT_n`, and of `AUX_STAT_n` all but the bits that follow the switch. -/
theorem rd_auxSwitchOff_ne (hat : f.key ≠ (AUX_STAT_AT_LIMIT n).key) (hon : f.key ≠ (AUX_STAT_ON n).key)
    (hin : f.key ≠ (AUX_STAT_INRUSH n).key) (hwait : f.key ≠ (AUX_STAT_WAITING n).key) :
    rd (auxSwitchOff n s) f = rd s f := by
  rw [auxSwitchOff_of_none hw, rd_wrB_ne _ _ hat, rd_wrB_ne _ _ hon, rd_wrB_ne _ _ hin, rd_wrB_ne _ _ hwait, rd_onAux]

theorem onlyRegs_auxSwitchOff {u : State} {l : List Nat} (h : OnlyRegs u s l) (hl : AUX_STAT n ∈ l) :
    OnlyRegs u (auxSwitchOff n s) l := by
  have hoff : OnlyRegs u (onAux n (auxRests (isSet s (AUX_STAT_ON n)) s.cyc) s) l := h
  rw [auxSwitchOff_of_none hw]
  exact (((hoff.wrB _ (by simpa [auxRegisters])).wrB _ (by simpa [auxRegisters])).wrB _ (by simpa [auxRegisters])).wrB _
    (by simpa [auxRegisters])

theorem auxSwitchOff_cyc : (auxSwitchOff n s).cyc = s.cyc := by rw [auxSwitchOff_of_none hw]; rfl

theorem auxSwitchOff_sw : (auxSwitchOff n s).sw = s.sw := by rw [auxSwitchOff_of_none hw]; rfl

theorem auxAt_auxSwitchOff : auxAt (auxSwitchOff n s) n = auxRests (isSet s (AUX_STAT_ON n)) s.cyc (auxAt s n) := by
  rw [auxSwitchOff_of_none hw]; simp

end

end Sys2Proof.Machine
end

section
namespace Sys2Proof.Machine
variable {s : State} {f : Fld} {n k : Nat}

/-! ### A stretch of measurements (R277, R280, R285 to R287) -/

/-- What no step of a fold changes, the fold does not change. -/
theorem foldl_keeps {α β : Type} {p : State → β} {g : State → α → State} (h : ∀ u a, p (g u a) = p u) (l : List α) (s : State) :
    p (l.foldl g s) = p s := by
  induction l generalizing s with
  | nil => rfl
  | cons a l ih => exact (ih _).trans (h s a)

/-- The outputs take in the stretch `r` that begins at cycle `t`. -/
def takeStretch (r : AuxRun) (t : Nat) (s : State) : State :=
  (List.range 16).foldl (fun u n => onAux n (auxStretch s r t n) u) s

theorem rd_takeStretch (r : AuxRun) (t : Nat) : rd (takeStretch r t s) f = rd s f := by
  have hstep (u : State) (n : Nat) : rd (onAux n (auxStretch s r t n) u) f = rd u f := rd_onAux _
  exact foldl_keeps (p := fun u => rd u f) hstep _ _

/-- What a stretch keeps of an output whatever it brings, it keeps of every output. -/
theorem auxAt_takeStretch_keeps {β : Type} {p : Aux → β} (r : AuxRun) (t : Nat) (h : ∀ n x, p (auxStretch s r t n x) = p x) :
    p (auxAt (takeStretch r t s) k) = p (auxAt s k) := by
  have hstep (u : State) (n : Nat) : p (auxAt (onAux n (auxStretch s r t n) u) k) = p (auxAt u k) := auxAt_onAux_keeps (h n)
  exact foldl_keeps (p := fun u => p (auxAt u k)) hstep _ _

/-- `AUX_FEED` shows the four feeds of the stretch `r`. -/
def showFeeds (r : AuxRun) (s : State) : State :=
  wr AUX_FEED_GROUP2 (feedOf r 8) (wr AUX_FEED_GROUP3 (feedOf r 12) (wr AUX_FEED_GROUP0 (feedOf r 0) (wr AUX_FEED_GROUP1 (feedOf r 4) s)))

theorem rd_showFeeds (r : AuxRun) :
    rd (showFeeds r s) AUX_FEED_GROUP0 = bits r.feed 7 0 ∧ rd (showFeeds r s) AUX_FEED_GROUP1 = bits r.feed 15 8 ∧
      rd (showFeeds r s) AUX_FEED_GROUP2 = bits r.feed 23 16 ∧ rd (showFeeds r s) AUX_FEED_GROUP3 = bits r.feed 31 24 := by
  refine ⟨?_, ?_, ?_, ?_⟩
  · rw [showFeeds, rd_wr_ne _ _ (by decide), rd_wr_ne _ _ (by decide)]
    exact rd_wr_lt _ (bits_lt r.feed 7 0)
  · rw [showFeeds, rd_wr_ne _ _ (by decide), rd_wr_ne _ _ (by decide), rd_wr_ne _ _ (by decide)]
    exact rd_wr_lt _ (bits_lt r.feed 15 8)
  · exact rd_wr_lt _ (bits_lt r.feed 23 16)
  · rw [showFeeds, rd_wr_ne _ _ (by decide)]
    exact rd_wr_lt _ (bits_lt r.feed 31 24)

theorem rd_showFeeds_ne (r : AuxRun) (h0 : f.key ≠ AUX_FEED_GROUP0.key) (h1 : f.key ≠ AUX_FEED_GROUP1.key)
    (h2 : f.key ≠ AUX_FEED_GROUP2.key) (h3 : f.key ≠ AUX_FEED_GROUP3.key) : rd (showFeeds r s) f = rd s f := by
  rw [showFeeds, rd_wr_ne _ _ h2, rd_wr_ne _ _ h3, rd_wr_ne _ _ h0, rd_wr_ne _ _ h1]

@[simp] theorem auxAt_showFeeds (r : AuxRun) : auxAt (showFeeds r s) k = auxAt s k := rfl

theorem onlyRegs_showFeeds {u : State} {l : List Nat} (r : AuxRun) (h : OnlyRegs u s l) (hl : AUX_FEED ∈ l) :
    OnlyRegs u (showFeeds r s) l :=
  (((h.wr (f := AUX_FEED_GROUP1) _ hl).wr (f := AUX_FEED_GROUP0) _ hl).wr (f := AUX_FEED_GROUP3) _ hl).wr (f := AUX_FEED_GROUP2) _ hl

/-- The `AT_LIMIT` bits of the first `m` outputs show `b`. -/
def showLimits (b : Nat → Bool) (m : Nat) (s : State) : State :=
  (List.range m).foldl (fun u n => wrB (AUX_STAT_AT_LIMIT n) (b n) u) s

section
variable (b : Nat → Bool)

theorem showLimits_succ (m : Nat) : showLimits b (m + 1) s = wrB (AUX_STAT_AT_LIMIT m) (b m) (showLimits b m s) := by
  simp [showLimits, List.range_succ]

theorem rd_showLimits_ne (m : Nat) (h : ∀ n, f.key ≠ (AUX_STAT_AT_LIMIT n).key) : rd (showLimits b m s) f = rd s f :=
  foldl_keeps (p := fun u => rd u f) (fun u n => rd_wrB_ne _ u (h n)) _ _

theorem isSet_showLimits {m : Nat} (h : k < m) : isSet (showLimits b m s) (AUX_STAT_AT_LIMIT k) = b k := by
  induction m with
  | zero => exact absurd h (Nat.not_lt_zero k)
  | succ m ih =>
    rw [showLimits_succ]
    by_cases e : k = m
    · rw [e, isSet_wrB_self _ _ (by simp [AUX_STAT_AT_LIMIT])]
    · rw [isSet_wrB_ne _ _ (by simp only [auxStatKeys]; omega), ih (by omega)]

theorem onlyRegs_showLimits {u : State} {l : List Nat} {m : Nat} (h : OnlyRegs u s l) (hl : ∀ k < m, AUX_STAT k ∈ l) :
    OnlyRegs u (showLimits b m s) l := by
  induction m with
  | zero => exact h
  | succ m ih =>
    rw [showLimits_succ]
    exact (ih fun k hk => hl k (Nat.lt_succ_of_lt hk)).wrB _ (by simpa [auxRegisters] using hl m (Nat.lt_succ_self m))

@[simp] theorem auxAt_showLimits (m : Nat) : auxAt (showLimits b m s) k = auxAt s k := by
  have hstep (u : State) (n : Nat) : auxAt (wrB (AUX_STAT_AT_LIMIT n) (b n) u) k = auxAt u k := auxAt_wrB _
  exact foldl_keeps (p := fun u => auxAt u k) hstep _ _

end

/-- The state after a stretch, whose feeds `AUX_FEED` shows. -/
def fedStretch (r : AuxRun) (t : Nat) (s : State) : State := showFeeds r (takeStretch r t s)

theorem auxRun_eq (r : AuxRun) (t : Nat) : auxRun r t s = showLimits (atLimit (fedStretch r t s) r) 16 (fedStretch r t s) := by
  simp only [auxRun, showLimits, fedStretch, showFeeds, takeStretch]

theorem auxMeasure_nil : auxMeasure [] s = s := rfl

theorem auxMeasure_single (r : AuxRun) : auxMeasure [r] s = auxRun r (s.cyc - r.cycles) s := by simp [auxMeasure]

theorem auxAt_fedStretch (r : AuxRun) (t : Nat) : auxAt (fedStretch r t s) k = auxAt (takeStretch r t s) k := by
  rw [fedStretch, auxAt_showFeeds]

theorem isSet_fedStretch (r : AuxRun) (t : Nat) (hf : 53145 ≤ f.key) : isSet (fedStretch r t s) f = isSet s f := by
  have hfeed : f.key ≠ AUX_FEED_GROUP0.key ∧ f.key ≠ AUX_FEED_GROUP1.key ∧ f.key ≠ AUX_FEED_GROUP2.key ∧
      f.key ≠ AUX_FEED_GROUP3.key := by
    simp only [auxFeedKeys]
    omega
  obtain ⟨h0, h1, h2, h3⟩ := hfeed
  rw [isSet, fedStretch, rd_showFeeds_ne r h0 h1 h2 h3, rd_takeStretch, isSet]

/-- Whether an output stands at its limit in a stretch does not turn on what the stretch leaves. -/
theorem atLimit_fedStretch (r : AuxRun) (t : Nat) : atLimit (fedStretch r t s) r k = atLimit s r k := by
  have hcfg (g : Fld) : auxField (fedStretch r t s) k g = auxField s k g :=
    auxField_congr (by rw [auxAt_fedStretch]; exact auxAt_takeStretch_keeps (p := Aux.cfg) r t fun _ _ => rfl) g
  have hon := isSet_fedStretch (s := s) (f := AUX_STAT_ON k) r t (by simp only [auxStatKeys]; omega)
  have hin := isSet_fedStretch (s := s) (f := AUX_STAT_INRUSH k) r t (by simp only [auxStatKeys]; omega)
  have hlimit : auxLimit (fedStretch r t s) k = auxLimit s k := by simp only [auxLimit, hcfg, hin]
  simp only [atLimit, hlimit, hon]

/-- A stretch opens no inrush window and ends none. -/
theorem inrush_auxRun (r : AuxRun) (t : Nat) : (auxAt (auxRun r t s) k).inrush = (auxAt s k).inrush := by
  rw [auxRun_eq, auxAt_showLimits, auxAt_fedStretch]
  exact auxAt_takeStretch_keeps (p := Aux.inrush) r t fun _ _ => rfl

theorem rd_auxRun_feeds (r : AuxRun) (t : Nat) :
    rd (auxRun r t s) AUX_FEED_GROUP0 = bits r.feed 7 0 ∧ rd (auxRun r t s) AUX_FEED_GROUP1 = bits r.feed 15 8 ∧
      rd (auxRun r t s) AUX_FEED_GROUP2 = bits r.feed 23 16 ∧ rd (auxRun r t s) AUX_FEED_GROUP3 = bits r.feed 31 24 := by
  have hne (m : Nat) {g : Fld} (hg : g.key < 54026) : ∀ n, g.key ≠ (AUX_STAT_AT_LIMIT n).key := fun n => by
    simp only [auxStatKeys]; omega
  rw [auxRun_eq, rd_showLimits_ne _ _ (hne 16 (by decide)), rd_showLimits_ne _ _ (hne 16 (by decide)),
    rd_showLimits_ne _ _ (hne 16 (by decide)), rd_showLimits_ne _ _ (hne 16 (by decide))]
  exact rd_showFeeds r

theorem isSet_auxRun_atLimit (r : AuxRun) (t : Nat) (hk : k < 16) : isSet (auxRun r t s) (AUX_STAT_AT_LIMIT k) = atLimit s r k := by
  rw [auxRun_eq, isSet_showLimits _ hk, atLimit_fedStretch]

theorem onlyRegs_auxRun {u : State} {l : List Nat} (r : AuxRun) (t : Nat) (h : OnlyRegs u s l) (hfeed : AUX_FEED ∈ l)
    (hstat : ∀ k < 16, AUX_STAT k ∈ l) : OnlyRegs u (auxRun r t s) l := by
  have htake : OnlyRegs u (takeStretch r t s) l := fun g hg => (rd_takeStretch r t).trans (h g hg)
  rw [auxRun_eq]
  exact onlyRegs_showLimits _ (onlyRegs_showFeeds r htake hfeed) hstat

@[simp] theorem atLimit_tick (r : AuxRun) (dt : Nat) : atLimit (tick dt s) r k = atLimit s r k := by simp [atLimit, auxLimit]

theorem exec_inrushEnd {dt : Nat} {n : Fin 16} (hs : steady dt s = true) (l : List AuxRun) :
    exec (.inrushEnd dt n l) s = .next (inrushEnd n (auxMeasure l (tick dt s))) :=
  event_steady hs fun u => inrushEnd n (auxMeasure l u)

theorem inrushEnd_of_none (h : (auxAt s n).inrush = none) : inrushEnd n s = s := by simp [inrushEnd, h]

/-- R277, R280, R285: what one stretch shows, with no inrush window to end. -/
theorem auxiliaryMeasurements : Clauses.AuxiliaryMeasurements := by
  intro dt n r s hs hin
  refine ⟨_, exec_inrushEnd hs [r], ?_⟩
  rw [auxMeasure_single, inrushEnd_of_none (by rw [inrush_auxRun, auxAt_tick, hin])]
  obtain ⟨h0, h1, h2, h3⟩ := rd_auxRun_feeds (s := tick dt s) r ((tick dt s).cyc - r.cycles)
  refine ⟨h0, h1, h2, h3, fun k hk => ?limits, onlyRegs_auxRun r _ (.of_regs (tick_regs s dt) _) List.mem_cons_self fun k hk => ?regs⟩
  case limits => exact (isSet_auxRun_atLimit r _ hk).trans (atLimit_tick r dt)
  case regs => exact List.mem_cons_of_mem _ (List.mem_map_of_mem (List.mem_range.mpr hk))

/-! ### The end of an inrush window (R280, R285) -/

/-- The window of output `n` is over: counted where its integral ended it, and where droop held its timer. -/
def windowCounted (n : Nat) (s : State) : State :=
  let u := if boundReached s n then count (AUX_COUNT_I2T_ENDS n) 1 s else s
  if auxHeld s n = 0 then u else count (AUX_COUNT_DROOP_HOLDS n) 1 u

/-- Output `n` is in no inrush window. -/
def closeWindow (n : Nat) (s : State) : State := wrB (AUX_STAT_INRUSH n) false (onAux n (fun x => { x with inrush := none }) s)

/-- The first cycle in which the timer of a window that began in cycle `since` has run out. -/
def windowTimer (s : State) (n since : Nat) : Nat := since + 400000 * auxField s n (AUX_CFG_INRUSH_T n) + auxHeld s n

theorem windowCounted_drive : (windowCounted n s).drive = s.drive := by
  simp only [windowCounted]; (repeat' split) <;> simp

theorem inrushEnd_early {since : Nat} (hin : (auxAt s n).inrush = some since) (hbound : boundReached s n = false)
    (htimer : s.cyc < windowTimer s n since) : inrushEnd n s = s := by
  simp only [windowTimer] at htimer
  simp [inrushEnd, hin, hbound, htimer]

theorem inrushEnd_over {since : Nat} (hin : (auxAt s n).inrush = some since) (hw : s.drive.waiters = [])
    (hover : boundReached s n = true ∨ windowTimer s n since ≤ s.cyc) : inrushEnd n s = closeWindow n (windowCounted n s) := by
  have hnot : ¬(!boundReached s n ∧ s.cyc < since + 400000 * auxField s n (AUX_CFG_INRUSH_T n) + auxHeld s n) := by
    simp only [windowTimer] at hover
    rintro ⟨hb, ht⟩
    rcases hover with h | h
    · simp [h] at hb
    · omega
  simp only [inrushEnd, hin, if_neg hnot]
  exact serveWaiters_of_none (by rw [wrB_drive, onAux_waiters, ← windowCounted, windowCounted_drive, hw])

section
variable (hsw : s.sw = [])
include hsw

theorem rd_windowCounted_ends : rd (windowCounted n s) (AUX_COUNT_I2T_ENDS n) =
    if boundReached s n then min (AUX_COUNT_I2T_ENDS n).max (rd s (AUX_COUNT_I2T_ENDS n) + 1) else rd s (AUX_COUNT_I2T_ENDS n) := by
  have hends : rd (if boundReached s n then count (AUX_COUNT_I2T_ENDS n) 1 s else s) (AUX_COUNT_I2T_ENDS n) =
      if boundReached s n then min (AUX_COUNT_I2T_ENDS n).max (rd s (AUX_COUNT_I2T_ENDS n) + 1) else rd s (AUX_COUNT_I2T_ENDS n) := by
    split
    · exact rd_count_self _ _ (by simp [hsw])
    · rfl
  simp only [windowCounted]
  split
  · exact hends
  · rw [rd_count_ne _ _ (by simp [auxCountKeys])]
    · exact hends
    · split <;> simp [hsw]

theorem onlyRegs_windowCounted {u : State} {l : List Nat} (h : OnlyRegs u s l) (hl : AUX_COUNT n ∈ l) :
    OnlyRegs u (windowCounted n s) l := by
  have hends : OnlyRegs u (if boundReached s n then count (AUX_COUNT_I2T_ENDS n) 1 s else s) l := by
    split
    · exact h.count _ hsw (by simpa [auxRegisters])
    · exact h
  simp only [windowCounted]
  split
  · exact hends
  · refine hends.count _ ?_ (by simpa [auxRegisters])
    split <;> simp [hsw]

end

theorem isSet_closeWindow : isSet (closeWindow n s) (AUX_STAT_INRUSH n) = false :=
  isSet_wrB_self _ _ (by simp [AUX_STAT_INRUSH])

theorem onlyRegs_closeWindow {u : State} {l : List Nat} (h : OnlyRegs u s l) (hl : AUX_STAT n ∈ l) :
    OnlyRegs u (closeWindow n s) l := by
  have hnone : OnlyRegs u (onAux n (fun x => { x with inrush := none }) s) l := h
  exact hnone.wrB _ (by simpa [auxRegisters])

theorem auxAt_closeWindow_self : (auxAt (closeWindow n s) n).inrush = none := by simp [closeWindow]

theorem auxAt_closeWindow_ne (h : k ≠ n) : auxAt (closeWindow n s) k = auxAt s k := by
  rw [closeWindow, auxAt_wrB, auxAt_onAux_ne _ h]

/-- R280, R285: an inrush window that its integral ends, one that its timer ends, and one that goes on. -/
theorem inrushWindows : Clauses.InrushWindows := by
  intro dt since n s hs hdt hin hw timer bound ends
  have hsw : (tick dt s).sw = [] := tick_sw (Nat.ne_of_gt hdt) s
  have hin' : (auxAt (tick dt s) n).inrush = some since := by rw [auxAt_tick, hin]
  have htimer : windowTimer (tick dt s) n since = timer := by simp [windowTimer, auxHeld, timer]
  have hbound : boundReached (tick dt s) n = decide bound := by simp [boundReached, bound]
  have hends : ends (closeWindow n (windowCounted n (tick dt s))) := by
    refine ⟨isSet_closeWindow, auxAt_closeWindow_self, ?_, fun k hk => ?_⟩
    · exact onlyRegs_closeWindow (onlyRegs_windowCounted hsw (.of_regs (tick_regs s dt) _) (by simp)) (by simp)
    · rw [auxAt_closeWindow_ne hk, auxAt, windowCounted_drive, ← auxAt, auxAt_tick]
  have hcount : rd (closeWindow n (windowCounted n (tick dt s))) (AUX_COUNT_I2T_ENDS n) =
      if boundReached (tick dt s) n then min (AUX_COUNT_I2T_ENDS n).max (rd s (AUX_COUNT_I2T_ENDS n) + 1)
      else rd s (AUX_COUNT_I2T_ENDS n) := by
    rw [closeWindow, rd_wrB_ne _ _ (by simp only [auxStatKeys, auxCountKeys]; omega), rd_onAux, rd_windowCounted_ends hsw, rd_tick]
  have hover (h : bound ∨ timer ≤ s.cyc + dt) :
      inrushEnd n (tick dt s) = closeWindow n (windowCounted n (tick dt s)) := by
    refine inrushEnd_over hin' (by rw [tick_drive, hw]) ?_
    rwa [hbound, decide_eq_true_eq, htimer, tick_cyc]
  refine ⟨fun hb => ?integral, fun hb ht => ?timer, fun hb ht => ?early⟩
  case integral =>
    refine ⟨_, exec_inrushEnd hs [], ?_⟩
    rw [auxMeasure_nil, hover (.inl hb)]
    exact ⟨hends, by rw [hcount, hbound, if_pos (decide_eq_true hb)]⟩
  case timer =>
    refine ⟨_, exec_inrushEnd hs [], ?_⟩
    rw [auxMeasure_nil, hover (.inr ht)]
    exact ⟨hends, by rw [hcount, hbound, if_neg (by rwa [decide_eq_true_eq])]⟩
  case early =>
    rw [exec_inrushEnd hs, auxMeasure_nil, inrushEnd_early hin' (by rw [hbound, decide_eq_false hb]) (by rwa [htimer, tick_cyc])]

end Sys2Proof.Machine
end

section
namespace Sys2Proof.Machine
variable {s : State} {f : Fld} {n k : Nat}

/-! ### A tripped output, reported and off (R283) -/

theorem reportedOff_sw (hw : s.drive.waiters = []) (hsw : s.sw = []) (reason : Nat) :
    (auxSwitchOff n (auxReport n reason s)).sw = [] := by
  rw [auxSwitchOff_sw (by rwa [auxReport_drive]), auxReport_sw, hsw]

theorem onlyRegs_reportedOff {u : State} {l : List Nat} (hw : s.drive.waiters = []) (reason : Nat) (h : OnlyRegs u s l)
    (hl : AUX_STAT n ∈ l) : OnlyRegs u (auxSwitchOff n (auxReport n reason s)) l := by
  have hreport : OnlyRegs u (auxReport n reason s) l := fun g hg => (rd_auxReport _).trans (h g hg)
  exact onlyRegs_auxSwitchOff (by rwa [auxReport_drive]) hreport hl

/-! ### A short (R282 to R284) -/

/-- A trip of an output whose latch was set in cycle `since`, or may not be released by a retry (`none`). -/
def auxTripped (since : Option Nat) (x : Aux) : Aux := { x with latchedAt := since, tripped := true, cleanRun := 0 }

/-- Output `n` is reported, off, counted as shorted, and latched. -/
def shortLatched (n : Nat) (s : State) : State :=
  flag (AUX_STAT_LATCH n) (wr (AUX_STAT_CAUSE n) 1 (count (AUX_COUNT_SHORTS n) 1 (auxSwitchOff n (auxReport n 0x2D s))))

/-- The faults of a short on output `n` that had `left` retries. -/
def raiseShort (n left : Nat) (s : State) : State :=
  let s := raise 0x0540 (0x40 + n) (wd (0x2D * 2 ^ 24 + left * 2 ^ 16)) (actEvent + actOff + actLatch) s
  if left = 0 then raise 0x0541 (0x40 + n) (wd (0x2D * 2 ^ 24)) actLatch s else s

@[simp] theorem rd_raiseShort (left : Nat) : rd (raiseShort n left s) f = rd s f := by simp only [raiseShort]; split <;> rfl
@[simp] theorem isSet_raiseShort (left : Nat) : isSet (raiseShort n left s) f = isSet s f := by rw [isSet, rd_raiseShort, isSet]
@[simp] theorem auxAt_raiseShort (left : Nat) : auxAt (raiseShort n left s) k = auxAt s k := by
  simp only [raiseShort]; split <;> rfl

theorem detects_raiseShort (left : Nat) : Detects (raiseShort n left s) (if left = 0 then 0x0541 else 0x0540) := by
  simp only [raiseShort]; split <;> exact detects_raise ..

theorem auxShort_of_shorted (hon : isSet s (AUX_STAT_ON n) = true) (hshort : shorted s n = true) :
    auxShort n s = raiseShort n (rd s (AUX_STAT_RETRIES_LEFT n))
      (onAux n (auxTripped (if rd s (AUX_STAT_RETRIES_LEFT n) = 0 then none else some (shortLatched n s).cyc)) (shortLatched n s)) := by
  simp only [auxShort, hon, hshort, Bool.not_true, Bool.false_eq_true, or_self, if_false]
  rfl

theorem rd_shortLatched_cause : rd (shortLatched n s) (AUX_STAT_CAUSE n) = 1 := by
  rw [shortLatched, rd_flag_ne _ (by simp [auxStatKeys]), rd_wr_lt _ (by simp [AUX_STAT_CAUSE])]

section
variable (hw : s.drive.waiters = []) (hsw : s.sw = [])
include hw

theorem shortLatched_cyc : (shortLatched n s).cyc = s.cyc := by
  rw [shortLatched, flag_cyc, wr_cyc, count_cyc, auxSwitchOff_cyc (by rwa [auxReport_drive]), auxReport_cyc]

include hsw

theorem isSet_shortLatched_on : isSet (shortLatched n s) (AUX_STAT_ON n) = false := by
  rw [shortLatched, isSet_flag_ne _ (by simp [auxStatKeys]), isSet_wr_ne _ _ (by simp [auxStatKeys]), isSet,
    rd_count_ne _ (reportedOff_sw hw hsw _) (by simp only [auxStatKeys, auxCountKeys]; omega), ← isSet,
    isSet_auxSwitchOff_on (by rwa [auxReport_drive])]

theorem rd_shortLatched_shorts :
    rd (shortLatched n s) (AUX_COUNT_SHORTS n) = min (AUX_COUNT_SHORTS n).max (rd s (AUX_COUNT_SHORTS n) + 1) := by
  rw [shortLatched, rd_flag_ne _ (by simp only [auxStatKeys, auxCountKeys]; omega),
    rd_wr_ne _ _ (by simp only [auxStatKeys, auxCountKeys]; omega), rd_count_self _ _ (by simp [reportedOff_sw hw hsw]),
    rd_auxSwitchOff_ne (by rwa [auxReport_drive]), rd_auxReport] <;> simp only [auxStatKeys, auxCountKeys] <;> omega

theorem onlyRegs_shortLatched {u : State} {l : List Nat} (h : OnlyRegs u s l) (hstat : AUX_STAT n ∈ l) (hcount : AUX_COUNT n ∈ l) :
    OnlyRegs u (shortLatched n s) l := by
  have hoff := onlyRegs_reportedOff (n := n) hw 0x2D h hstat
  exact ((hoff.count _ (reportedOff_sw hw hsw _) (by simpa [auxRegisters])).wr _ (by simpa [auxRegisters])).flag (by simpa [auxRegisters])

end

theorem exec_auxShort {dt : Nat} {n : Fin 16} (hs : steady dt s = true) (l : List AuxRun) :
    exec (.auxShort dt n l) s = .next (auxShort n (auxMeasure l (tick dt s))) :=
  event_steady hs fun u => auxShort n (auxMeasure l u)

/-- Either criterion of R282 that has stood for 10 µs makes a short. -/
theorem shorted_of_since {since : Nat} (h : (auxAt s n).limitSince = some since ∨ (auxAt s n).lowSince = some since)
    (hlast : since + 4000 ≤ s.cyc) : shorted s n = true := by
  rcases h with h | h <;> simp [shorted, h, lasted_some hlast]

/-- R282 to R284: a short on an output that conducts. -/
theorem auxiliaryShorts : Clauses.AuxiliaryShorts := by
  intro dt since n s hs hdt hon hw hsince hlast
  have hsw : (tick dt s).sw = [] := tick_sw (Nat.ne_of_gt hdt) s
  have hw' : (tick dt s).drive.waiters = [] := by rw [tick_drive, hw]
  have hshort : shorted (tick dt s) n = true := shorted_of_since (by rwa [auxAt_tick]) (by rwa [tick_cyc])
  refine ⟨_, exec_auxShort hs [], ?_⟩
  rw [auxMeasure_nil, auxShort_of_shorted (by rwa [isSet_tick]) hshort, rd_tick]
  refine ⟨?off, ?latch, ?cause, ?count, detects_raiseShort _, ?regs, fun hleft => ?since⟩
  case off => rw [isSet_raiseShort, isSet_onAux, isSet_shortLatched_on hw' hsw]
  case latch => rw [isSet_raiseShort, isSet_onAux, shortLatched, isSet_flag_self _ (by simp [AUX_STAT_LATCH])]
  case cause => rw [rd_raiseShort, rd_onAux, rd_shortLatched_cause]
  case count => rw [rd_raiseShort, rd_onAux, rd_shortLatched_shorts hw' hsw, rd_tick]
  case regs =>
    intro g hg
    rw [rd_raiseShort, rd_onAux]
    exact onlyRegs_shortLatched hw' hsw (.of_regs (tick_regs s dt) _) (by simp) (by simp) g hg
  case since => rw [auxAt_raiseShort, auxAt_onAux_self, auxTripped, if_neg hleft, shortLatched_cyc hw', tick_cyc]

/-! ### Open loads and back-feed (R286, R287) -/

/-- Output `n` is shown open. -/
theorem auxOpen_told (hidle : lasted s 800000 (auxAt s n).idleSince = true) (htold : (auxAt s n).openTold = true) :
    auxOpen n s = flag (AUX_STAT_OPEN n) s := by simp [auxOpen, hidle, htold]

/-- Output `n` is shown open, and its fault told. -/
theorem auxOpen_untold (hidle : lasted s 800000 (auxAt s n).idleSince = true) (htold : (auxAt s n).openTold = false) :
    auxOpen n s = raise 0x0544 (0x40 + n) 0 0 (onAux n (fun x => { x with openTold := true }) (flag (AUX_STAT_OPEN n) s)) := by
  simp [auxOpen, hidle, htold]

theorem exec_auxOpenLoad {dt : Nat} {n : Fin 16} (hs : steady dt s = true) (l : List AuxRun) :
    exec (.auxOpenLoad dt n l) s = .next (auxOpen n (auxMeasure l (tick dt s))) :=
  event_steady hs fun u => auxOpen n (auxMeasure l u)

theorem auxBackfeed_of_fed (hdrive : driving s = true) (hoff : isSet s (AUX_STAT_ON n) = false)
    (hrested : (auxAt s n).offAt.elim 0 (fun t => t + 400000) ≤ s.cyc) (hback : lasted s 400000 (auxAt s n).backSince = true) :
    auxBackfeed n s = raise 0x0545 (0x40 + n) 0 0 (flag (AUX_STAT_BAT n) s) := by
  cases hat : (auxAt s n).offAt with
  | none => simp [auxBackfeed, hdrive, hoff, hback, hat]
  | some t =>
    rw [hat] at hrested
    simp only [Option.elim_some] at hrested
    simp [auxBackfeed, hdrive, hoff, hback, hat, hrested]

theorem exec_auxBackfeed {dt : Nat} {n : Fin 16} (hs : steady dt s = true) (l : List AuxRun) :
    exec (.auxBackfeed dt n l) s = .next (auxBackfeed n (auxMeasure l (tick dt s))) :=
  event_steady hs fun u => auxBackfeed n (auxMeasure l u)

/-- R286, R287: an open load, and an output that is back-fed while off. -/
theorem auxiliaryLoads : Clauses.AuxiliaryLoads := by
  intro dt since n s hs
  have hregs (l : List Nat) : OnlyRegs s (tick dt s) l := .of_regs (tick_regs s dt) _
  refine ⟨fun hidle hlast => ?openLoad, fun hoff hdrive hrested hback hlast => ?backfeed⟩
  case openLoad =>
    have hidle' : lasted (tick dt s) 800000 (auxAt (tick dt s) n).idleSince = true := by
      rw [auxAt_tick, hidle]
      exact lasted_some (by rwa [tick_cyc])
    have hset : isSet (flag (AUX_STAT_OPEN n) (tick dt s)) (AUX_STAT_OPEN n) = true := isSet_flag_self _ (by simp [AUX_STAT_OPEN])
    have honly : OnlyRegs s (flag (AUX_STAT_OPEN n) (tick dt s)) [AUX_STAT n] := (hregs _).flag (by simp [auxRegisters])
    refine ⟨_, exec_auxOpenLoad hs [], ?_⟩
    rw [auxMeasure_nil]
    cases htold : (auxAt s n).openTold with
    | true =>
      rw [auxOpen_told hidle' (by rwa [auxAt_tick])]
      exact ⟨hset, honly, by rwa [auxAt_flag, auxAt_tick], nofun, fun _ => by rw [flag_faults, tick_faults]⟩
    | false =>
      rw [auxOpen_untold hidle' (by rwa [auxAt_tick])]
      exact ⟨hset, honly, by rw [auxAt_raise, auxAt_onAux_self], fun _ => detects_raise .., nofun⟩
  case backfeed =>
    have hback' : lasted (tick dt s) 400000 (auxAt (tick dt s) n).backSince = true := by
      rw [auxAt_tick, hback]
      exact lasted_some (by rwa [tick_cyc])
    refine ⟨_, exec_auxBackfeed hs [], ?_⟩
    rw [auxMeasure_nil, auxBackfeed_of_fed (by rwa [driving_tick]) (by rwa [isSet_tick]) (by rwa [auxAt_tick, tick_cyc]) hback']
    refine ⟨isSet_flag_self _ (by simp [AUX_STAT_BAT]), detects_raise .., ?_, by rw [raise_drive, flag_drive, tick_drive]⟩
    exact (hregs _).flag (f := AUX_STAT_BAT n) (by simp [auxRegisters])

/-! ### Thermal shutdown (R288) -/

/-- Output `n` is reported, off, shown hot, and the shutdown counted. -/
def thermalOff (n : Nat) (s : State) : State :=
  count (AUX_COUNT_THERMAL n) 1 (wrB (AUX_STAT_HOT n) true (auxSwitchOff n (auxReport n 0x2E s)))

/-- A shutdown counts in the lane-ON interval. -/
def auxHeated (x : Aux) : Aux :=
  { x with thermal := if x.lane then x.thermal + 1 else x.thermal, tripped := true, cleanRun := 0 }

/-- `F_0542` of output `n`, which has `left` retries, unless it was raised within the last second. -/
def tellThermal (n left : Nat) (s : State) : State :=
  let told : Bool := (auxAt s n).f0542At.elim false fun t => decide (s.cyc < t + secondCycles)
  if told then s
  else raise 0x0542 (0x40 + n) (wd (0x2E * 2 ^ 24 + left * 2 ^ 16)) (actEvent + actOff)
    (onAux n (fun x => { x with f0542At := some s.cyc }) s)

/-- The ninth shutdown latches output `n`, with no retry. -/
def lockThermal (n left : Nat) (s : State) : State :=
  raise 0x0543 (0x40 + n) (wd (0x2E * 2 ^ 24 + left * 2 ^ 16)) (actOff + actLatch)
    (wr (AUX_STAT_CAUSE n) 2 (flag (AUX_STAT_LATCH n) (onAux n (fun x => { x with latchedAt := none }) s)))

/-- Output `n` after a shutdown that is told, and that latches nothing. -/
def thermalTold (n : Nat) (s : State) : State :=
  tellThermal n (rd s (AUX_STAT_RETRIES_LEFT n)) (onAux n auxHeated (thermalOff n s))

theorem auxShutdown_eq : auxShutdown n s =
    if (auxAt (thermalTold n s) n).lane ∧ (auxAt (thermalTold n s) n).thermal = 9 then
      lockThermal n (rd s (AUX_STAT_RETRIES_LEFT n)) (thermalTold n s)
    else thermalTold n s := by
  unfold auxShutdown
  extract_lets left off counted hot told u
  have hhot : hot = onAux n auxHeated (thermalOff n s) := rfl
  have htold : told = (auxAt hot n).f0542At.elim false fun t => decide (hot.cyc < t + secondCycles) := by
    simp only [told]
    split
    next t hat => rw [hat, Option.elim_some]
    next hat => rw [hat, Option.elim_none]
  have hu : u = thermalTold n s := by simp only [u, htold, thermalTold, tellThermal, ← hhot, left]
  rw [← hu, lockThermal]

theorem auxThermal_above {t : Nat} (ht : 234 < t) (hhot : isSet s (AUX_STAT_HOT n) = false) :
    auxThermal n t s = auxShutdown n (wr (AUX_STAT_TEMP n) t s) := by
  have hhot' : isSet (wr (AUX_STAT_TEMP n) t s) (AUX_STAT_HOT n) = false := by rwa [isSet_wr_ne _ _ (by simp [auxStatKeys])]
  simp [auxThermal, ht, hhot']

@[simp] theorem rd_tellThermal (left : Nat) : rd (tellThermal n left s) f = rd s f := by
  simp only [tellThermal]; split <;> rfl

/-- The fault's memory aside, telling a shutdown leaves the output. -/
theorem auxAt_tellThermal_keeps {β : Type} {p : Aux → β} (hp : ∀ x v, p { x with f0542At := v } = p x) (left : Nat) :
    p (auxAt (tellThermal n left s) n) = p (auxAt s n) := by
  simp only [tellThermal]
  split
  · rfl
  · rw [auxAt_raise, auxAt_onAux_self, hp]

theorem rd_thermalTold : rd (thermalTold n s) f = rd (thermalOff n s) f := by rw [thermalTold, rd_tellThermal, rd_onAux]

theorem rd_lockThermal_ne (left : Nat) (hcause : f.key ≠ (AUX_STAT_CAUSE n).key) (hlatch : f.key ≠ (AUX_STAT_LATCH n).key) :
    rd (lockThermal n left s) f = rd s f := by
  rw [lockThermal, rd_raise, rd_wr_ne _ _ hcause, rd_flag_ne _ hlatch, rd_onAux]

theorem auxAt_lockThermal_thermal (left : Nat) : (auxAt (lockThermal n left s) n).thermal = (auxAt s n).thermal := by
  simp [lockThermal]

theorem lockThermal_latches (left : Nat) : isSet (lockThermal n left s) (AUX_STAT_LATCH n) = true ∧
    rd (lockThermal n left s) (AUX_STAT_CAUSE n) = 2 ∧ Detects (lockThermal n left s) 0x0543 := by
  refine ⟨?_, ?_, detects_raise ..⟩
  · rw [lockThermal, isSet_raise, isSet_wr_ne _ _ (by simp [auxStatKeys]), isSet_flag_self _ (by simp [AUX_STAT_LATCH])]
  · rw [lockThermal, rd_raise, rd_wr_lt _ (by simp [AUX_STAT_CAUSE])]

theorem onlyRegs_lockThermal {u : State} {l : List Nat} (left : Nat) (h : OnlyRegs u s l) (hl : AUX_STAT n ∈ l) :
    OnlyRegs u (lockThermal n left s) l := by
  have hclear : OnlyRegs u (onAux n (fun x => { x with latchedAt := none }) s) l := h
  intro g hg
  rw [lockThermal, rd_raise]
  exact (hclear.flag (by simpa [auxRegisters])).wr _ (by simpa [auxRegisters]) g hg

section
variable (hw : s.drive.waiters = [])
include hw

/-- A shutdown keeps the lane, and counts in its interval. -/
theorem auxAt_thermalTold : (auxAt (thermalTold n s) n).lane = (auxAt s n).lane ∧
    (auxAt (thermalTold n s) n).thermal = if (auxAt s n).lane then (auxAt s n).thermal + 1 else (auxAt s n).thermal := by
  have hoff : auxAt (thermalOff n s) n = auxRests (isSet (auxReport n 0x2E s) (AUX_STAT_ON n)) s.cyc (auxAt s n) := by
    rw [thermalOff, auxAt_count, auxAt_wrB, auxAt_auxSwitchOff (by rwa [auxReport_drive]), auxReport_cyc, auxAt_auxReport]
  constructor
  · rw [thermalTold, auxAt_tellThermal_keeps (p := Aux.lane) fun _ _ => rfl, auxAt_onAux_self, hoff]
    rfl
  · rw [thermalTold, auxAt_tellThermal_keeps (p := Aux.thermal) fun _ _ => rfl, auxAt_onAux_self, hoff]
    rfl

variable (hsw : s.sw = [])
include hsw

theorem rd_thermalOff_temp : rd (thermalOff n s) (AUX_STAT_TEMP n) = rd s (AUX_STAT_TEMP n) := by
  rw [thermalOff, rd_count_ne _ (by rw [wrB_sw, reportedOff_sw hw hsw]) (by simp only [auxStatKeys, auxCountKeys]; omega),
    rd_wrB_ne _ _ (by simp [auxStatKeys]), rd_auxSwitchOff_ne (by rwa [auxReport_drive]), rd_auxReport] <;> simp [auxStatKeys]

theorem isSet_thermalOff_hot : isSet (thermalOff n s) (AUX_STAT_HOT n) = true := by
  rw [thermalOff, isSet, rd_count_ne _ (by rw [wrB_sw, reportedOff_sw hw hsw]) (by simp only [auxStatKeys, auxCountKeys]; omega), ← isSet,
    isSet_wrB_self _ _ (by simp [AUX_STAT_HOT])]

theorem isSet_thermalOff_on : isSet (thermalOff n s) (AUX_STAT_ON n) = false := by
  rw [thermalOff, isSet, rd_count_ne _ (by rw [wrB_sw, reportedOff_sw hw hsw]) (by simp only [auxStatKeys, auxCountKeys]; omega), ← isSet,
    isSet_wrB_ne _ _ (by simp [auxStatKeys]), isSet_auxSwitchOff_on (by rwa [auxReport_drive])]

theorem rd_thermalOff_count :
    rd (thermalOff n s) (AUX_COUNT_THERMAL n) = min (AUX_COUNT_THERMAL n).max (rd s (AUX_COUNT_THERMAL n) + 1) := by
  rw [thermalOff, rd_count_self _ _ (by simp [reportedOff_sw hw hsw]), rd_wrB_ne _ _ (by simp only [auxStatKeys, auxCountKeys]; omega),
    rd_auxSwitchOff_ne (by rwa [auxReport_drive]), rd_auxReport] <;> simp only [auxStatKeys, auxCountKeys] <;> omega

theorem onlyRegs_thermalOff {u : State} {l : List Nat} (h : OnlyRegs u s l) (hstat : AUX_STAT n ∈ l) (hcount : AUX_COUNT n ∈ l) :
    OnlyRegs u (thermalOff n s) l := by
  have hoff := onlyRegs_reportedOff (n := n) hw 0x2E h hstat
  exact (hoff.wrB _ (by simpa [auxRegisters])).count _ (by rw [wrB_sw, reportedOff_sw hw hsw]) (by simpa [auxRegisters])

end

/-- A shutdown shows, beside `LATCH` and `CAUSE`, what the output shows once it is off. -/
theorem rd_auxShutdown (hcause : f.key ≠ (AUX_STAT_CAUSE n).key) (hlatch : f.key ≠ (AUX_STAT_LATCH n).key) :
    rd (auxShutdown n s) f = rd (thermalOff n s) f := by
  rw [auxShutdown_eq]
  split
  · rw [rd_lockThermal_ne _ hcause hlatch, rd_thermalTold]
  · exact rd_thermalTold

theorem auxAt_auxShutdown_thermal : (auxAt (auxShutdown n s) n).thermal = (auxAt (thermalTold n s) n).thermal := by
  rw [auxShutdown_eq]
  split
  · exact auxAt_lockThermal_thermal _
  · rfl

theorem onlyRegs_auxShutdown {u : State} {l : List Nat} (h : OnlyRegs u (thermalOff n s) l) (hl : AUX_STAT n ∈ l) :
    OnlyRegs u (auxShutdown n s) l := by
  have htold : OnlyRegs u (thermalTold n s) l := fun g hg => rd_thermalTold.trans (h g hg)
  rw [auxShutdown_eq]
  split
  · exact onlyRegs_lockThermal _ htold hl
  · exact htold

theorem exec_auxThermal {dt : Nat} {n : Fin 16} (hs : steady dt s = true) (x : BitVec 8) :
    exec (.auxThermal dt n x) s = .next (auxThermal n x.toNat (tick dt s)) :=
  event_steady hs (auxThermal n x.toNat)

/-- R288: an output above 170 °C. -/
theorem auxiliaryTemperatures : Clauses.AuxiliaryTemperatures := by
  intro dt n x s hs hdt hx hhot hw y
  let u := wr (AUX_STAT_TEMP n) x.toNat (tick dt s)
  have hsw' : u.sw = [] := tick_sw (Nat.ne_of_gt hdt) s
  have hw' : u.drive.waiters = [] := by rw [wr_drive, tick_drive, hw]
  have hhot' : isSet (tick dt s) (AUX_STAT_HOT n) = false := by rwa [isSet_tick]
  have hy : auxAt u n = y := by rw [auxAt_wr, auxAt_tick]
  have hregs : OnlyRegs s u [AUX_STAT n, AUX_COUNT n] := (OnlyRegs.of_regs (tick_regs s dt) _).wr _ (by simp [auxRegisters])
  obtain ⟨hlane, hthermal⟩ := auxAt_thermalTold (n := n) hw'
  rw [hy] at hlane hthermal
  refine ⟨_, exec_auxThermal hs x, ?_⟩
  rw [auxThermal_above hx hhot']
  refine ⟨?temp, ?hot, ?off, auxAt_auxShutdown_thermal.trans hthermal, ?count,
    onlyRegs_auxShutdown (onlyRegs_thermalOff hw' hsw' hregs (by simp) (by simp)) (by simp), fun hon h8 => ?lock⟩
  case temp =>
    rw [rd_auxShutdown (by simp [auxStatKeys]) (by simp [auxStatKeys]), rd_thermalOff_temp hw' hsw']
    exact rd_wr_lt _ x.isLt
  case hot => rw [isSet, rd_auxShutdown (by simp [auxStatKeys]) (by simp [auxStatKeys]), ← isSet, isSet_thermalOff_hot hw' hsw']
  case off => rw [isSet, rd_auxShutdown (by simp [auxStatKeys]) (by simp [auxStatKeys]), ← isSet, isSet_thermalOff_on hw' hsw']
  case count =>
    rw [rd_auxShutdown, rd_thermalOff_count hw' hsw', rd_wr_ne, rd_tick] <;> simp only [auxStatKeys, auxCountKeys] <;> omega
  case lock =>
    rw [auxShutdown_eq, if_pos ⟨hlane.trans hon, by rw [hthermal, if_pos hon, h8]⟩]
    exact lockThermal_latches _

/-! ### The obligation -/

/-- Settles O27: a clause each for measurements, inrush windows, shorts, loads and temperatures (auxiliary R277 to R288). -/
theorem auxiliaryOutputs : Obligations.AuxiliaryOutputs :=
  ⟨auxiliaryMeasurements, inrushWindows, auxiliaryShorts, auxiliaryLoads, auxiliaryTemperatures⟩

end Sys2Proof.Machine
end

section
namespace Sys2Proof.Machine
variable {s t u : State} {f : Fld} {b n : Nat}

/-! ### What a change spares of what the pairing rests on -/

/-- From `s` to `t` pairing beyond its registers, the cycle, the record of software's writes in it, the faults detected and the fields
below key `b` stay. -/
structure Spares (b : Nat) (s t : State) : Prop where
  tie : t.tie = s.tie
  cyc : t.cyc = s.cyc
  sw : t.sw = s.sw
  faults : t.faults = s.faults
  rd : ∀ f : Fld, f.key < b → rd t f = rd s f

theorem Spares.refl (b : Nat) (s : State) : Spares b s s := ⟨rfl, rfl, rfl, rfl, fun _ _ => rfl⟩

theorem Spares.trans (h : Spares b s t) (k : Spares b t u) : Spares b s u :=
  ⟨k.tie.trans h.tie, k.cyc.trans h.cyc, k.sw.trans h.sw, k.faults.trans h.faults, fun f hf => (k.rd f hf).trans (h.rd f hf)⟩

theorem Spares.wr (h : Spares b s t) (v : Nat) (hf : b ≤ f.key) : Spares b s (wr f v t) :=
  ⟨h.tie, h.cyc, h.sw, h.faults, fun g hg => (rd_wr_ne v t (by omega)).trans (h.rd g hg)⟩

theorem Spares.wrB (h : Spares b s t) (v : Bool) (hf : b ≤ f.key) : Spares b s (wrB f v t) := h.wr _ hf

theorem Spares.drive (h : Spares b s t) (d : Drive) : Spares b s { t with drive := d } := ⟨h.tie, h.cyc, h.sw, h.faults, h.rd⟩

theorem Spares.foldl {α : Type} {g : State → α → State} (h : ∀ u a, Spares b u (g u a)) (l : List α) (s : State) :
    Spares b s (l.foldl g s) := by
  induction l generalizing s with
  | nil => exact .refl b s
  | cons a l ih => exact (h s a).trans (ih _)

/-- From `s` to `t` the module tells the outside: the drive die and every field below the acquisition registers, the first of which has
key 163840, stay as well. -/
structure Tells (s t : State) : Prop extends Spares 163840 s t where
  drive : t.drive = s.drive

theorem Tells.refl (s : State) : Tells s s := ⟨.refl _ s, rfl⟩

theorem Tells.trans (h : Tells s t) (k : Tells t u) : Tells s u := ⟨h.toSpares.trans k.toSpares, k.drive.trans h.drive⟩

theorem Tells.wr (h : Tells s t) (v : Nat) (hf : 163840 ≤ f.key) : Tells s (wr f v t) := ⟨h.toSpares.wr v hf, h.drive⟩

theorem Tells.foldl {α : Type} {g : State → α → State} (h : ∀ u a, Tells u (g u a)) (l : List α) (s : State) :
    Tells s (l.foldl g s) := by
  induction l generalizing s with
  | nil => exact .refl s
  | cons a l ih => exact (h s a).trans (ih _)

theorem tells_out (o : List Out) (s : State) : Tells s { s with out := o } := ⟨⟨rfl, rfl, rfl, rfl, fun _ _ => rfl⟩, rfl⟩
theorem tells_intc (x : Intc) (s : State) : Tells s { s with intc := x } := ⟨⟨rfl, rfl, rfl, rfl, fun _ _ => rfl⟩, rfl⟩
theorem tells_host (x : HostLink) (s : State) : Tells s { s with host := x } := ⟨⟨rfl, rfl, rfl, rfl, fun _ _ => rfl⟩, rfl⟩
theorem tells_periph (x : Periph) (s : State) : Tells s { s with periph := x } := ⟨⟨rfl, rfl, rfl, rfl, fun _ _ => rfl⟩, rfl⟩
theorem tells_pulse (x : Pulse) (s : State) : Tells s { s with pulse := x } := ⟨⟨rfl, rfl, rfl, rfl, fun _ _ => rfl⟩, rfl⟩

/-! ### Interrupts and vectors -/

theorem pendCount_key (g : Nat) : 163840 ≤ (INTC_GRP_PEND_COUNT g).key := by
  simp only [Fld.key, INTC_GRP_PEND_COUNT, INTC_GRP, intcBase]; omega

theorem pba_key (c : Nat) : 163840 ≤ (CLI_MSIX_PBA_PEND c).key := by
  simp only [Fld.key, CLI_MSIX_PBA_PEND, CLI_MSIX_PBA, clientBase]; omega

theorem tells_groupEvent (k : Nat) (s : State) : Tells s (groupEvent k s) := (tells_intc _ s).wr _ (pendCount_key _)

theorem tells_closeGroup (g : Nat) (s : State) : Tells s (closeGroup g s) := by
  unfold closeGroup
  split
  · exact .refl s
  · exact (tells_intc _ s).wr _ (pendCount_key g)

theorem tells_leaveDoze (s : State) : Tells s (leaveDoze s) := by
  unfold leaveDoze
  split
  · exact (Tells.refl s).wr _ (by decide)
  · exact .refl s

theorem tells_setSrc (k : Nat) (x : IntSrc) (s : State) : Tells s (setSrc k x s) := tells_intc _ s

theorem tells_requestRises (k : Nat) (s : State) : Tells s (requestRises k s) := by
  unfold requestRises
  extract_lets x p s'
  split
  case isTrue =>
    split
    · exact (tells_setSrc _ _ s).trans (tells_groupEvent _ _)
    · exact tells_setSrc _ _ s
  case isFalse =>
    split
    · exact ((tells_setSrc _ _ s).trans (tells_groupEvent _ _)).trans (tells_closeGroup _ _)
    · exact tells_setSrc _ _ s

theorem tells_intRaise (k : Nat) (s : State) : Tells s (intRaise k s) := by
  unfold intRaise
  extract_lets t
  split
  · exact (tells_requestRises k s).trans (tells_leaveDoze _)
  · exact tells_requestRises k s

theorem tells_intPulse (k : Nat) (s : State) : Tells s (intPulse k s) :=
  (tells_intRaise k s).trans ((tells_setSrc _ _ _).trans (tells_closeGroup _ _))

theorem tells_msixSend (c v : Nat) (s : State) : Tells s (msixSend c v s) := by
  unfold msixSend
  split
  · exact (Tells.refl s).wr _ (pba_key c)
  · exact tells_out _ s

theorem tells_vector (c v : Nat) (s : State) : Tells s (vector c v s) := by
  unfold vector
  extract_lets k x
  split
  · exact (tells_host _ s).trans (tells_msixSend c v _)
  · exact tells_host _ s

theorem tells_vectorAll (v : Nat) (s : State) : Tells s (vectorAll v s) := .foldl (fun u c => tells_vector c v u) _ s

/-! ### The pins of the timing die -/

theorem tells_tioPads (outside : Nat) (s : State) : Tells s (tioPads outside s) := (Tells.refl s).wr _ (by decide)

theorem tells_pePads (n outside : Nat) (s : State) : Tells s (pePads n outside s) :=
  (Tells.refl s).wr _ (by simp only [Fld.key, PE_STAT_PIN_LEVEL, PE_STAT]; omega)

theorem tells_pinsRefresh (s : State) : Tells s (pinsRefresh s) := by
  have hpads := (tells_tioPads (rd s TMR_PIN_LEVEL) s).trans
    (.foldl (fun u n => tells_pePads n (rd u (PE_STAT_PIN_LEVEL n)) u) (List.range 8) _)
  unfold pinsRefresh
  extract_lets t
  split
  · exact hpads
  · refine hpads.trans (.foldl (fun u i => ?_) _ _)
    split
    · exact tells_periph _ u
    · exact .refl u

theorem tells_setPad (g : Nat) (level : Bool) (s : State) : Tells s (setPad g level s) := by
  unfold setPad
  split
  · exact .refl s
  · exact tells_pulse _ s

theorem tells_drivePins (s : State) : Tells s (drivePins s) :=
  (tells_pinsRefresh s).trans (.foldl (fun u g => tells_setPad g _ u) _ _)

/-! ### Outputs that go off (R291, R304): nothing below key 49152, that of the first drive register, changes -/

theorem spares_onChan (c : Nat) (g : Chan → Chan) (s : State) : Spares b s (onChan c g s) := (Spares.refl b s).drive _
theorem spares_onAux (g : Aux → Aux) (s : State) : Spares b s (onAux n g s) := (Spares.refl b s).drive _
theorem spares_onTrim (c : Nat) (g : Trim → Trim) (s : State) : Spares b s (onTrim c g s) := (Spares.refl b s).drive _

theorem spares_setWindow (k : Nat) (x : Option Window) (s : State) : Spares 49152 s (setWindow k x s) :=
  ((Spares.refl _ s).drive _).wr _ (by decide)

theorem spares_endExit (c : Nat) (taken : Bool) (s : State) : Spares 49152 s (endExit c taken s) := by
  unfold endExit
  extract_lets k x running closed
  have hclosed : Spares 49152 s closed := by
    dsimp only [closed]
    split
    · split
      · exact spares_setWindow _ _ s
      · exact .refl _ s
    · exact .refl _ s
  split
  · exact .refl _ s
  · exact hclosed.trans (spares_onTrim _ _ _)

theorem channelKeys (c : Nat) : 49152 ≤ (DRV_CH_STAT_ENERGISED c).key ∧ 49152 ≤ (DRV_CH_STAT_PHASE c).key ∧
    49152 ≤ (PRT_STAT_RETRIES_LEFT c).key := by
  simp only [Fld.key, DRV_CH_STAT_ENERGISED, DRV_CH_STAT_PHASE, PRT_STAT_RETRIES_LEFT, DRV_CH_STAT, PRT_STAT]
  omega

theorem spares_quench (c mode : Nat) (clean : Bool) (s : State) : Spares 49152 s (quench c mode clean s) := by
  obtain ⟨henergised, hphase, hretries⟩ := channelKeys c
  unfold quench
  split
  · exact .refl _ s
  · extract_lets n exited ended off
    have hoff : Spares 49152 s off :=
      (((spares_endExit c false s).trans (spares_onChan c _ _)).wrB _ henergised).wr _ hphase
    split
    · exact hoff.wr _ hretries
    · exact hoff

theorem auxSwitchKeys (n : Nat) : 49152 ≤ (AUX_STAT_ON n).key ∧ 49152 ≤ (AUX_STAT_INRUSH n).key ∧
    49152 ≤ (AUX_STAT_WAITING n).key ∧ 49152 ≤ (AUX_STAT_AT_LIMIT n).key := by
  simp only [auxStatKeys]
  omega

theorem spares_auxInrush (n : Nat) (s : State) : Spares 49152 s (auxInrush n s) := by
  obtain ⟨hon, hinrush, hwaiting, -⟩ := auxSwitchKeys n
  exact ((((spares_onAux _ s).trans (spares_onAux _ _)).wrB true hon).wrB true hinrush).wrB false hwaiting

theorem spares_serveWaiters (n : Nat) (s : State) : Spares 49152 s (serveWaiters n s) := by
  unfold serveWaiters
  split
  · split
    · exact ((Spares.refl _ s).drive _).trans (spares_auxInrush _ _)
    · exact .refl _ s
  · exact .refl _ s

theorem spares_auxSwitchOff (n : Nat) (s : State) : Spares 49152 s (auxSwitchOff n s) := by
  obtain ⟨hon, hinrush, hwaiting, hlimit⟩ := auxSwitchKeys n
  exact ((((((spares_onAux _ s).drive _).wrB false hwaiting).wrB false hinrush).wrB false hon).wrB false hlimit).trans
    (spares_serveWaiters n _)

theorem spares_outputsOff (s : State) : Spares 49152 s (outputsOff s) := by
  unfold outputsOff
  extract_lets quenched _ unserved
  have hquenched : Spares 49152 s quenched := .foldl (fun u c => (spares_quench c 3 true u).trans (spares_onChan c _ _)) _ s
  have hunserved : Spares 49152 s unserved := hquenched.drive _
  refine hunserved.trans (.foldl (fun u n => ?_) _ _)
  split
  · exact spares_auxSwitchOff n u
  · exact .refl _ u

end Sys2Proof.Machine
end

section
namespace Sys2Proof.Machine
variable {s : State} {f : Fld} {r : Nat}

/-! ### Changes of the pairing state -/

@[simp] theorem rd_onTie (g : Tie → Tie) : rd (onTie g s) f = rd s f := rfl
@[simp] theorem isSet_onTie (g : Tie → Tie) : isSet (onTie g s) f = isSet s f := rfl
@[simp] theorem role_onTie (g : Tie → Tie) : role (onTie g s) = role s := rfl
@[simp] theorem onTie_tie (g : Tie → Tie) : (onTie g s).tie = g s.tie := rfl
@[simp] theorem onTie_cyc (g : Tie → Tie) : (onTie g s).cyc = s.cyc := rfl
@[simp] theorem onTie_seq (g : Tie → Tie) : (onTie g s).seq = s.seq := rfl
@[simp] theorem role_tick (dt : Nat) : role (tick dt s) = role s := rd_tick dt s _
@[simp] theorem phased_tick (dt : Nat) : phased (tick dt s) = phased s := by simp [phased, syncState]
@[simp] theorem pairEligible_tick (dt : Nat) : pairEligible (tick dt s) = pairEligible s := by simp [pairEligible]
@[simp] theorem pairRefresh_tie (s : State) : (pairRefresh s).tie = s.tie := rfl

theorem rd_pairRefresh_ne (h : f.key ≠ PAIR_STATUS_ELIGIBLE.key) : rd (pairRefresh s) f = rd s f := rd_wrB_ne _ s h

@[simp] theorem role_pairRefresh (s : State) : role (pairRefresh s) = role s := rd_pairRefresh_ne (by decide)

theorem onlyRegs_onTie {u : State} {l : List Nat} (g : Tie → Tie) (h : OnlyRegs u s l) : OnlyRegs u (onTie g s) l := h

/-- A training takes `ENABLE` and `TIE_VER_MAX` over, and shows whether the module is eligible. -/
theorem takePairCfg_tie (s : State) :
    (takePairCfg s).tie = { s.tie with enable := isSet s PAIR_CFG_ENABLE, verMax := rd s PAIR_CFG_TIE_VER_MAX } := rfl

theorem rd_takePairCfg_ne (h : f.key ≠ PAIR_STATUS_ELIGIBLE.key) : rd (takePairCfg s) f = rd s f := rd_pairRefresh_ne h

theorem dropHandover_of_none (h : s.tie.handover = none) : dropHandover s = s := by simp [dropHandover, h]

/-! ### A change of role (R292, R308, R314) -/

/-- Pairing beyond its registers, after the role has become `r`. -/
def roleTie (r : Nat) (t : Tie) : Tie :=
  if r < 2 then { t with drove := true } else { t with listen := none, bmLow := none, bmFall := none }

/-- The role reads `r`, and every function and the management cores are told. -/
def roleTold (r : Nat) (s : State) : State := intPulse 375 (vectorAll 4 (flag PAIR_STATUS_ROLE_CHG (wr PAIR_STATUS_ROLE r s)))

/-- A module that takes a driving role has driven; one that takes another leaves the benchmark line alone. -/
def roleTaken (r : Nat) (s : State) : State :=
  if r < 2 then onTie (fun t => { t with drove := true }) s
  else wrB PAIR_STATUS_BM_HOLDER false (onTie (fun t => { t with listen := none, bmLow := none, bmFall := none }) s)

theorem roleTaken_tie (r : Nat) (s : State) : (roleTaken r s).tie = roleTie r s.tie := by
  unfold roleTaken roleTie
  split <;> rfl

theorem setRole_eq (h : role s ≠ r) : setRole r s = drivePins (pairRefresh (roleTaken r (roleTold r s))) := by
  simp only [setRole, h, if_false]
  rfl

theorem setRole_same (h : role s = r) : setRole r s = s := by simp [setRole, h]

theorem tells_roleTold (r : Nat) (s : State) : Tells (flag PAIR_STATUS_ROLE_CHG (wr PAIR_STATUS_ROLE r s)) (roleTold r s) :=
  (tells_vectorAll 4 _).trans (tells_intPulse 375 _)

/-- The fields that a change of role may change, below those in which pins, interrupts and vectors show. -/
def roleKeys : List Nat :=
  [PAIR_STATUS_ROLE.key, PAIR_STATUS_ROLE_CHG.key, PAIR_STATUS_ELIGIBLE.key, PAIR_STATUS_BM_HOLDER.key]

theorem rd_roleTold (hf : f.key < 163840) (hchg : f.key ≠ PAIR_STATUS_ROLE_CHG.key) :
    rd (roleTold r s) f = rd (wr PAIR_STATUS_ROLE r s) f := by
  rw [(tells_roleTold r s).rd f hf, rd_flag_ne _ hchg]

theorem rd_roleTaken (hf : f.key ≠ PAIR_STATUS_BM_HOLDER.key) : rd (roleTaken r s) f = rd s f := by
  unfold roleTaken
  split
  · rfl
  · rw [rd_wrB_ne _ _ hf, rd_onTie]

theorem rd_setRole (hf : f.key < 163840) (h : f.key ∉ roleKeys) : rd (setRole r s) f = rd s f := by
  simp only [roleKeys, List.mem_cons, List.not_mem_nil, or_false, not_or] at h
  obtain ⟨hrole, hchg, helig, hholder⟩ := h
  by_cases hr : role s = r
  · rw [setRole_same hr]
  · rw [setRole_eq hr, (tells_drivePins _).rd f hf, rd_pairRefresh_ne helig, rd_roleTaken hholder, rd_roleTold hf hchg, rd_wr_ne _ _ hrole]

theorem isSet_setRole (hf : f.key < 163840) (h : f.key ∉ roleKeys) : isSet (setRole r s) f = isSet s f := by
  rw [isSet, rd_setRole hf h, isSet]

theorem role_setRole (hr : r < 4) : role (setRole r s) = r := by
  by_cases h : role s = r
  · rw [setRole_same h, h]
  · rw [setRole_eq h, role, (tells_drivePins _).rd _ (by decide), rd_pairRefresh_ne (by decide), rd_roleTaken (by decide),
      rd_roleTold (by decide) (by decide)]
    exact rd_wr_lt _ hr

theorem setRole_tie (h : role s ≠ r) : (setRole r s).tie = roleTie r s.tie := by
  rw [setRole_eq h, (tells_drivePins _).tie, pairRefresh_tie, roleTaken_tie, (tells_roleTold r s).tie]
  rfl

/-- A role that is left or taken changes what the module knows of its partner and of the lines in one way only: by `roleTie`. -/
theorem setRole_tie_keeps {β : Type} {p : Tie → β} (hp : ∀ t, p (roleTie r t) = p t) : p (setRole r s).tie = p s.tie := by
  by_cases h : role s = r
  · rw [setRole_same h]
  · rw [setRole_tie h, hp]

/-- What telling spares and the pairing registers do not hold, a change of role leaves. -/
theorem setRole_keeps {β : Type} {p : State → β} (htells : ∀ {u v : State}, Tells u v → p v = p u)
    (hwr : ∀ g v u, p (wr g v u) = p u) (hflag : ∀ g u, p (flag g u) = p u) (htie : ∀ g u, p (onTie g u) = p u) :
    p (setRole r s) = p s := by
  by_cases h : role s = r
  · rw [setRole_same h]
  · rw [setRole_eq h, htells (tells_drivePins _), pairRefresh, wrB, hwr]
    have htold : p (roleTold r s) = p s := by rw [htells (tells_roleTold r s), hflag, hwr]
    unfold roleTaken
    split
    · rw [htie, htold]
    · rw [wrB, hwr, htie, htold]

@[simp] theorem setRole_cyc (r : Nat) (s : State) : (setRole r s).cyc = s.cyc :=
  setRole_keeps (fun h => h.cyc) (fun _ _ _ => rfl) (fun _ _ => rfl) (fun _ _ => rfl)
@[simp] theorem setRole_sw (r : Nat) (s : State) : (setRole r s).sw = s.sw :=
  setRole_keeps (fun h => h.sw) (fun _ _ _ => rfl) (fun _ _ => rfl) (fun _ _ => rfl)
@[simp] theorem setRole_drive (r : Nat) (s : State) : (setRole r s).drive = s.drive :=
  setRole_keeps (fun h => h.drive) (fun _ _ _ => rfl) (fun _ _ => rfl) (fun _ _ => rfl)

/-! ### Leaving a driving role (R291, R303, R304) -/

theorem isolate_tie (s : State) : (isolate s).tie = { s.tie with closed := false, takeover := none } :=
  (spares_outputsOff _).tie

theorem isolate_cyc (s : State) : (isolate s).cyc = s.cyc := (spares_outputsOff _).cyc

theorem rd_isolate (hf : f.key < 49152) : rd (isolate s) f = rd s f := (spares_outputsOff _).rd f hf

theorem role_isolate (s : State) : role (isolate s) = role s := rd_isolate (by decide)

/-- A module that drives and gives it up without a handover waiting ends as STANDBY, its switches open. -/
theorem stepDown_standby (h : role s = 1) (hw : s.tie.handover = none) :
    role (stepDown 2 s) = 2 ∧ (stepDown 2 s).tie.closed = false ∧
      isSet (stepDown 2 s) PAIR_STATUS_RESIGN_IN = isSet s PAIR_STATUS_RESIGN_IN := by
  have hrole : role (isolate s) ≠ 2 := by rw [role_isolate, h]; decide
  have htie : (setRole 2 (isolate s)).tie = roleTie 2 { s.tie with closed := false, takeover := none } := by
    rw [setRole_tie hrole, isolate_tie]
  have hdown : stepDown 2 s = setRole 2 (isolate s) := dropHandover_of_none (by rw [htie]; exact hw)
  rw [hdown]
  refine ⟨role_setRole (by decide), by rw [htie]; rfl, ?_⟩
  rw [isSet_setRole (by decide) (by decide), isSet, rd_isolate (by decide), isSet]

end Sys2Proof.Machine
end

section
namespace Sys2Proof.Machine
variable {s : State} {f : Fld}

/-! ### Election (R294, R295) -/

theorem bmListen_cases (s : State) : bmListen s = s ∨ bmListen s = onTie (fun t => { t with listen := some s.cyc }) s := by
  unfold bmListen
  split
  · exact .inr rfl
  · exact .inl rfl

@[simp] theorem rd_bmListen : rd (bmListen s) f = rd s f := by
  obtain h | h := bmListen_cases s <;> rw [h]
  rfl

/-- Listening on the benchmark line is all that `bmListen` changes of pairing. -/
theorem bmListen_tie_keeps {β : Type} {p : Tie → β} (hp : ∀ t x, p { t with listen := x } = p t) : p (bmListen s).tie = p s.tie := by
  obtain h | h := bmListen_cases s <;> rw [h]
  exact hp _ _

/-- Every channel whose lane is ON stays off for the rest of that interval. -/
def lanesEnd (s : State) : State := (List.range 36).foldl (fun s c => onChan c (fun x => { x with ended := x.ended || x.lane }) s) s

theorem lanesEnd_tie (s : State) : (lanesEnd s).tie = s.tie := by
  have hstep (u : State) (c : Nat) : (onChan c (fun x => { x with ended := x.ended || x.lane }) u).tie = u.tie := rfl
  unfold lanesEnd
  exact foldl_keeps hstep _ s

theorem rd_lanesEnd : rd (lanesEnd s) f = rd s f := by
  have hstep (u : State) (c : Nat) : rd (onChan c (fun x => { x with ended := x.ended || x.lane }) u) f = rd u f := rfl
  unfold lanesEnd
  exact foldl_keeps (p := fun u => rd u f) hstep _ s

theorem elect_duty (h : driving s = false) : elect 1 s = bmListen (lanesEnd (setRole 1 s)) := by
  simp only [elect, h, Bool.false_eq_true, if_false]
  rfl

/-! ### Training that completes (R294, R299) -/

/-- The link is trained, and `PAIR_STATUS` and `PAIR_DIFF` show with whom. -/
def linkTrained (slot ver lat : Nat) (s : State) : State :=
  wr PAIR_STATUS_PARTNER_SLOT slot (wr PAIR_STATUS_VERSION (min s.tie.verMax (max 1 ver))
    (wrB PAIR_STATUS_LINK_UP true (wr PAIR_DIFF_TIE_LAT lat (onTie (fun t =>
      { t with
        trained := true, ever := true, frame := [], frameAt := s.cyc, chainRun := 0, digestBad := 0, digestGood := 0
        partnerBm := false, blocks := [], sent := none, trimTurn := 0, rxMap := none, trims := [] }) s))))

section
variable {slot ver lat : Nat}

theorem rd_linkTrained_slot (h : slot < 16) : rd (linkTrained slot ver lat s) PAIR_STATUS_PARTNER_SLOT = slot := rd_wr_lt _ h

theorem rd_linkTrained_version (h : ver < 4) :
    rd (linkTrained slot ver lat s) PAIR_STATUS_VERSION = min s.tie.verMax (max 1 ver) := by
  have hw : PAIR_STATUS_VERSION.w = 2 := rfl
  rw [linkTrained, rd_wr_ne _ _ (by decide), rd_wr_lt]
  rw [hw]; omega

theorem isSet_linkTrained_up : isSet (linkTrained slot ver lat s) PAIR_STATUS_LINK_UP = true := by
  rw [linkTrained, isSet_wr_ne _ _ (by decide), isSet_wr_ne _ _ (by decide), isSet_wrB_self _ _ (by decide)]

theorem rd_linkTrained_latency (h : lat < 65536) : rd (linkTrained slot ver lat s) PAIR_DIFF_TIE_LAT = lat := by
  rw [linkTrained, rd_wr_ne _ _ (by decide), rd_wr_ne _ _ (by decide), rd_wrB_ne _ _ (by decide)]
  exact rd_wr_lt _ h

theorem role_linkTrained : role (linkTrained slot ver lat s) = role s := by
  rw [role, linkTrained, rd_wr_ne _ _ (by decide), rd_wr_ne _ _ (by decide), rd_wrB_ne _ _ (by decide), rd_wr_ne _ _ (by decide)]
  rfl

/-- What training shows stays in `t`, and the role there is `r`. -/
def Elected (slot ver lat r : Nat) (s t : State) : Prop :=
  t.tie.trained = true ∧ t.tie.frame = [] ∧ role t = r ∧
    ∀ f ∈ [PAIR_STATUS_PARTNER_SLOT, PAIR_STATUS_VERSION, PAIR_STATUS_LINK_UP, PAIR_DIFF_TIE_LAT],
      rd t f = rd (linkTrained slot ver lat s) f

theorem linkFields_apart : ∀ f ∈ [PAIR_STATUS_PARTNER_SLOT, PAIR_STATUS_VERSION, PAIR_STATUS_LINK_UP, PAIR_DIFF_TIE_LAT],
    f.key < 163840 ∧ f.key ∉ roleKeys ∧ f.key ≠ PAIR_STATUS_ELIGIBLE.key := by decide

theorem elected_setRole {r : Nat} (hr : r < 4) : Elected slot ver lat r s (setRole r (linkTrained slot ver lat s)) := by
  refine ⟨?_, ?_, role_setRole hr, fun f hf => ?_⟩
  · exact setRole_tie_keeps (p := Tie.trained) fun t => by unfold roleTie; split <;> rfl
  · exact setRole_tie_keeps (p := Tie.frame) fun t => by unfold roleTie; split <;> rfl
  · obtain ⟨hlow, hrole, -⟩ := linkFields_apart f hf
    exact rd_setRole hlow hrole

theorem Elected.lanesEnd {r : Nat} {t : State} (h : Elected slot ver lat r s t) : Elected slot ver lat r s (lanesEnd t) := by
  obtain ⟨htrained, hframe, hrole, hrd⟩ := h
  exact ⟨by rwa [lanesEnd_tie], by rwa [lanesEnd_tie], rd_lanesEnd.trans hrole, fun f hf => rd_lanesEnd.trans (hrd f hf)⟩

theorem Elected.bmListen {r : Nat} {t : State} (h : Elected slot ver lat r s t) : Elected slot ver lat r s (bmListen t) := by
  obtain ⟨htrained, hframe, hrole, hrd⟩ := h
  exact ⟨(bmListen_tie_keeps (p := Tie.trained) fun _ _ => rfl).trans htrained,
    (bmListen_tie_keeps (p := Tie.frame) fun _ _ => rfl).trans hframe, rd_bmListen.trans hrole, fun f hf => rd_bmListen.trans (hrd f hf)⟩

theorem Elected.pairRefresh {r : Nat} {t : State} (h : Elected slot ver lat r s t) : Elected slot ver lat r s (pairRefresh t) := by
  obtain ⟨htrained, hframe, hrole, hrd⟩ := h
  refine ⟨htrained, hframe, (role_pairRefresh t).trans hrole, fun f hf => ?_⟩
  obtain ⟨-, -, helig⟩ := linkFields_apart f hf
  exact (rd_pairRefresh_ne helig).trans (hrd f hf)

/-- The role that training gives to a module in another slot than its partner's. -/
theorem trained_of_role {r : Nat} (sl : Bool) (hmay : mayTrain s = true) (henable : s.tie.enable = true)
    (huntrained : s.tie.trained = false) (hdriving : driving s = false) (hslot : rd s PAIR_STATUS_SLOT ≠ slot)
    (hr : electedRole (linkTrained slot ver lat s) (decide (rd s PAIR_STATUS_SLOT < slot)) false false = some r) :
    trained slot ver lat sl false false s =
      pairRefresh (if r = 1 then elect 1 (linkTrained slot ver lat s) else setRole r (linkTrained slot ver lat s)) := by
  have hlow : (decide (rd s PAIR_STATUS_SLOT < slot) || (rd s PAIR_STATUS_SLOT == slot && sl)) = decide (rd s PAIR_STATUS_SLOT < slot) := by
    simp [hslot]
  have hdriving' : driving (linkTrained slot ver lat s) = false := by
    rw [driving, ← role, role_linkTrained]; exact hdriving
  unfold trained
  simp only [hmay, henable, huntrained, hlow, hslot, Bool.not_true, Bool.or_self, Bool.false_eq_true, if_false, false_and]
  rw [← linkTrained.eq_1]
  simp only [hr, hdriving', Bool.false_eq_true, if_false]
  split
  next hnone => exact absurd hnone (Option.some_ne_none r)
  next hone => rw [if_pos (Option.some.inj hone)]
  next k hk hsome =>
    obtain rfl := Option.some.inj hsome
    rw [if_neg hk]

/-- An UNASSIGNED module that has not driven, trained with one in another slot that has not either, takes the role of its slot. -/
theorem trained_elects (sl : Bool) (hmay : mayTrain s = true) (henable : s.tie.enable = true) (huntrained : s.tie.trained = false)
    (hrole : role s = 3) (hdrove : s.tie.drove = false) (hslot : rd s PAIR_STATUS_SLOT ≠ slot) :
    Elected slot ver lat (if rd s PAIR_STATUS_SLOT < slot then 1 else 2) s (trained slot ver lat sl false false s) := by
  have hdriving : driving s = false := by rw [driving, ← role, hrole]; rfl
  have hdriving' : driving (linkTrained slot ver lat s) = false := by rw [driving, ← role, role_linkTrained, hrole]; rfl
  have hnever : (linkTrained slot ver lat s).tie.drove = false := hdrove
  have hrole' : electedRole (linkTrained slot ver lat s) (decide (rd s PAIR_STATUS_SLOT < slot)) false false =
      some (if rd s PAIR_STATUS_SLOT < slot then 1 else 2) := by simp [electedRole, hdriving', hnever]
  rw [trained_of_role sl hmay henable huntrained hdriving hslot hrole']
  by_cases hlow : rd s PAIR_STATUS_SLOT < slot
  · rw [if_pos hlow, if_pos rfl, elect_duty hdriving']
    exact (elected_setRole (by decide)).lanesEnd.bmListen.pairRefresh
  · rw [if_neg hlow, if_neg (by decide)]
    exact (elected_setRole (by decide)).pairRefresh

end
end Sys2Proof.Machine
end

section
namespace Sys2Proof.Machine
variable {s : State} {f : Fld} {dt : Nat}

@[simp] theorem mayTrain_tick (dt : Nat) : mayTrain (tick dt s) = mayTrain s := by simp [mayTrain]

/-- The 5 ms of a training that is enabled are over, and `F_0600` has not been raised. -/
theorem trainingLate_first {since : Nat} (hmay : mayTrain s = true) (henable : s.tie.enable = true) (huntrained : s.tie.trained = false)
    (hrole : role s = 3) (hsince : s.tie.since = some since) (hover : since + 2000000 ≤ s.cyc) (hlate : s.tie.late = false) :
    trainingLate s = takePairCfg (raise 0x0600 0x66 0 actOff (onTie (fun t => { t with late := true }) s)) := by
  simp [trainingLate, hmay, henable, huntrained, hrole, hsince, hover, hlate]

theorem tieTraining : Clauses.TieTraining := by
  intro dt s hs hmay henable huntrained hrole
  refine ⟨fun slot ver lat sl hdrove hslot => ?completes, fun since hsince hover hlate => ?late⟩
  case completes =>
    have hlat : lat.toNat < 65536 := lat.isLt
    obtain ⟨htrained, hframe, hrole', hrd⟩ := trained_elects (s := tick dt s) (slot := slot) (ver := ver) (lat := lat.toNat) sl
      (by rwa [mayTrain_tick]) (by rwa [tick_tie]) (by rwa [tick_tie]) (by rwa [role_tick]) (by rwa [tick_tie]) (by rwa [rd_tick])
    simp only [List.forall_mem_cons, List.not_mem_nil, false_imp_iff, implies_true, and_true] at hrd
    obtain ⟨hpartner, hversion, hup, hlatency⟩ := hrd
    refine runs_of_event rfl hs ⟨htrained, hframe, ?_, ?_, ?_, ?_, by simpa using hrole'⟩
    · rw [isSet, hup, ← isSet, isSet_linkTrained_up]
    · rw [hpartner, rd_linkTrained_slot slot.isLt]
    · rw [hlatency, rd_linkTrained_latency hlat]
    · rw [hversion, rd_linkTrained_version ver.isLt, tick_tie]
  case late =>
    have hlate' := trainingLate_first (s := tick dt s) (since := since) (by rwa [mayTrain_tick]) (by rwa [tick_tie])
      (by rwa [tick_tie]) (by rwa [role_tick]) (by rwa [tick_tie]) (by rwa [tick_cyc]) (by rwa [tick_tie])
    refine runs_of_event rfl hs ?_
    rw [hlate', takePairCfg_tie, role, rd_takePairCfg_ne (by decide)]
    refine ⟨detects_raise .., rfl, ?_, ?_, ?_⟩
    · rw [isSet_raise, isSet_onTie, isSet_tick]
    · rw [rd_raise, rd_onTie, rd_tick]
    · rw [rd_raise, rd_onTie, rd_tick]
      exact hrole

/-! ### What the link receives (R298 to R300) -/

@[simp] theorem frameValid_tick (l : List Word) : frameValid (tick dt s) l = frameValid s l := by simp [frameValid]

theorem stateFrameIn_invalid {l : List Word} (ht : s.tie.trained = true) (hl : frameValid s l = false) :
    stateFrameIn l s = count PAIR_COUNT0_BAD_FRAMES 1 s := by simp [stateFrameIn, ht, hl]

/-- A valid frame that does not follow the last one in sequence counts. -/
def sequenceChecked (l : List Word) (s : State) : State :=
  if s.tie.frame.isEmpty || bits (l.getD 0 0) 15 0 == (bits (partnerWord s 0) 15 0 + 1) % 65536 then s
  else count PAIR_COUNT0_BAD_FRAMES 1 s

/-- The frame `l` is the partner's last, and `PAIR_STATUS` shows whether it is eligible. -/
def frameKept (l : List Word) (s : State) : State :=
  wrB PAIR_STATUS_PARTNER_ELIGIBLE (bits (l.getD 0 0) 18 18 == 1) (onTie (fun t =>
    { t with
      frame := l, frameAt := s.cyc
      partnerBm := if bits (l.getD 0 0) 25 25 = 0 then bits (l.getD 0 0) 17 17 == 1 else t.partnerBm }) s)

theorem sequenceChecked_cases (l : List Word) (s : State) :
    sequenceChecked l s = s ∨ sequenceChecked l s = count PAIR_COUNT0_BAD_FRAMES 1 s := by
  unfold sequenceChecked
  split
  · exact .inl rfl
  · exact .inr rfl

theorem rd_sequenceChecked {l : List Word} (hsw : s.sw = []) (h : f.key ≠ PAIR_COUNT0_BAD_FRAMES.key) :
    rd (sequenceChecked l s) f = rd s f := by
  obtain hc | hc := sequenceChecked_cases l s <;> rw [hc]
  rw [rd_count_ne _ hsw h]

@[simp] theorem sequenceChecked_cyc (l : List Word) (s : State) : (sequenceChecked l s).cyc = s.cyc := by
  obtain hc | hc := sequenceChecked_cases l s <;> simp [hc]

theorem onlyRegs_sequenceChecked {u : State} {l : List Word} {offs : List Nat} (h : OnlyRegs u s offs) (hsw : s.sw = [])
    (hoff : PAIR_COUNT0 ∈ offs) : OnlyRegs u (sequenceChecked l s) offs := by
  obtain hc | hc := sequenceChecked_cases l s <;> rw [hc]
  · exact h
  · exact h.count 1 hsw hoff

/-- A module that is not DUTY and not PHASED keeps a valid frame and compares nothing with it. -/
theorem stateFrameIn_kept {l : List Word} (ht : s.tie.trained = true) (hl : frameValid s l = true) (hrole : role s ≠ 1)
    (hphased : phased s = false) (hsw : s.sw = []) :
    stateFrameIn l s = onTie (fun t => { t with chainRun := 0, digestBad := 0, digestGood := 0 }) (frameKept l (sequenceChecked l s)) := by
  have hkept {g : Fld} (hbad : g.key ≠ PAIR_COUNT0_BAD_FRAMES.key) (helig : g.key ≠ PAIR_STATUS_PARTNER_ELIGIBLE.key) :
      rd (frameKept l (sequenceChecked l s)) g = rd s g := by
    rw [frameKept, rd_wrB_ne _ _ helig, rd_onTie, rd_sequenceChecked hsw hbad]
  have hrole' : role (frameKept l (sequenceChecked l s)) ≠ 1 := by rwa [role, hkept (by decide) (by decide)]
  have hcompare : comparable (frameKept l (sequenceChecked l s)) l = false := by
    rw [phased, syncState] at hphased
    simp [comparable, phased, syncState, hkept (g := WHL_STATUS_STATE) (by decide) (by decide), hphased]
  simp only [stateFrameIn, ht, hl, Bool.not_true, Bool.false_eq_true, if_false, ← sequenceChecked.eq_1, ← frameKept.eq_1, hrole',
    hcompare, false_and]

theorem blockIn_head {b : List Word} (ht : s.tie.trained = true) (hrole : role s = 2) (hv : 2 ≤ rd s PAIR_STATUS_VERSION)
    (hb : bits (b.getD 0 0) 31 28 = 1) : blockIn b s = onTie (fun t => { t with rxMap := some (b, []) }) s := by
  simp only [blockIn, ht, hrole, Nat.not_lt.mpr hv, hb]
  simp

/-- The trim of Table 10-4's TRIM block `b`. -/
def blockTrim (b : List Word) : TrimCopy :=
  ⟨bits (b.getD 1 0) 16 0, bits (b.getD 3 0) 31 30, bits (b.getD 3 0) 29 26, bits (b.getD 3 0) 25 19⟩

theorem blockIn_trim {b : List Word} (ht : s.tie.trained = true) (hrole : role s = 2) (hv : rd s PAIR_STATUS_VERSION = 3)
    (hb : bits (b.getD 0 0) 31 28 = 3) (hc : bits (b.getD 0 0) 27 16 < 36) (hsound : b.getD 2 0 = ~~~(b.getD 1 0)) :
    blockIn b s = onTie (fun t => { t with trims := Tbl.insert t.trims (bits (b.getD 0 0) 27 16) (blockTrim b) }) s := by
  simp only [blockIn, ht, hrole, hv, hb, hc, hsound, and_self, if_true]
  rfl

theorem tieReceives : Clauses.TieReceives := by
  intro dt s hs hdt htrained
  have hsw : (tick dt s).sw = [] := tick_sw (Nat.ne_of_gt hdt) s
  have hregs (l : List Nat) : OnlyRegs s (tick dt s) l := .of_regs (tick_regs s dt) l
  have htrained' : (tick dt s).tie.trained = true := by rwa [tick_tie]
  refine ⟨?frames, fun x0 x1 x2 x3 hrole => ⟨fun hv hb => ?head, fun hv hb hc hsound => ?trim⟩⟩
  case frames =>
    intro w0 w1 w2 w3 w4 w5 w6 w7 l
    constructor
    · intro hl
      refine runs_of_event (f := stateFrameIn l) rfl hs ?_
      rw [stateFrameIn_invalid htrained' (by rwa [frameValid_tick])]
      refine ⟨by simp, ?_, (hregs _).count 1 hsw (by decide)⟩
      rw [rd_count_self _ _ (by simp [hsw]), rd_tick]
    · intro hl hrole hphased
      refine runs_of_event (f := stateFrameIn l) rfl hs ?_
      rw [stateFrameIn_kept htrained' (by rwa [frameValid_tick]) (by rwa [role_tick]) (by rwa [phased_tick]) hsw]
      refine ⟨rfl, by simp [frameKept], ?_, ?_⟩
      · rw [isSet_onTie, frameKept, isSet_wrB_self _ _ (by decide)]
        rfl
      · exact onlyRegs_onTie _ ((onlyRegs_onTie _ (onlyRegs_sequenceChecked (hregs _) hsw (by decide))).wrB _ (by decide))
  case head =>
    refine runs_of_event (f := blockIn [x0, x1, x2, x3]) rfl hs ?_
    rw [blockIn_head (b := [x0, x1, x2, x3]) htrained' (by rwa [role_tick]) (by rwa [rd_tick]) hb]
    exact ⟨by rw [onTie_tie, tick_tie], tick_regs s dt⟩
  case trim =>
    refine runs_of_event (f := blockIn [x0, x1, x2, x3]) rfl hs ?_
    rw [blockIn_trim (b := [x0, x1, x2, x3]) htrained' (by rwa [role_tick]) (by rwa [rd_tick]) hb hc hsound]
    exact ⟨Tbl.find_insert_self _ _ _, tick_regs s dt⟩

/-- Settles O28: a clause for training and the roles it elects (R294, R299), one for what the link receives (R298 to R300). That
`LINK_UP` reads 1 as soon as training is done is the model's choice (log entry 65). -/
theorem tieLink : Obligations.TieLink := ⟨tieTraining, tieReceives⟩

end Sys2Proof.Machine
end

section
namespace Sys2Proof.Machine
variable {s : State} {f : Fld} {dt : Nat} {m : Msg} {h : Handover}

/-! ### The resign line (R303) -/

@[simp] theorem pullResign_cyc (s : State) : (pullResign s).cyc = s.cyc := rfl

theorem isSet_pullResign_in (s : State) : isSet (pullResign s) PAIR_STATUS_RESIGN_IN = true := isSet_wrB_self _ _ (by decide)

theorem rd_pullResign_ne (hf : f.key ≠ PAIR_STATUS_RESIGN_IN.key) : rd (pullResign s) f = rd s f := by
  rw [pullResign, rd_wrB_ne _ _ hf, rd_onTie]

/-- The module pulls the resign line low and takes role STANDBY. -/
def resigned (s : State) : State := setRole 2 (onTie (fun t => { t with resigned := t.resigned || false }) (pullResign s))

theorem resigned_tie (h : role s = 1) : (resigned s).tie = roleTie 2 { s.tie with
    resign := some (s.cyc + 4000), lowAt := if isSet s PAIR_STATUS_RESIGN_IN then s.tie.lowAt else s.cyc
    resigned := s.tie.resigned || false } := by
  refine setRole_tie ?_
  rw [role_onTie, role, rd_pullResign_ne (by decide), ← role, h]
  decide

theorem isSet_resigned_in : isSet (resigned s) PAIR_STATUS_RESIGN_IN = true := by
  rw [resigned, isSet_setRole (by decide) (by decide), isSet_onTie, isSet_pullResign_in]

theorem resign_duty (hrole : role s = 1) (hw : s.tie.handover = none) : resign 2 false s = resigned (isolate s) := by
  have hnone : (resigned (isolate s)).tie.handover = none := by
    rw [resigned_tie (by rw [role_isolate, hrole]), isolate_tie]
    exact hw
  simp only [resign, hrole, ne_eq, not_true_eq_false, if_false]
  change dropHandover (resigned (isolate s)) = _
  exact dropHandover_of_none hnone

/-- A DUTY that resigns with no handover waiting ends as STANDBY, its switches open and the resign line low for 10 µs. -/
theorem resign_standby (hrole : role s = 1) (hw : s.tie.handover = none) :
    role (resign 2 false s) = 2 ∧ (resign 2 false s).tie.closed = false ∧ (resign 2 false s).tie.handover = none ∧
      (resign 2 false s).tie.resign = some (s.cyc + 4000) ∧ isSet (resign 2 false s) PAIR_STATUS_RESIGN_IN = true ∧
        (resign 2 false s).cyc = s.cyc := by
  have htie := resigned_tie (s := isolate s) (by rw [role_isolate, hrole])
  rw [isolate_tie, isolate_cyc] at htie
  rw [resign_duty hrole hw]
  refine ⟨role_setRole (by decide), by rw [htie]; rfl, by rw [htie]; exact hw, by rw [htie]; rfl, isSet_resigned_in, ?_⟩
  rw [resigned, setRole_cyc, onTie_cyc, pullResign_cyc, isolate_cyc]

/-! ### Handover on command (R310) -/

theorem pairHandover_waits (hrole : role s = 1) (hr : reservedBad m [1] = none) (hframe : s.tie.frame ≠ [])
    (helig : bits (partnerWord s 0) 18 18 = 1) (hsync : bits (partnerWord s 0) 23 22 = syncState s) (hw : s.tie.handover = none) :
    pairHandover m s = onTie (fun t => { t with handover := some ⟨m, bits (word m 0) 0 0 == 1, s.cyc, chainNow s⟩ }) s := by
  simp only [pairHandover, hr]
  simp [hrole, hframe, helig, hsync, hw]

/-- What `QUIET_HANDOVER_RESIGN` does in its cycle. -/
def quietResign (s : State) : State :=
  match s.tie.handover with
  | some h => if h.quiet && role s == 1 && quietNow s then handOver h s else s
  | none => s

theorem quietResign_quiet (hw : s.tie.handover = some h) (hquiet : h.quiet = true) (hrole : role s = 1) (hnow : quietNow s = true) :
    quietResign s = handOver h s := by simp [quietResign, hw, hquiet, hrole, hnow]

/-- What `HANDOVER_TIMEOUT` does in its cycle. -/
def handoverOver (s : State) : State :=
  match s.tie.handover with
  | some h => if h.quiet && handoverLate s h then refuse 0x0182 h.cmd 0x0183 (onTie (fun t => { t with handover := none }) s) else s
  | none => s

theorem handoverOver_late (hw : s.tie.handover = some h) (hquiet : h.quiet = true) (hlate : handoverLate s h = true) :
    handoverOver s = respond 0x0182 h.cmd 0x0183 0 [] (onTie (fun t => { t with handover := none }) s) := by
  simp [handoverOver, hw, hquiet, hlate, refuse]

theorem exec_quietHandoverResign (hs : steady dt s = true) : exec (.quietHandoverResign dt) s = .next (quietResign (tick dt s)) :=
  event_steady hs quietResign

theorem exec_handoverTimeout (hs : steady dt s = true) : exec (.handoverTimeout dt) s = .next (handoverOver (tick dt s)) :=
  event_steady hs handoverOver

theorem handovers : Clauses.Handovers := by
  intro s hrole
  refine ⟨fun m ha hr hframe helig hsync hw => ?waits, fun dt h hs hw hquiet => ⟨fun hnow => ?resigns, fun hlate => ?late⟩⟩
  case waits =>
    refine ⟨_, command_of_accepted ha (pairHandover m), ?_⟩
    rw [pairHandover_waits hrole hr hframe helig hsync hw]
    exact ⟨rfl, rfl, rfl⟩
  case resigns =>
    let u := onTie (fun t => { t with handover := none }) (tick dt s)
    obtain ⟨hrole', hclosed, hnone, hresign, hin, hcyc⟩ := resign_standby (s := u) (by simpa [u]) rfl
    have hcyc' : u.cyc = s.cyc + dt := tick_cyc dt s
    refine ⟨resign 2 false u, ?_, hrole', hclosed, hnone, by rw [hresign, hcyc'], hin⟩
    rw [exec_quietHandoverResign hs, quietResign_quiet (by rwa [tick_tie]) hquiet (by rwa [role_tick]) hnow, ← hcyc', ← hcyc]
    rfl
  case late =>
    refine ⟨onTie (fun t => { t with handover := none }) (tick dt s), ?_, by rw [onTie_tie, tick_tie], tick_regs s dt, ?_⟩
    · rw [exec_handoverTimeout hs, handoverOver_late (by rwa [tick_tie]) hquiet hlate]
    · rw [role_onTie, role_tick, hrole]

/-! ### Configuration (R314) -/

theorem configOnly_pairCfg : configOnly PAIR_CFG = true := by decide +kernel

/-- Without `BM_ENABLE` the module leaves the benchmark line alone; with it, where it had none, it listens. -/
def lineConfigured (was : Bool) (s : State) : State :=
  let t := if isSet s PAIR_CFG_BM_ENABLE then s
    else wrB PAIR_STATUS_BM_HOLDER false (onTie (fun t => { t with listen := none, missing := 0 }) s)
  if was then t else bmListen t

theorem rd_lineConfigured (was : Bool) (hf : f.key ≠ PAIR_STATUS_BM_HOLDER.key) : rd (lineConfigured was s) f = rd s f := by
  unfold lineConfigured
  extract_lets t
  have ht : rd t f = rd s f := by
    dsimp only [t]
    split
    · rfl
    · rw [rd_wrB_ne _ _ hf, rd_onTie]
  split
  · exact ht
  · rw [rd_bmListen, ht]

theorem lineConfigured_late (was : Bool) (s : State) : (lineConfigured was s).tie.late = s.tie.late := by
  unfold lineConfigured
  extract_lets t
  have ht : t.tie.late = s.tie.late := by
    dsimp only [t]
    split <;> rfl
  split
  · exact ht
  · exact (bmListen_tie_keeps (p := Tie.late) fun _ _ => rfl).trans ht

/-- `PAIR_CFG` holds the word `x`, and the benchmark line follows. -/
def cfgStored (x : Word) (s : State) : State :=
  lineConfigured (isSet s PAIR_CFG_BM_ENABLE) (swWrite PAIR_CFG (globalFields PAIR_CFG) x s)

theorem swFields_tie (fs : List Fld) (x : Word) (s : State) (hfs : ∀ g ∈ fs, g.acc = .rw ∧ g.kind = .cfg) :
    (swFields fs x s).tie = s.tie := by
  induction fs generalizing s with
  | nil => rfl
  | cons g fs ih =>
    obtain ⟨⟨hacc, hkind⟩, hfs⟩ := List.forall_mem_cons.mp hfs
    rw [swFields_cons, swField_cfg _ _ hacc hkind, ih _ hfs, wr_tie]

theorem cfgStored_late (x : Word) (s : State) : (cfgStored x s).tie.late = s.tie.late := by
  have hfs := (configOnly_iff.mp configOnly_pairCfg).1
  rw [cfgStored, lineConfigured_late]
  exact congrArg Tie.late (swFields_tie _ x s fun g hg => (hfs g hg).2)

/-- Without a late training a write elects nothing: at most it begins training again. -/
theorem writePairCfg_cases (x : Word) (hlate : s.tie.late = false) :
    writePairCfg x s = cfgStored x s ∨ writePairCfg x s = takePairCfg (cfgStored x s) := by
  have hlate' : (cfgStored x s).tie.late = false := by rw [cfgStored_late, hlate]
  have heq : writePairCfg x s =
      if isSet (cfgStored x s) PAIR_CFG_ENABLE then (if (cfgStored x s).tie.enable then cfgStored x s else takePairCfg (cfgStored x s))
      else if (cfgStored x s).tie.late && role (cfgStored x s) == 3 && mayTrain (cfgStored x s) then
        elect 0 (onTie (fun t => { t with enable := false }) (cfgStored x s))
      else cfgStored x s := rfl
  rw [heq, hlate']
  split
  · split
    · exact .inl rfl
    · exact .inr rfl
  · exact .inl rfl

/-- The fields of `PAIR_STATUS` that follow a write of `PAIR_CFG`. -/
theorem rd_writePairCfg (x : Word) (hlate : s.tie.late = false) (hholder : f.key ≠ PAIR_STATUS_BM_HOLDER.key)
    (helig : f.key ≠ PAIR_STATUS_ELIGIBLE.key) :
    rd (writePairCfg x s) f = rd (swWrite PAIR_CFG (globalFields PAIR_CFG) x s) f := by
  have hstored := rd_lineConfigured (isSet s PAIR_CFG_BM_ENABLE) (s := swWrite PAIR_CFG (globalFields PAIR_CFG) x s) hholder
  obtain h | h := writePairCfg_cases x hlate <;> rw [h]
  · exact hstored
  · rw [rd_takePairCfg_ne helig]
    exact hstored

/-- With no late training, a write stores its word in `PAIR_CFG` and changes `PAIR_STATUS` alone beside it, but not the role. -/
theorem writePairCfg_stores (x : Word) (hlate : s.tie.late = false) :
    Holds (writePairCfg x s) PAIR_CFG x ∧ OnlyRegs s (writePairCfg x s) [PAIR_CFG, PAIR_STATUS] ∧ role (writePairCfg x s) = role s := by
  have hwritten : OnlyRegs s (swWrite PAIR_CFG (globalFields PAIR_CFG) x s) [PAIR_CFG] :=
    onlyRegs_swWrite configOnly_pairCfg (by decide) x (.refl s _)
  have hstatus : OnlyRegs (swWrite PAIR_CFG (globalFields PAIR_CFG) x s) (writePairCfg x s) [PAIR_STATUS] := by
    intro g hg
    refine rd_writePairCfg x hlate ?_ ?_ <;> exact fun h => hg (h ▸ by decide)
  refine ⟨holds_of_onlyRegs configOnly_pairCfg (holds_swWrite configOnly_pairCfg x s) hstatus (by decide),
    (hwritten.mono (by decide)).trans (hstatus.mono (by decide)), ?_⟩
  rw [role, rd_writePairCfg x hlate (by decide) (by decide)]
  exact hwritten _ (by decide)

theorem exec_pairConfig {m : Msg} (ha : Accepted 0x0180 m s) (hrot : rotating s = false) (hx : word m 0 &&& 0x1C00FFFF = 0) :
    exec (.pairConfig m) s = .next (respond 0x0180 m 0 0 [] (commits [PAIR_CFG] (writePairCfg (word m 0) s))) := by
  change command 0x0180 m (pairConfig m) s = _
  rw [command_of_accepted ha]
  simp only [pairConfig, hrot, hx, Bool.false_eq_true, if_false, ne_eq, not_true_eq_false, ok]

/-- In a cycle without a commit of `PAIR_CFG` a write of PF0's reaches the register. -/
theorem exec_pairCfgWrite (hs : steady dt s = true) (hdt : 0 < dt) (x : Word) :
    exec (.pairCfgWrite dt x) s = .next (pairCfgWrite x (tick dt s)) := by
  have hbarred : (tick dt s).barred = [] := tick_barred (Nat.ne_of_gt hdt) s
  change event dt (writes 0 PAIR_CFG (pairCfgWrite x)) s = _
  rw [event_steady hs, writes_on rfl (by simp [hbarred]) (by simp [hbarred]) (regPower_none rfl)]

theorem pairConfiguration : Clauses.PairConfiguration := by
  intro s
  refine ⟨fun m ha hrot hlate hx => ?config, fun dt x hs hdt => ⟨fun hrot hlate => ?write, fun hrot => ?rejected⟩,
    fun m ha => ?status⟩
  case config =>
    obtain ⟨hholds, honly, hrole⟩ := writePairCfg_stores (word m 0) hlate
    exact ⟨_, exec_pairConfig ha hrot hx, holds_commits _ hholds, onlyRegs_commits _ honly, hrole⟩
  case write =>
    obtain ⟨hholds, honly, hrole⟩ := writePairCfg_stores (s := tick dt s) x (by rwa [tick_tie])
    refine ⟨_, exec_pairCfgWrite hs hdt x, ?_⟩
    rw [pairCfgWrite, hrot, if_neg (by decide)]
    exact ⟨hholds, (OnlyRegs.of_regs (tick_regs s dt) _).trans honly, hrole.trans (role_tick dt)⟩
  case rejected =>
    refine ⟨_, exec_pairCfgWrite hs hdt x, ?_⟩
    rw [pairCfgWrite, hrot, if_pos rfl]
    refine ⟨isSet_flag_self _ (by decide), tick_tie s dt, ?_⟩
    exact OnlyRegs.flag (t := { tick dt s with sw := _ }) (.of_regs (tick_regs s dt) _) (by decide)
  case status => exact ⟨s, command_of_accepted ha (pairStatus m), rfl⟩

/-- Settles O30: a clause for handovers (R310), one for the configuration and the status (R314, R522). That `PAIR_CONFIG` stores
`TIE_VER_MAX` 0 and `CHAIN_TOL` below 4 under PF0's substitutions, and that the role stays until training, is the model's choice
(log entry 65). -/
theorem pairCommands : Obligations.PairCommands := ⟨handovers, pairConfiguration⟩

end Sys2Proof.Machine
end

section
namespace Sys2Proof.Machine
variable {s t : State} {f : Fld} {dt cause now : Nat}

/-! ### A module on which nothing is ON -/

@[simp] theorem laneAt_tick (dt o : Nat) : laneAt (tick dt s) o = laneAt s o := by simp [laneAt]
@[simp] theorem chan_tick (dt c : Nat) : chan (tick dt s) c = chan s c := by simp [chan]
@[simp] theorem partnerOn_tick (dt c : Nat) : partnerOn (tick dt s) c = partnerOn s c := by simp [partnerOn, partnerWord]

theorem allQuiet_tick (dt : Nat) : AllQuiet (tick dt s) ↔ AllQuiet s := by simp [AllQuiet]

/-- A fold that does nothing at any element of its list does nothing. -/
theorem foldl_of_mem_id {α β : Type} {g : β → α → β} {x : β} {l : List α} (h : ∀ a ∈ l, g x a = x) : l.foldl g x = x := by
  induction l with
  | nil => rfl
  | cons a l ih => rw [List.foldl_cons, h a List.mem_cons_self, ih fun y hy => h y (List.mem_cons_of_mem a hy)]

/-- Where the partner drives no channel and no lane is ON, the standby has nothing to decide. -/
theorem decideChannel_quiet {c : Nat} (hp : partnerOn s c = false) (hl : (laneAt s c).on = false) : decideChannel c s = s := by
  simp [decideChannel, hp, hl]

/-! ### Triggers (R302, R305, R309) -/

/-- A takeover begins for `cause`. -/
def takeoverBegun (cause : Nat) (s : State) : State :=
  onTie (fun x => { x with takeover := some (cause, s.cyc) }) (wr PAIR_TAKEOVER_AT s.cyc (wr PAIR_STATUS_LAST_TRIGGER cause s))

theorem takeoverBegun_tie : (takeoverBegun cause s).tie = { s.tie with takeover := some (cause, s.cyc) } := rfl

theorem rd_takeoverBegun_ne (hat : f.key ≠ PAIR_TAKEOVER_AT.key) (htrigger : f.key ≠ PAIR_STATUS_LAST_TRIGGER.key) :
    rd (takeoverBegun cause s) f = rd s f := by rw [takeoverBegun, rd_onTie, rd_wr_ne _ _ hat, rd_wr_ne _ _ htrigger]

theorem rd_takeoverBegun_at : rd (takeoverBegun cause s) PAIR_TAKEOVER_AT = s.cyc % 2 ^ 32 := by
  rw [takeoverBegun, rd_onTie, rd_wr_self]
  rfl

theorem rd_takeoverBegun_trigger (h : cause < 4) : rd (takeoverBegun cause s) PAIR_STATUS_LAST_TRIGGER = cause := by
  rw [takeoverBegun, rd_onTie, rd_wr_ne _ _ (by decide)]
  exact rd_wr_lt _ h

/-- On an eligible STANDBY with nothing ON, silence begins a takeover and pulls the resign line; a falling line begins one. -/
theorem trigger_quiet (hp : ∀ c, partnerOn s c = false) (hl : ∀ o, (laneAt s o).on = false) (he : pairEligible s = true)
    (hn : s.tie.takeover = none) :
    trigger cause s = if cause = 1 then pullResign (takeoverBegun cause s) else takeoverBegun cause s := by
  have hfold (u : State) (hu : u.tie.frame = s.tie.frame) (hseq : u.seq = s.seq) :
      (decidedChannels u).foldl (fun s c => decideChannel c s) u = u := by
    refine foldl_of_step_id (fun c => decideChannel_quiet ?_ ?_) _
    · rw [← hp c, partnerOn, partnerOn, partnerWord, partnerWord, hu, ← partnerWord, ← partnerWord]
    · rw [← hl c, laneAt, laneAt, hseq]
  simp only [trigger, hn, he, Bool.not_true, Bool.false_eq_true, if_false]
  split
  · exact hfold (pullResign (takeoverBegun cause s)) rfl rfl
  · exact hfold (takeoverBegun cause s) rfl rfl

/-- A resign line that falls in the cycle of a silence makes RESIGN the trigger. -/
theorem trigger_same_cycle (h : s.tie.takeover = some (1, s.cyc)) :
    trigger 2 s = wr PAIR_STATUS_LAST_TRIGGER 2 (onTie (fun x => { x with takeover := some (2, s.cyc) }) s) := by
  simp [trigger, h]

/-- The link is down. -/
def linkDown (s : State) : State :=
  wrB PAIR_STATUS_LINK_UP false (onTie (fun t => { t with trained := false, blocks := [], rxMap := none }) s)

theorem rd_linkDown_ne (h : f.key ≠ PAIR_STATUS_LINK_UP.key) : rd (linkDown s) f = rd s f := by
  rw [linkDown, rd_wrB_ne _ _ h, rd_onTie]

theorem silence_standby (ht : s.tie.trained = true) (hlast : s.tie.frameAt + 200 ≤ s.cyc) (hrole : role s = 2) :
    silence s = takePairCfg (trigger 1 (linkDown s)) := by
  have hrole' : role (linkDown s) = 2 := (rd_linkDown_ne (by decide)).trans hrole
  simp only [silence, ht, Nat.not_lt.mpr hlast, ← linkDown.eq_1, hrole', Bool.not_true, Bool.false_eq_true, or_self, if_false, if_true]

theorem pairEligible_congr (hrole : role t = role s) (htie : t.tie.enable = s.tie.enable ∧ t.tie.ever = s.tie.ever ∧
    t.tie.resigned = s.tie.resigned) (hangle : t.angle = s.angle) (hseq : t.seq = s.seq) : pairEligible t = pairEligible s := by
  obtain ⟨henable, hever, hresigned⟩ := htie
  rw [role, role] at hrole
  simp only [pairEligible, hrole, henable, hever, hresigned, hangle, hseq]

/-- Silence on an eligible STANDBY takes the link down and triggers a takeover. -/
theorem silence_quiet (hq : AllQuiet s) (ht : s.tie.trained = true) (hlast : s.tie.frameAt + 200 ≤ s.cyc) (hrole : role s = 2)
    (he : pairEligible s = true) (hn : s.tie.takeover = none) :
    silence s = takePairCfg (pullResign (takeoverBegun 1 (linkDown s))) := by
  obtain ⟨hp, hl, -⟩ := hq
  have he' : pairEligible (linkDown s) = true := by
    rw [pairEligible_congr (s := s) (rd_linkDown_ne (by decide)) ⟨rfl, rfl, rfl⟩ rfl rfl, he]
  rw [silence_standby ht hlast hrole, trigger_quiet (s := linkDown s) hp hl he' hn, if_pos rfl]

/-- The resign line is seen low. -/
def lineLow (s : State) : State :=
  wrB PAIR_STATUS_RESIGN_IN true (onTie (fun t => { t with lowAt := if isSet s PAIR_STATUS_RESIGN_IN then t.lowAt else s.cyc }) s)

theorem rd_lineLow_ne (h : f.key ≠ PAIR_STATUS_RESIGN_IN.key) : rd (lineLow s) f = rd s f := by
  rw [lineLow, rd_wrB_ne _ _ h, rd_onTie]

theorem isSet_lineLow_in : isSet (lineLow s) PAIR_STATUS_RESIGN_IN = true := isSet_wrB_self _ _ (by decide)

theorem role_lineLow : role (lineLow s) = role s := rd_lineLow_ne (by decide)

theorem takeoverNow_of_began (h : s.tie.takeover = some (cause, s.cyc)) : takeoverNow s = true := by simp [takeoverNow, h]

/-- A fall of the line that another module drives, or this one only since a silence of this cycle, is seen; each role acts on it. -/
theorem resignEdge_seen (h : s.tie.resign = none ∨ takeoverNow s = true) (hd : s.tie.deaf = false) :
    resignEdge s = if role s = 2 then trigger 2 (lineLow s)
      else if role s = 1 then raise 0x0608 0x66 0 (actOff + actRole) (stepDown 2 (lineLow s)) else lineLow s := by
  have hseen : (s.tie.resign.isSome && !takeoverNow s) = false := by rcases h with h | h <;> simp [h]
  have hd' : (lineLow s).tie.deaf = false := hd
  simp only [resignEdge, hseen, ← lineLow.eq_1, hd', role_lineLow, Bool.false_eq_true, if_false]

/-- A module that ignores edges shows the line low, and no more. -/
theorem resignEdge_deaf (h : s.tie.resign = none) (hd : s.tie.deaf = true) : resignEdge s = lineLow s := by
  have hd' : (lineLow s).tie.deaf = true := hd
  simp only [resignEdge, h, Option.isSome_none, Bool.false_and, Bool.false_eq_true, if_false, ← lineLow.eq_1, hd', if_true]

/-! ### The switches close (R306, R308) -/

theorem enterHold_of_off {c : Nat} (h : (chan s c).lane = false) : enterHold c s = s := by simp [enterHold, h]
theorem auxConnect_of_off {n : Nat} (h : (auxAt s n).lane = false) : auxConnect n s = s := by simp [auxConnect, h]
theorem takeTrim_of_disabled {c : Nat} (h : isSet s (CD_CFG_TRIM_EN c) = false) : takeTrim c s = s := by simp [takeTrim, h]

theorem trimEnable_apart : ∀ c < 36, (CD_CFG_TRIM_EN c).key < 163840 ∧ (CD_CFG_TRIM_EN c).key ∉ roleKeys := by decide

/-- The role that a takeover for `cause` gives. -/
def takenRole (cause : Nat) (s : State) : Nat := if cause = 2 ∧ s.tie.trained = true then 1 else 0

theorem takenRole_lt (cause : Nat) (s : State) : takenRole cause s < 4 := by
  unfold takenRole
  split <;> decide

/-- The switches are closed and the module drives. -/
def switchesClosed (cause : Nat) (s : State) : State :=
  setRole (takenRole cause s) (onTie (fun t => { t with takeover := none, closed := true }) s)

theorem switchesClosed_tie : (switchesClosed cause s).tie.closed = true ∧ (switchesClosed cause s).tie.takeover = none :=
  ⟨setRole_tie_keeps (p := Tie.closed) fun t => by unfold roleTie; split <;> rfl,
    setRole_tie_keeps (p := Tie.takeover) fun t => by unfold roleTie; split <;> rfl⟩

/-- The takeover is counted and flagged, and the module holds the benchmark role that its partner held. -/
def takeoverCounted (s : State) : State :=
  let s := count PAIR_COUNT0_TAKEOVERS 1 (flag PAIR_STATUS_TAKEOVER s)
  wrB PAIR_STATUS_BM_HOLDER (s.tie.partnerBm && isSet s PAIR_CFG_BM_ENABLE) s

theorem takeoverCounted_tie : (takeoverCounted s).tie = s.tie := by simp [takeoverCounted]

theorem isSet_takeoverCounted (hsw : s.sw = []) : isSet (takeoverCounted s) PAIR_STATUS_TAKEOVER = true := by
  rw [takeoverCounted, isSet_wrB_ne _ _ (by decide), isSet, rd_count_ne _ (by rwa [flag_sw]) (by decide), ← isSet,
    isSet_flag_self _ (by decide)]

theorem rd_takeoverCounted_count (hsw : s.sw = []) :
    rd (takeoverCounted s) PAIR_COUNT0_TAKEOVERS = min PAIR_COUNT0_TAKEOVERS.max (rd s PAIR_COUNT0_TAKEOVERS + 1) := by
  rw [takeoverCounted, rd_wrB_ne _ _ (by decide), rd_count_self _ _ (by simp [hsw]), rd_flag_ne _ (by decide)]

theorem role_takeoverCounted (hsw : s.sw = []) : role (takeoverCounted s) = role s := by
  rw [role, takeoverCounted, rd_wrB_ne _ _ (by decide), rd_count_ne _ (by rwa [flag_sw]) (by decide), rd_flag_ne _ (by decide), role]

/-- With nothing ON, the closing of the switches is the change of role and what tells it. -/
theorem closeSwitches_quiet {at_ : Nat} (hq : AllQuiet s) (ht : s.tie.takeover = some (cause, at_))
    (hin : isSet s PAIR_STATUS_RESIGN_IN = true) (hlow : s.tie.lowAt + 60 ≤ s.cyc) :
    closeSwitches true s = vectorAll 4 (intPulse 375 (raise 0x0607 0x66 0 actRole (takeoverCounted (switchesClosed cause s)))) := by
  obtain ⟨-, -, hchan, haux, htrim⟩ := hq
  have hdrive : (switchesClosed cause s).drive = s.drive := setRole_drive _ _
  have hhold : ∀ l : List Nat, l.foldl (fun s c => enterHold c s) (switchesClosed cause s) = switchesClosed cause s :=
    foldl_of_step_id fun c => enterHold_of_off (by rw [chan, hdrive, ← chan, hchan])
  have hconnect : ∀ l : List Nat, l.foldl (fun s n => auxConnect n s) (switchesClosed cause s) = switchesClosed cause s :=
    foldl_of_step_id fun n => auxConnect_of_off (by rw [auxAt, hdrive, ← auxAt, haux])
  have htrims : (List.range 36).foldl (fun s c => takeTrim c s) (switchesClosed cause s) = switchesClosed cause s := by
    refine foldl_of_mem_id fun c hc => takeTrim_of_disabled ?_
    obtain ⟨hbelow, hrole⟩ := trimEnable_apart c (List.mem_range.mp hc)
    rw [switchesClosed, isSet_setRole hbelow hrole, isSet_onTie, htrim]
  simp only [closeSwitches, ht, hin, Nat.not_lt.mpr hlow, decide_false, Bool.not_true, Bool.or_self, Bool.false_eq_true, if_false]
  change _ = vectorAll 4 (intPulse 375 (raise 0x0607 0x66 0 actRole (takeoverCounted (switchesClosed cause s))))
  rw [← takenRole.eq_1, ← switchesClosed.eq_1, hhold, hconnect, htrims]
  rfl

/-- What a detection leaves detected is what it detected, once functions and cores have been told. -/
theorem detects_told {code : Nat} (h : Detects s code) : Detects (vectorAll 4 (intPulse 375 s)) code := by
  rw [Detects, ((tells_intPulse 375 s).trans (tells_vectorAll 4 _)).faults]
  exact h

theorem takeovers : Clauses.Takeovers := by
  intro dt s hs hdt hquiet
  have hsw : (tick dt s).sw = [] := tick_sw (Nat.ne_of_gt hdt) s
  have hq : AllQuiet (tick dt s) := (allQuiet_tick dt).mpr hquiet
  have hcyc : (tick dt s).cyc = s.cyc + dt := tick_cyc dt s
  refine ⟨fun ht hlast hrole he hn => ?silent, fun hr hd hrole he hn => ?falls, fun hrole hd ht => ?both,
    fun cause at_ ht hin hlow => ?closes⟩
  case silent =>
    refine runs_of_event rfl hs ?_
    rw [silence_quiet hq (by rwa [tick_tie]) (by rwa [tick_tie, hcyc]) (by rwa [role_tick])
      (by rwa [pairEligible_tick]) (by rwa [tick_tie])]
    let u := linkDown (tick dt s)
    have hu : u.cyc = s.cyc + dt := hcyc
    have hrd {g : Fld} (helig : g.key ≠ PAIR_STATUS_ELIGIBLE.key) (hin : g.key ≠ PAIR_STATUS_RESIGN_IN.key) :
        rd (takePairCfg (pullResign (takeoverBegun 1 u))) g = rd (takeoverBegun 1 u) g := by
      rw [rd_takePairCfg_ne helig, rd_pullResign_ne hin]
    refine ⟨?_, rfl, by rw [← hu]; rfl, ?_, ?_, ?_, ?_⟩
    · rw [isSet, hrd (by decide) (by decide), rd_takeoverBegun_ne (by decide) (by decide), ← isSet]
      exact isSet_wrB_self _ _ (by decide)
    · rw [hrd (by decide) (by decide), rd_takeoverBegun_trigger (by decide)]
    · rw [hrd (by decide) (by decide), rd_takeoverBegun_at, hu]
    · rw [isSet, rd_takePairCfg_ne (by decide), ← isSet, isSet_pullResign_in]
    · rw [role, hrd (by decide) (by decide), rd_takeoverBegun_ne (by decide) (by decide), rd_linkDown_ne (by decide), rd_tick]
      exact hrole
  case falls =>
    refine runs_of_event rfl hs ?_
    let u := lineLow (tick dt s)
    have hu : u.cyc = s.cyc + dt := hcyc
    have hrole' : role u = 2 := role_lineLow.trans ((role_tick dt).trans hrole)
    have he' : pairEligible u = true := by
      rw [pairEligible_congr (t := u) (s := tick dt s) role_lineLow ⟨rfl, rfl, rfl⟩ rfl rfl, pairEligible_tick, he]
    rw [resignEdge_seen (.inl (by rwa [tick_tie])) (by rwa [tick_tie]), role_tick, if_pos hrole,
      trigger_quiet (s := u) hq.1 hq.2.1 he' (by exact (congrArg Tie.takeover (tick_tie s dt)).trans hn), if_neg (by decide)]
    refine ⟨?_, ?_, rd_takeoverBegun_trigger (by decide), ?_, ?_⟩
    · rw [isSet, rd_takeoverBegun_ne (by decide) (by decide), ← isSet, isSet_lineLow_in]
    · rw [takeoverBegun_tie, hu]
    · rw [rd_takeoverBegun_at, hu]
    · rw [role, rd_takeoverBegun_ne (by decide) (by decide)]
      exact hrole'
  case both =>
    refine runs_of_event rfl hs ?_
    have ht' : (tick dt s).tie.takeover = some (1, (tick dt s).cyc) := by rw [tick_tie, hcyc, ht]
    rw [resignEdge_seen (.inr (takeoverNow_of_began ht')) (by rwa [tick_tie]), role_tick, if_pos hrole,
      trigger_same_cycle (s := lineLow (tick dt s)) ht']
    refine ⟨rd_wr_lt _ (by decide), by rw [← hcyc]; rfl, ?_⟩
    rw [role, rd_wr_ne _ _ (by decide), rd_onTie, ← role, role_lineLow, role_tick, hrole]
  case closes =>
    refine runs_of_event rfl hs ?_
    rw [closeSwitches_quiet hq (by rwa [tick_tie]) (by rwa [isSet_tick]) (by rwa [tick_tie, hcyc])]
    have hsw' : (switchesClosed cause (tick dt s)).sw = [] := (setRole_sw _ _).trans hsw
    have htold := (tells_intPulse 375 (raise 0x0607 0x66 0 actRole (takeoverCounted (switchesClosed cause (tick dt s))))).trans
      (tells_vectorAll 4 _)
    have htie : _ = (switchesClosed cause (tick dt s)).tie := htold.tie.trans (takeoverCounted_tie (s := switchesClosed cause (tick dt s)))
    obtain ⟨hclosed, hnone⟩ := switchesClosed_tie (cause := cause) (s := tick dt s)
    refine ⟨by rw [htie, hclosed], by rw [htie, hnone], ?_, ?_, ?_, detects_told (detects_raise ..)⟩
    · rw [role, htold.rd _ (by decide), rd_raise, ← role, role_takeoverCounted hsw', switchesClosed, role_setRole (takenRole_lt _ _),
        takenRole, tick_tie]
    · rw [isSet, htold.rd _ (by decide), rd_raise, ← isSet, isSet_takeoverCounted hsw']
    · rw [htold.rd _ (by decide), rd_raise, rd_takeoverCounted_count hsw', switchesClosed, rd_setRole (by decide) (by decide),
        rd_onTie, rd_tick]

/-! ### The resign line (R303, R304, R309) -/

/-- The module's own assertion is over. -/
theorem resignOver_of_due {u : Nat} (h : s.tie.resign = some u) (hu : u ≤ s.cyc) :
    resignOver s = onTie (fun x => { x with resign := none }) s := by simp [resignOver, h, hu]

theorem resignStuck_of_low (hin : isSet s PAIR_STATUS_RESIGN_IN = true) (hr : s.tie.resign = none) (hd : s.tie.deaf = false)
    (hlow : s.tie.lowAt + 4000 < s.cyc) :
    resignStuck s = raise 0x0603 0x66 0 0 (onTie (fun x => { x with deaf := true }) s) := by
  simp [resignStuck, hin, hr, hd, hlow]

theorem resignRise_of_free (h : s.tie.resign = none) :
    resignRise s = wrB PAIR_STATUS_RESIGN_IN false (onTie (fun x => { x with deaf := false }) s) := by simp [resignRise, h]

/-- A line that is low already stays low since when it fell. -/
theorem lineLow_tie_of_low (h : isSet s PAIR_STATUS_RESIGN_IN = true) : (lineLow s).tie = s.tie := by simp [lineLow, h]

theorem resignLine : Clauses.ResignLine := by
  intro dt s hs
  have hcyc : (tick dt s).cyc = s.cyc + dt := tick_cyc dt s
  refine ⟨fun hr hd hrole hw => ?duty, fun u hu hdue => ?ended, fun hin hr hd hlow => ?stuck, fun hr => ?rise⟩
  case duty =>
    refine runs_of_event rfl hs ?_
    rw [resignEdge_seen (.inl (by rwa [tick_tie])) (by rwa [tick_tie]), role_tick, hrole, if_neg (by decide), if_pos rfl]
    obtain ⟨hrole', hclosed, hin⟩ := stepDown_standby (s := lineLow (tick dt s)) (by rw [role_lineLow, role_tick, hrole])
      ((congrArg Tie.handover (tick_tie s dt)).trans hw)
    rw [isSet_lineLow_in] at hin
    generalize stepDown 2 (lineLow (tick dt s)) = u at hrole' hclosed hin ⊢
    exact ⟨hrole', hclosed, hin, detects_raise ..⟩
  case ended =>
    refine runs_of_event rfl hs ?_
    rw [resignOver_of_due (by rwa [tick_tie]) (by rwa [hcyc])]
    exact ⟨by rw [onTie_tie, tick_tie], tick_regs s dt⟩
  case stuck =>
    let t := raise 0x0603 0x66 0 0 (onTie (fun x => { x with deaf := true }) (tick dt s))
    have hin' : isSet t PAIR_STATUS_RESIGN_IN = true := by rwa [isSet_raise, isSet_onTie, isSet_tick]
    have hr' : t.tie.resign = none := (congrArg Tie.resign (tick_tie s dt)).trans hr
    have hsteady : steady 0 t = true := steady_zero_tick hs
    refine runs_of_event rfl hs ?_
    rw [resignStuck_of_low (by rwa [isSet_tick]) (by rwa [tick_tie]) (by rwa [tick_tie]) (by rwa [tick_tie, hcyc])]
    refine ⟨by rw [raise_tie, onTie_tie, tick_tie], detects_raise .., tick_regs s dt, lineLow t, ?_, lineLow_tie_of_low hin',
      role_lineLow, rfl⟩
    rw [← resignEdge_deaf hr' rfl]
    exact event_steady hsteady resignEdge
  case rise =>
    refine runs_of_event rfl hs ?_
    rw [resignRise_of_free (by rwa [tick_tie])]
    exact ⟨isSet_wrB_self _ _ (by decide), rfl, (onlyRegs_onTie _ (.of_regs (tick_regs s dt) _)).wrB _ (by decide)⟩

/-! ### The benchmark line (R311 to R313) -/

@[simp] theorem bmChecks_tick (dt : Nat) : bmChecks (tick dt s) = bmChecks s := by simp [bmChecks]

theorem chainAt_tick (dt x : Nat) : chainAt (tick dt s) x = chainAt s x := by simp [chainAt]

theorem bmCycle_congr (h : t.regs = s.regs) (c : Int) : bmCycle t c = bmCycle s c := by
  simp only [bmCycle, reversed, isSet_congr h]

/-- A pulse is seen in the cycle of the engine that the chain's value `a` lies in. -/
def pulseSeen (a : Int) (s : State) : State := onTie (fun t => { t with bmSeen := some (bmCycle s a + 1), missing := 0 }) s

/-- A pulse far from benchmark counts and is flagged. -/
def mismatchShown (s : State) : State := flag PAIR_STATUS_BM_MISMATCH (count PAIR_COUNT1_BM_MISMATCH 1 s)

theorem benchmarkEdge_eq (h : bmChecks s = true) : benchmarkEdge s =
    if (signed 24 (ofSigned 24 (chainAt s (s.cyc - 8) / unit))).natAbs ≤ 16 then pulseSeen (chainAt s (s.cyc - 8) / unit) s
    else raisePerCycle 0x0606 0 0x67 0 0 (mismatchShown (pulseSeen (chainAt s (s.cyc - 8) / unit) s)) := by
  simp only [benchmarkEdge, h, Bool.not_true, Bool.false_eq_true, if_false]
  rfl

theorem rd_raisePerCycle (code inst source : Nat) (d : Word) (act : Nat) : rd (raisePerCycle code inst source d act s) f = rd s f :=
  rd_congr (raisePerCycle_regs ..) f

theorem detects_raisePerCycle {code inst : Nat} (source : Nat) (d : Word) (act : Nat)
    (h : Tbl.get 0 s.seq.marks (code * 64 + inst) ≠ rd s SEQ_CYCLE_CYCLE + 1) :
    Detects (raisePerCycle code inst source d act s) code := by
  simp only [raisePerCycle, h, if_false]
  exact detects_raise ..

theorem isSet_mismatchShown : isSet (mismatchShown s) PAIR_STATUS_BM_MISMATCH = true := isSet_flag_self _ (by decide)

theorem rd_mismatchShown_count (hsw : s.sw = []) :
    rd (mismatchShown s) PAIR_COUNT1_BM_MISMATCH = min PAIR_COUNT1_BM_MISMATCH.max (rd s PAIR_COUNT1_BM_MISMATCH + 1) := by
  rw [mismatchShown, rd_flag_ne _ (by decide), rd_count_self _ _ (by simp [hsw])]

theorem rd_mismatchShown_cycle (hsw : s.sw = []) : rd (mismatchShown s) SEQ_CYCLE_CYCLE = rd s SEQ_CYCLE_CYCLE := by
  rw [mismatchShown, rd_flag_ne _ (by decide), rd_count_ne _ hsw (by decide)]

theorem onlyRegs_mismatchShown {u : State} (hsw : s.sw = []) (h : OnlyRegs u s [PAIR_COUNT1, PAIR_STATUS]) :
    OnlyRegs u (mismatchShown s) [PAIR_COUNT1, PAIR_STATUS] := (h.count 1 hsw (by decide)).flag (by decide)

/-- The engine's cycle `n`, `m` pulses missing by now. -/
def pulseMissed (n : Int) (m : Nat) (s : State) : State := onTie (fun t => { t with bmMissed := some n, missing := m }) s

section
variable {n : Int} (hc : bmChecks s = true) (hn : n = bmCycle s (chainNow s / unit)) (hseen : s.tie.bmSeen ≠ some n)
  (hmissed : s.tie.bmMissed ≠ some n)
include hc hn hseen hmissed

theorem pulseMissing_counts (hm : s.tie.missing ≠ 1) : pulseMissing s = pulseMissed n (s.tie.missing + 1) s := by
  have hm' : ¬s.tie.missing + 1 = 2 := by omega
  subst hn
  simp only [pulseMissing, hc, beq_eq_false_iff_ne.mpr hseen, beq_eq_false_iff_ne.mpr hmissed, hm', Bool.not_true, Bool.or_self,
    Bool.false_eq_true, if_false, false_and]
  rfl

/-- The second missing pulse in a row makes a driving module listen again. -/
theorem pulseMissing_second (hm : s.tie.missing = 1) (hd : driving s = true) : pulseMissing s =
    raise 0x060A 0x67 0 0 (onTie (fun t => { t with missing := 0, listen := some s.cyc }) (pulseMissed n 2 s)) := by
  have hd' : driving (pulseMissed n 2 s) = true := hd
  subst hn
  simp only [pulseMissing, hc, beq_eq_false_iff_ne.mpr hseen, beq_eq_false_iff_ne.mpr hmissed, hm, Bool.not_true, Bool.or_self,
    Bool.false_eq_true, if_false]
  rw [← pulseMissed.eq_1, if_pos ⟨trivial, hd'⟩]
  rfl

end

/-- The module claims the role of the benchmark line, which it pulls low for as long as its slot number says. -/
def lineClaimed (s : State) : State :=
  wrB PAIR_STATUS_BM_HOLDER true (onTie (fun x =>
    { x with listen := none, missing := 0, bmLow := some (s.cyc + 8000 + 4000 * rd s PAIR_STATUS_SLOT) })
      { s with out := .benchmarkLow s.cyc (s.cyc + 8000 + 4000 * rd s PAIR_STATUS_SLOT) :: s.out })

theorem listenEnd_claims {since : Nat} (hl : s.tie.listen = some since) (hd : driving s = true)
    (he : isSet s PAIR_CFG_BM_ENABLE = true) (hover : since + 800000 * (rd s PAIR_STATUS_SLOT + 1) ≤ s.cyc) :
    listenEnd s = lineClaimed s := by
  simp only [listenEnd, hl, hd, he, hover, decide_true, Bool.and_self, if_true]
  rfl

theorem onlyRegs_lineClaimed {u : State} (h : OnlyRegs u s [PAIR_STATUS]) : OnlyRegs u (lineClaimed s) [PAIR_STATUS] := by
  have hout (o : List Out) : OnlyRegs u { s with out := o } [PAIR_STATUS] := h
  exact (onlyRegs_onTie _ (hout _)).wrB _ (by decide)

theorem claimHeard_lower {k : Nat} (he : isSet s PAIR_CFG_BM_ENABLE = true) (hk : k < rd s PAIR_STATUS_SLOT) :
    claimHeard k s = wrB PAIR_STATUS_BM_HOLDER false (onTie (fun t => { t with listen := none }) s) := by
  simp [claimHeard, he, hk]

/-- What `BENCHMARK_LINE_RELEASE` does in its cycle. -/
def lineReleased (s : State) : State :=
  match s.tie.bmLow with
  | some t => if t ≤ s.cyc then onTie (fun x => { x with bmLow := none }) s else s
  | none => s

theorem lineReleased_of_due {u : Nat} (h : s.tie.bmLow = some u) (hu : u ≤ s.cyc) :
    lineReleased s = onTie (fun x => { x with bmLow := none }) s := by simp [lineReleased, h, hu]

theorem exec_benchmarkLineRelease (hs : steady dt s = true) : exec (.benchmarkLineRelease dt) s = .next (lineReleased (tick dt s)) :=
  event_steady hs lineReleased

/-- A pulse is checked against the chain (R312). -/
theorem benchmarkEdges (hs : steady dt s = true) (hdt : 0 < dt) (hc : bmChecks s = true) :
    let a := chainAt s (s.cyc + dt - 8) / unit
    ((signed 24 (ofSigned 24 a)).natAbs ≤ 16 → Runs (.benchmarkEdge dt) s (fun t => t.tie.bmSeen = some (bmCycle s a + 1) ∧
      t.tie.missing = 0 ∧ t.regs = s.regs ∧ t.faults = s.faults)) ∧
    (16 < (signed 24 (ofSigned 24 a)).natAbs → Runs (.benchmarkEdge dt) s (fun t => isSet t PAIR_STATUS_BM_MISMATCH = true ∧
      rd t PAIR_COUNT1_BM_MISMATCH = min PAIR_COUNT1_BM_MISMATCH.max (rd s PAIR_COUNT1_BM_MISMATCH + 1) ∧
        (Tbl.get 0 s.seq.marks (0x0606 * 64) ≠ rd s SEQ_CYCLE_CYCLE + 1 → Detects t 0x0606) ∧
          OnlyRegs s t [PAIR_COUNT1, PAIR_STATUS])) := by
  intro a
  have hedge := benchmarkEdge_eq (s := tick dt s) (by rwa [bmChecks_tick])
  rw [chainAt_tick, tick_cyc] at hedge
  have hsw : (pulseSeen a (tick dt s)).sw = [] := tick_sw (Nat.ne_of_gt hdt) s
  constructor
  · intro hnear
    refine runs_of_event rfl hs ?_
    rw [hedge, if_pos hnear]
    exact ⟨congrArg (fun x => some (x + 1)) (bmCycle_congr (tick_regs s dt) a), rfl, tick_regs s dt, tick_faults s dt⟩
  · intro hfar
    refine runs_of_event rfl hs ?_
    rw [hedge, if_neg (Nat.not_le.mpr hfar)]
    refine ⟨?_, ?_, fun hmark => detects_raisePerCycle _ _ _ ?_, fun f hf => ?_⟩
    · rw [isSet, rd_raisePerCycle, ← isSet, isSet_mismatchShown]
    · rw [rd_raisePerCycle, rd_mismatchShown_count hsw, pulseSeen, rd_onTie, rd_tick]
    · have hseq : (mismatchShown (pulseSeen a (tick dt s))).seq = s.seq := by simp [mismatchShown, pulseSeen]
      rw [hseq, rd_mismatchShown_cycle hsw, pulseSeen, rd_onTie, rd_tick]
      exact hmark
    · rw [rd_raisePerCycle]
      exact onlyRegs_mismatchShown hsw (onlyRegs_onTie _ (.of_regs (tick_regs s dt) _)) f hf

theorem benchmarkLine : Clauses.BenchmarkLine := by
  intro dt s hs hdt now
  have hcyc : (tick dt s).cyc = now := tick_cyc dt s
  refine ⟨benchmarkEdges hs hdt, ?missing, fun since hl hd he hover => ?listens, fun k he hk => ?claim, fun u hu hdue => ?released⟩
  case missing =>
    intro hc n hseen hmissed
    have hc' : bmChecks (tick dt s) = true := by rwa [bmChecks_tick]
    have hn : n = bmCycle (tick dt s) (chainNow (tick dt s) / unit) := (bmCycle_congr (tick_regs s dt) _).symm
    have hseen' : (tick dt s).tie.bmSeen ≠ some n := by rwa [tick_tie]
    have hmissed' : (tick dt s).tie.bmMissed ≠ some n := by rwa [tick_tie]
    refine ⟨fun hm => runs_of_event rfl hs ?_, fun hm hd => runs_of_event rfl hs ?_⟩
    · rw [pulseMissing_counts hc' hn hseen' hmissed' (by rwa [tick_tie]), tick_tie]
      exact ⟨rfl, tick_regs s dt, tick_faults s dt⟩
    · rw [pulseMissing_second hc' hn hseen' hmissed' (by rwa [tick_tie]) (by rwa [driving_tick])]
      exact ⟨rfl, congrArg some hcyc, detects_raise .., (raise_regs ..).trans (tick_regs s dt)⟩
  case listens =>
    refine runs_of_event rfl hs ?_
    rw [listenEnd_claims (by rwa [tick_tie]) (by rwa [driving_tick]) (by rwa [isSet_tick]) (by rwa [rd_tick, hcyc])]
    refine ⟨isSet_wrB_self _ _ (by decide), rfl, ?_, onlyRegs_lineClaimed (.of_regs (tick_regs s dt) _)⟩
    rw [lineClaimed, wrB_tie, onTie_tie, hcyc, rd_tick]
  case claim =>
    refine runs_of_event (f := claimHeard k) rfl hs ?_
    rw [claimHeard_lower (by rwa [isSet_tick]) (by rwa [rd_tick])]
    exact ⟨isSet_wrB_self _ _ (by decide), rfl, (onlyRegs_onTie _ (.of_regs (tick_regs s dt) _)).wrB _ (by decide)⟩
  case released =>
    refine ⟨_, exec_benchmarkLineRelease hs, ?_⟩
    rw [lineReleased_of_due (by rwa [tick_tie]) (by rwa [hcyc])]
    exact ⟨by rw [onTie_tie, tick_tie], tick_regs s dt⟩

/-- Settles O29: a clause for takeovers (R302, R305, R306, R309), one for the resign line (R303, R304, R309), one for the benchmark line
(R311 to R313). -/
theorem tieLines : Obligations.TieLines := ⟨takeovers, resignLine, benchmarkLine⟩

end Sys2Proof.Machine
end
